-- ==== Sys2Proof/Word.lean ====
section
/-! DEFINITION. Word.lean: the machine's plain number types (R4: 32-bit registers, little-endian bytes). -/

namespace Sys2Proof

/-- One byte. -/
abbrev Byte := BitVec 8

/-- One register or data word of 32 bits ("All registers are 32 bits wide", spec/00). -/
abbrev Word := BitVec 32

/-- One 64-bit quantity (a register pair, a cellar address, a Parnik key). -/
abbrev DWord := BitVec 64

/-- A logical hive number, row x 12 + column (spec/01). -/
abbrev HiveId := Fin 96

/-- A colony number; colony c is bound to VF c+1 (R237, R274). -/
abbrev ColId := Fin 64

/-- A logical row of the hive array. -/
abbrev RowId := Fin 8

/-- A photonic bank. -/
abbrev BankId := Fin 8

/-- An Exoth port. -/
abbrev PortId := Fin 4

/-- A forager channel. -/
abbrev ChanId := Fin 16

/-- A slot of the job table (R239). -/
abbrev SlotId := Fin 1024

/-- A wax partition, 0x00 to 0x40 (0x40 is the express partition). -/
abbrev PartId := Fin 65

end Sys2Proof
end

