-- ==== Sys2Proof/Machine/Bits.lean ====
section
/-! DEFINITION. Machine/Bits.lean: bit fields, byte order and sign conventions used by every block (R4, R7). -/

namespace Sys2Proof.Machine

/-- Bits [lo+len-1 : lo] of a number. -/
def natBits (v lo len : Nat) : Nat := (v >>> lo) % 2 ^ len

/-- Bits [lo+len-1 : lo] of a register word, as a number. -/
def fld (w : Word) (lo len : Nat) : Nat := natBits w.toNat lo len

/-- Bit i of a register word. -/
def bit (w : Word) (i : Nat) : Bool := w.getLsbD i

/-- A register word put together from (low bit, length, value) fields; bits no field names read 0 (R7). -/
def mkWord : List (Nat × Nat × Nat) → Word
  | [] => 0
  | (lo, len, v) :: r => (BitVec.ofNat 32 ((v % 2 ^ len) <<< lo)) ||| mkWord r

/-- The register word whose bits [len-1:0] are `v`. -/
def lowWord (len v : Nat) : Word := BitVec.ofNat 32 (v % 2 ^ len)

/-- A single 1 at bit i. -/
def bitAt (i : Nat) : Word := BitVec.ofNat 32 (2 ^ i)

/-- Table 0.2, W1C: each written 1 clears that bit, each 0 leaves it. -/
def w1c (cur w : Word) : Word := cur &&& ~~~w

/-- Table 0.2, W1S: each written 1 sets that bit, each 0 leaves it. -/
def w1s (cur w : Word) : Word := cur ||| w

/-- Set bit i of an event word. -/
def setBit (cur : Word) (i : Nat) : Word := cur ||| bitAt i

/-- The signed reading of an n-bit field. -/
def sext (v n : Nat) : Int :=
  if v % 2 ^ n < 2 ^ (n - 1) then ((v % 2 ^ n : Nat) : Int) else ((v % 2 ^ n : Nat) : Int) - ((2 ^ n : Nat) : Int)

/-- The n-bit two's complement field of an integer. -/
def toField (v : Int) (n : Nat) : Nat := (v % ((2 ^ n : Nat) : Int)).toNat

/-- The signed value of a 32-bit word. -/
def sword (w : Word) : Int := w.toInt

/-- Saturate to a signed range of n bits. -/
def satS (v : Int) (n : Nat) : Int :=
  if v < -((2 ^ (n - 1) : Nat) : Int) then -((2 ^ (n - 1) : Nat) : Int)
  else if v > ((2 ^ (n - 1) : Nat) : Int) - 1 then ((2 ^ (n - 1) : Nat) : Int) - 1
  else v

/-- A little-endian number of n bytes as bytes, lowest first (R4). -/
def leBytes : Nat → Nat → List Byte
  | 0, _ => []
  | n + 1, v => BitVec.ofNat 8 v :: leBytes n (v / 256)

/-- The little-endian number that bytes spell (R4). -/
def leNat : List Byte → Nat
  | [] => 0
  | b :: r => b.toNat + 256 * leNat r

/-- The big-endian number that bytes spell (used only where a named standard is big-endian). -/
def beNat (bs : List Byte) : Nat := leNat bs.reverse

/-- A big-endian number of n bytes. -/
def beBytes (n v : Nat) : List Byte := (leBytes n v).reverse

/-- The low half of a 64-bit quantity (register _LO). -/
def loHalf (d : DWord) : Word := d.setWidth 32

/-- The high half of a 64-bit quantity (register _HI). -/
def hiHalf (d : DWord) : Word := (d >>> 32).setWidth 32

/-- The 64-bit quantity of two halves. -/
def pairOf (hi lo : Word) : DWord := (hi.setWidth 64 <<< 32) ||| lo.setWidth 64

/-- Replace the low half. -/
def setLo (d : DWord) (w : Word) : DWord := pairOf (hiHalf d) w

/-- Replace the high half. -/
def setHi (d : DWord) (w : Word) : DWord := pairOf w (loHalf d)

/-- An address with the bits below an alignment of 2^k taken as 0 (R523). -/
def alignDown (a k : Nat) : Nat := (a >>> k) <<< k

/-- Split a list into pieces of n elements (n positive; `fuel` bounds the pieces). -/
def chunksOf {α : Type} (n : Nat) : Nat → List α → List (List α)
  | 0, _ => []
  | fuel + 1, l => if l.isEmpty then [] else l.take n :: chunksOf n fuel (l.drop n)

/-- Bytes as 32-bit little-endian words. -/
def bytesToWords (bs : List Byte) : List Word :=
  (chunksOf 4 bs.length bs).map fun c => BitVec.ofNat 32 (leNat c)

/-- 32-bit words as little-endian bytes. -/
def wordsToBytes (ws : List Word) : List Byte := ws.flatMap fun w => leBytes 4 w.toNat

/-- Change one element of a fixed array. -/
def updAt {α : Type} {n : Nat} (v : Vector α n) (i : Fin n) (f : α → α) : Vector α n := v.set i (f v[i])

/-- Replace one element of a fixed array. -/
def putAt {α : Type} {n : Nat} (v : Vector α n) (i : Fin n) (x : α) : Vector α n := v.set i x

/-- Replace the i-th element of a list, if there is one. -/
def listPut {α : Type} (l : List α) (i : Nat) (x : α) : List α := l.set i x

/-- Round half away from zero of a quotient n / d (d positive). -/
def divRoundHalfAway (n : Int) (d : Nat) : Int :=
  if n < 0 then -(((2 * n.natAbs + d) / (2 * d) : Nat) : Int) else (((2 * n.natAbs + d) / (2 * d) : Nat) : Int)

/-- Arithmetic shift right of an integer (toward minus infinity). -/
def asr (v : Int) (k : Nat) : Int := v / ((2 ^ k : Nat) : Int)

/-- `decide`-style bit of a condition. -/
def b2n (b : Bool) : Nat := if b then 1 else 0

/-- The ranges [a, a+n) and [b, b+m) share a byte. -/
def overlaps (a n b m : Nat) : Bool := decide (0 < n) && decide (0 < m) && decide (a < b + m) && decide (b < a + n)

end Sys2Proof.Machine
end

