-- ==== Sys2Proof/Machine/Tab.lean ====
section
/-! DEFINITION. Machine/Tab.lean: sparse storage in one canonical form (addresses strictly rising, no entry equal to
what an unlisted address reads as), and byte memories built on it. Log entry 3. -/

namespace Sys2Proof.Machine

/-- What a table holds at key `a`, where an unlisted key holds `d`. -/
def tabGet {α : Type} (d : α) : List (Nat × α) → Nat → α
  | [], _ => d
  | (b, w) :: r, a => if a = b then w else tabGet d r a

/-- Write one key; a value equal to the default removes the entry. -/
def tabSet {α : Type} [DecidableEq α] (d : α) : List (Nat × α) → Nat → α → List (Nat × α)
  | [], a, v => if v = d then [] else [(a, v)]
  | (b, w) :: r, a, v =>
    if a < b then (if v = d then (b, w) :: r else (a, v) :: (b, w) :: r)
    else if a = b then (if v = d then r else (a, v) :: r)
    else (b, w) :: tabSet d r a v

/-- Every key is at least `lo`, keys rise strictly, and no entry holds the default. -/
def tabWfFrom {α : Type} [DecidableEq α] (d : α) : Nat → List (Nat × α) → Bool
  | _, [] => true
  | lo, (b, w) :: r => decide (lo ≤ b) && decide (w ≠ d) && tabWfFrom d (b + 1) r

/-- The canonical form of a table. -/
def tabWf {α : Type} [DecidableEq α] (d : α) (t : List (Nat × α)) : Bool := tabWfFrom d 0 t

/-- Return every key in [lo, lo+n) to the default. -/
def tabClear {α : Type} (t : List (Nat × α)) (lo n : Nat) : List (Nat × α) :=
  t.filter fun e => decide (e.1 < lo) || decide (lo + n ≤ e.1)

/-- A byte memory: (address, byte) pairs in canonical form; an unlisted address reads 0x00
(DESIGN CHOICE, log entry 3). -/
abbrev Memory := List Host.Cell

/-- The canonical form of a byte memory. -/
def Memory.wf (m : Memory) : Bool := tabWf (0 : Byte) m

/-- Read one byte. -/
def memRead (m : Memory) (a : Nat) : Byte := tabGet 0 m a

/-- Write one byte. -/
def memWrite (m : Memory) (a : Nat) (b : Byte) : Memory := tabSet 0 m a b

/-- Read n bytes from `a` on. -/
def memReadN (m : Memory) (a : Nat) : Nat → List Byte
  | 0 => []
  | n + 1 => memRead m a :: memReadN m (a + 1) n

/-- Write bytes from `a` on. -/
def memWriteN (m : Memory) (a : Nat) : List Byte → Memory
  | [] => m
  | b :: r => memWriteN (memWrite m a b) (a + 1) r

/-- Read a little-endian number of n bytes (R4). -/
def memReadLE (m : Memory) (a n : Nat) : Nat := leNat (memReadN m a n)

/-- Write a little-endian number of n bytes (R4). -/
def memWriteLE (m : Memory) (a n v : Nat) : Memory := memWriteN m a (leBytes n v)

/-- Read one 32-bit word. -/
def memRead32 (m : Memory) (a : Nat) : Word := BitVec.ofNat 32 (memReadLE m a 4)

/-- Write one 32-bit word. -/
def memWrite32 (m : Memory) (a : Nat) (w : Word) : Memory := memWriteLE m a 4 w.toNat

/-- Zero n bytes from `a` on. -/
def memZero (m : Memory) (a n : Nat) : Memory := tabClear m a n

/-- Write bytes at addresses reduced modulo a window of `size` bytes from `base` (R186). -/
def memWriteWrap (m : Memory) (base size off : Nat) : List Byte → Memory
  | [] => m
  | b :: r => memWriteWrap (memWrite m (base + off % size) b) base size (off + 1) r

/-- Read n bytes at offsets reduced modulo a window of `size` bytes from `base` (R186). -/
def memReadWrap (m : Memory) (base size off : Nat) : Nat → List Byte
  | 0 => []
  | n + 1 => memRead m (base + off % size) :: memReadWrap m base size (off + 1) n

end Sys2Proof.Machine
end

