-- ==== Sys2Proof/Machine/StHost.lean ====
section
/-! DEFINITION. Machine/StHost.lean: state of the PCI Express link, the functions, MSI-X, AER and the foragers
(spec/12), and what the part sends (the model's own record, log entry 8). -/

namespace Sys2Proof

/-- A PCI Express function of the part: PF0, or the VF of a colony (VF c+1, R237). -/
inductive Fn
  | pf0
  | vf (c : ColId)
  deriving DecidableEq, Repr

/-- A register requester with its own shadow (R262, R407). -/
inductive Req
  | pf0
  | vf (c : ColId)
  | guard
  deriving DecidableEq, Repr

/-- Control fields of configuration space that a write changes and that no row of its own covers (R271 to R279, R293). -/
inductive CfgField
  /-- Memory Space Enable of a function; for a VF, VF MSE of PF0 governs (R276). -/
  | mse
  | vfMse
  /-- Bus Master Enable of a function (R276). -/
  | busMaster
  | msixEnable
  | msixFunctionMask
  | numVfs
  | systemPageSize
  | ariHierarchy
  | relaxedOrdering
  /-- Max_Payload_Size, Max_Read_Request_Size and the error reporting enables of Device Control (R281, R285). -/
  | maxPayload
  | maxReadRequest
  | errorReporting
  /-- Error bits of Device Status, write 1 to clear. -/
  | deviceStatus
  /-- 10-Bit Tag Requester Enable of PF0, and of the VFs in SR-IOV Control (R268, R290). -/
  | tenBitTags
  | vfTenBitTags
  /-- ECRC Generation Enable and ECRC Check Enable of AER (R268). -/
  | ecrcGeneration
  | ecrcCheck
  /-- DW k of BAR0/BAR1 and BAR2/BAR3 of PF0 (R272). -/
  | bar (k : Fin 4)
  /-- A half of VF BAR0/BAR1 (R273). -/
  | vfBar (hi : Bool)
  /-- Completion Timeout Value of Device Control 2 (R293). -/
  | completionTimeout
  | completionTimeoutDisable
  /-- AER Uncorrectable Error Status, write 1 to clear. -/
  | aerUncorrectable
  /-- AER Correctable Error Status, write 1 to clear. -/
  | aerCorrectable
  | aerUncorrectableMask
  | aerUncorrectableSeverity
  | aerCorrectableMask
  /-- Power state of the Power Management capability: 0 D0, 3 D3hot. -/
  | powerState
  deriving DecidableEq, Repr

/-- Completion status of a request to the part. -/
inductive Cpl
  /-- Successful Completion. -/
  | sc
  /-- Unsupported Request. -/
  | ur
  /-- Completer Abort. -/
  | ca
  deriving DecidableEq, Repr

/-- How a read that the part issued to the cellar ended (R292): the reason byte of Table 11.4. -/
inductive RdRes
  | ok
  | ur
  | ca
  | poisoned
  | timeout
  deriving DecidableEq, Repr

/-- What a cellar write of the part carries (R288, R289). -/
inductive TxKind
  | output
  | record
  /-- Output and record of an express request. -/
  | xpOutput
  | xpRecord
  | foragerData (k : ChanId)
  /-- Forager data with EP = 1: it holds an uncorrectable word (R283). -/
  | foragerPoisoned (k : ChanId)
  | foragerStatus (k : ChanId)
  deriving DecidableEq, Repr

/-- What a cellar read of the part is for: an entry of a submission queue, the input of a job (slot and generation), a
descriptor or the data of a channel (R241, R248, R282). -/
inductive RdKey
  | entry (c : ColId) (q : Fin 4)
  | input (slot gen : Nat)
  | forDesc (k : ChanId)
  | forData (k : ChanId)
  deriving DecidableEq, Repr

namespace Machine

/-- One MSI-X table entry (R278). Vector Control resets to masked. -/
structure MsixEnt where
  addr : DWord := 0
  data : Word := 0
  masked : Bool := true
  deriving DecidableEq, Repr

/-- A request of the part that waits for Bus Master Enable (R276). -/
inductive HeldTx
  | write (kind : TxKind) (addr : Nat) (bytes : List Byte)
  | read (key : RdKey) (addr len : Nat)
  deriving DecidableEq, Repr

/-- Configuration state of one function that the rules act on (R271 to R279, R291). Reset values: log entry 6. -/
structure FnSt where
  mse : Bool := false
  bme : Bool := false
  msixEn : Bool := false
  msixMask : Bool := false
  msix : List MsixEnt := []
  /-- Pending Bit Array, one bit per vector. -/
  pba : BitVec 64 := 0
  aerUnc : Word := 0
  aerCor : Word := 0
  /-- Masks and severity of AER, First Error Pointer and Header Log. -/
  aerUncMask : Word := 0
  aerSev : Word := 0x62030
  aerCorMask : Word := 0x2000
  firstErr : BitVec 5 := 0
  hdrLog : BitVec 128 := 0
  /-- Error bits of Device Status: correctable, non-fatal, fatal, unsupported request. -/
  devSta : BitVec 4 := 0
  errEn : BitVec 4 := 0
  tag10 : Bool := false
  ecrcGen : Bool := false
  ecrcChk : Bool := false
  /-- BAR0/BAR1 and BAR2/BAR3 of PF0 (R272). -/
  bar0 : DWord := 0
  bar2 : DWord := 0
  relaxed : Bool := true
  /-- Max_Payload_Size and Max_Read_Request_Size of Device Control, 128 B << n (R234, R281, R285). -/
  mps : BitVec 3 := 0
  mrrs : BitVec 3 := 2
  cto : BitVec 4 := 0
  ctoDis : Bool := false
  powerState : BitVec 2 := 0
  /-- Requests that wait for Bus Master Enable, oldest first. -/
  held : List HeldTx := []
  deriving DecidableEq, Repr

/-- PF0 at reset: 64 vectors, every entry masked (R278). -/
def FnSt.pf0Reset : FnSt := { msix := List.replicate 64 {} }

/-- A VF at reset: 4 vectors, every entry masked (R278). -/
def FnSt.vfReset : FnSt := { msix := List.replicate 4 {} }

/-- SR-IOV control of PF0 (R274, R275). -/
structure SriovSt where
  vfEnable : Bool := false
  vfMse : Bool := false
  ari : Bool := false
  numVfs : Nat := 0
  pageSize : Word := 1
  /-- VF BAR0/BAR1 (R273). -/
  bar0 : DWord := 0
  tag10 : Bool := false
  deriving DecidableEq, Repr

/-- Flow-control credits that a receiver advertises: headers and data (16 bytes each) of posted and non-posted requests and
of completions; 0 is infinite. -/
structure FcCredits where
  ph : Nat := 0
  pd : Nat := 0
  nph : Nat := 0
  npd : Nat := 0
  cplh : Nat := 0
  cpld : Nat := 0
  deriving DecidableEq, Repr

/-- What the part advertises (R290). -/
def FcCredits.part : FcCredits := { ph := 64, pd := 512, nph := 64, npd := 16 }

/-- The PCI Express link (R269). Width and speed are 0 while it is down. -/
structure LinkSt where
  up : Bool := false
  width : Nat := 0
  speed : Nat := 0
  /-- Credits advertised to the other end since the link came up (R290). -/
  adv : FcCredits := {}
  /-- The link went down by surprise; the warm reset of DL_Down has not yet come (R291, R455). -/
  lost : Bool := false
  deriving DecidableEq, Repr

/-- FOR_STAT.STATE. -/
inductive ForState
  | idle
  | run
  | stopped
  | error
  deriving DecidableEq, Repr

/-- The descriptor that a channel is executing (Table 12.3). -/
structure ForDesc where
  dir : Nat
  wb : Bool
  stop : Bool
  len : Nat
  src : Nat
  dst : Nat
  /-- Where its STATUS goes, from the ring in which it was found (R282). -/
  statAt : Nat := 0
  /-- EN was set again while it was in progress: FOR_HEAD is that of the new ring. -/
  stale : Bool := false
  deriving DecidableEq, Repr

/-- One forager channel (R282 to R286). -/
structure ForSt where
  base : DWord := 0
  log2 : BitVec 4 := 4
  en : Bool := false
  /-- EN was cleared and the descriptor in progress has not ended. -/
  halting : Bool := false
  gate : Bool := false
  gated : Bool := false
  head : Nat := 0
  tail : Nat := 0
  st : ForState := .idle
  claimed : Bool := false
  claimDefer : Bool := false
  err : Bool := false
  code : Byte := 0
  bytes : DWord := 0
  cur : Option ForDesc := none
  deriving DecidableEq, Repr

/-- The host interface as a whole. -/
structure HostSt where
  link : LinkSt := {}
  sriov : SriovSt := {}
  pf0 : FnSt := FnSt.pf0Reset
  vf : Vector FnSt 64 := Vector.replicate 64 FnSt.vfReset
  forager : Vector ForSt 16 := Vector.replicate 16 {}
  /-- Read requests without a completion yet: their place in the record of what was handed to the transmitter, oldest being
  0, and their purpose (R290). -/
  reads : List (Nat × RdKey) := []
  deriving DecidableEq, Repr

/-- The last completion that the part returned to a requester (the model's own field, log entry 8). -/
structure Resp where
  status : Cpl := .sc
  data : List Word := []
  /-- EP = 1: the data is poisoned (R236). -/
  poisoned : Bool := false
  /-- Bytes of each completion of a BAR2 read, in order (R281). -/
  parts : List Nat := []
  deriving DecidableEq, Repr

end Machine
end Sys2Proof
end

