-- ==== Sys2Proof/Machine/StHive.lean ====
section
/-! DEFINITION. Machine/StHive.lean: state of a hive, its dancer and its honey unit (spec/04, spec/09), and the
messages in flight on the bee-line mesh. -/

namespace Sys2Proof.Machine

/-- Over-scaling request of a program (OVS_HREQ, R126, R127): level codes 0 to 3 for OVS0 to OVS3. -/
structure OvsReq where
  req : BitVec 2 := 0
  reqV : Bool := false
  pend : BitVec 2 := 0
  pendV : Bool := false
  deriving DecidableEq, Repr

/-- An LDW copy in progress or its remainder (R191, Table 9.8): supers offset, window offset, bytes left. -/
structure LdwCopy where
  src : Nat
  dst : Nat
  left : Nat
  deriving DecidableEq, Repr

/-- A MOV copy in progress or its remainder (R191, R192, R336): bytes that have not left the hive's router. -/
structure MovCopy where
  seq : Nat
  src : Nat
  dst : Nat
  left : Nat
  hive : HiveId
  /-- The station named when the copy goes to another station. -/
  station : Option (BitVec 6)
  deriving DecidableEq, Repr

/-- A chain whose last count has landed and whose result is to be requantised and written (R198): the accumulator's
value then, the accumulator, the base of the results and the chain's index, context and record. -/
structure FinPend where
  seq : Nat
  acc : Nat
  v : Word
  out : Nat
  index : Nat
  ctx : Fin 2
  recNo : Fin 16
  deriving DecidableEq, Repr

/-- What is on its way on a hive. -/
inductive LandKind
  /-- A count of the hive's own passes for accumulator `acc` (R83, R107). The accumulator holds it already: who reads one waits
  for its counts (R200), and only a clear comes before them (R76; log entry 72). -/
  | count
  /-- A result of HONEY REQ for n bytes of the window from an offset on: readers wait for it (R193, Table 9.7). -/
  | result (off n : Nat)
  /-- A pass of the row's bank in conversion, whose counts go to the accumulators from `acc` on: the counts of the bank, and
  those that the adder tree gives should the bank lose lock first (R117, R118). `fb` tells that the layer allows that, `slabs` are
the pass's slabs. -/
  | pass (vals alts : List Word) (fb : Bool) (slabs : Nat)
  /-- The pending over-scaling request comes into force (R127). -/
  | request
  deriving DecidableEq, Repr

/-- Something on its way on a hive, due `left` cycles from now. -/
structure Landing where
  seq : Nat
  acc : Nat := 0
  v : Word := 0
  left : Nat
  kind : LandKind := .count
  deriving DecidableEq, Repr

/-- A result of HONEY REQ that is on its way. -/
def Landing.isResult (x : Landing) : Bool :=
  match x.kind with
  | .result .. => true
  | _ => false

/-- A count or a pass of sending order up to q. -/
def Landing.upTo (q : Nat) (x : Landing) : Bool :=
  match x.kind with
  | .count => decide (x.seq ≤ q)
  | .pass .. => decide (x.seq ≤ q)
  | .result .. => false
  | .request => false

/-- Where the context of a program that is not running lies (R210, R254). -/
inductive CtxPlace
  /-- Not started. -/
  | fresh
  /-- In one of the hive's two on-die slots. -/
  | slot
  /-- In the system region of the supers. -/
  | supers
  deriving DecidableEq, Repr

/-- Why the queen stops a program (R208). -/
inductive StopWhy
  | preempt
  | reclaim
  | gate
  | shed
  | inspect
  | retire
  /-- Cancellation with the reason of Table 11.4. -/
  | cancel (reason : Nat)
  /-- A wax trial that runs its jobs to an end on WAX_MISMATCH (R171, R172). -/
  | waxMismatch
  /-- A stop of a swarm job ordered by its home station (R337). -/
  | swarm
  /-- The Guard defers a gate of a claimed hive (R389). -/
  | seal
  deriving DecidableEq, Repr

/-- What a STEP record of the glass counts since the last one (Table 22.3). -/
structure StepTr where
  cyc : Nat := 0
  wait : Nat := 0
  slabs : Nat := 0
  replays : Nat := 0
  tol : Nat := 0
  deriving DecidableEq, Repr

/-- A program: a job's work on one hive (Table 9.1), with its execution state. -/
structure Prog where
  slot : Nat
  /-- The logical hive of the dance directory that names it. -/
  home : HiveId
  /-- The honey context 1 is closed to it and context 0 acts (R81): it runs lent. -/
  lent : Bool := false
  g : Vector Word 16 := Vector.replicate 16 0
  l : Vector (BitVec 16) 4 := Vector.replicate 4 0
  pc : BitVec 24 := 0
  layer : Byte := 0
  /-- Barrier expectations e0 to e31. -/
  e : Vector Byte 32 := Vector.replicate 32 0
  /-- Accumulators 0 to 1,023, canonical table over 0. -/
  acc : List (Nat × Word) := []
  ovs : OvsReq := {}
  /-- The barrier on which a WAIT at PC holds the dancer (WAIT_PEND). -/
  waitPend : Option (Fin 32) := none
  /-- Index of the next comb-pass of the STREAM at PC while it is split (IN_STREAM, Table 9.8), in the order of R196. -/
  inStream : Option Nat := none
  /-- Next slab of the passes that issue together there; not 0 only where one of them stopped under R137 (Table 9.8). -/
  slab : Nat := 0
  /-- Outputs whose passes come next in the sample in progress, in their order; none: all that its round has left. -/
  issue : List Nat := []
  /-- Outputs among them that have still to execute that slab; none: all of them. -/
  redo : List Nat := []
  /-- The comb of the first of them waits for the rail (R137). -/
  stuck : Bool := false
  ldw : List LdwCopy := []
  /-- Copies of the weights of supered rounds that wait for an LDW engine, in their order (R232). -/
  rounds : List LdwCopy := []
  mov : Option MovCopy := none
  fins : List FinPend := []
  /-- Dancer cycles since the last yield point (R207). -/
  stepCycles : Nat := 0
  ctx : CtxPlace := .fresh
  /-- The input copy of the job has not completed and this program waits for it (R248). -/
  needInput : Bool := false
  /-- The queen holds it: it is not chosen for a hive until it is released. -/
  paused : Option StopWhy := none
  /-- Context 0 of the honey unit as saved with the context (Table 9.8). -/
  ps0 : List (Nat × Word) := []
  act0 : List (Nat × Word) := []
  /-- Where it stopped last and the CODE of that stop (Table 22.3). -/
  stopAt : Option (HiveId × Nat) := none
  /-- Saved as encrypted by the Guard (R389). -/
  sealed : Bool := false
  /-- Dispatch order of its job (R253). -/
  order : Nat := 0
  /-- Class of its job: 0 background, 1 normal, 2 high, 3 express. -/
  cls : Nat := 0
  tr : StepTr := {}
  /-- Comb-slabs and replays since the last yield point: n and p of R134. -/
  stN : Nat := 0
  stP : Nat := 0
  /-- The window contents of work that has left its hive (R92). -/
  win : Option Memory := none
  deriving DecidableEq, Repr

/-- A barrier: arrivals and generation (R203). -/
structure Barrier where
  target : Nat := 0
  count : Nat := 0
  gen : Byte := 0
  deriving DecidableEq, Repr

/-- One honey context: 16 parameter records as 64 words, and a 1,024-entry activation table (R77, R80). -/
structure HnyCtx where
  ps : List (Nat × Word) := []
  act : List (Nat × Word) := []
  deriving DecidableEq, Repr

/-- A pending hint (R202): the comb count, and the start and the issue as counts of the hive's run cycles. -/
structure Hint where
  combs : BitVec 4
  start : Nat
  issued : Nat := 0
  deriving DecidableEq, Repr

/-- One logical hive. -/
structure Hive where
  -- HIV_CTL and what is in force
  clkGate : Bool := false
  pwrGate : Bool := false
  force : Bool := false
  /-- Gates in force. -/
  clkOff : Bool := false
  pwrOff : Bool := false
  /-- PWR_GATE has been in force since the hive was last ungated (R95). -/
  pwrSince : Bool := false
  /-- Gates that wait for a pause (R92). -/
  clkWait : Bool := false
  pwrWait : Bool := false
  /-- Gates deferred by a claim (R92). -/
  clkDefer : Bool := false
  pwrDefer : Bool := false
  /-- The Guard's save, scrub and release for a deferred gate are under way (R389); they end so even when the gate is
  withdrawn (R93). -/
  deferring : Bool := false
  claimed : Bool := false
  barren : Bool := false
  evt : Word := 0
  faultCause : BitVec 4 := 0
  faultTag : BitVec 16 := 0
  -- DNC_CTL, DNC_STAT
  halt : Bool := false
  halted : Bool := false
  step : Bool := false
  psIdx : BitVec 7 := 0
  actIdx : BitVec 11 := 0
  uncorr : BitVec 4 := 0
  hny : Vector HnyCtx 2 := Vector.replicate 2 {}
  /-- Comb store, 1.5 MiB. -/
  cs : Memory := []
  /-- Word addresses of uncorrectable comb store words. -/
  csUe : List Nat := []
  /-- Scrub passes in which a row has had corrected errors, by row (R235). -/
  csSeen : List (Nat × Nat) := []
  /-- Rows queued for a remap, oldest first (R235). -/
  csQueue : List Nat := []
  run : Option Prog := none
  wait : List Prog := []
  /-- What is on its way for the program that runs, in the order of its issue. -/
  late : List Landing := []
  hints : List Hint := []
  /-- The hinted activity, which counts as hinted (R110) from a run-cycle count on, and the one before it. -/
  hinted : BitVec 4 := 0
  hintFrom : Nat := 0
  hintWas : BitVec 4 := 0
  stops : List StopWhy := []
  deriving DecidableEq, Repr

/-- A chain count in flight on the mesh for an accumulator of a logical hive (R75, R85 to R88). -/
structure MeshMsg where
  seq : Nat
  slot : Nat
  src : HiveId
  dst : HiveId
  acc : Nat
  v : Word
  /-- Logical hives on the way, the destination last (R86). -/
  path : List HiveId := []
  deriving DecidableEq, Repr

/-- An ARRIVE on its way to the queen (R204). -/
structure Arrival where
  seq : Nat
  slot : Nat
  hive : HiveId
  bar : Fin 32
  deriving DecidableEq, Repr

end Sys2Proof.Machine
end

