-- ==== Sys2Proof/Machine/StSwarm.lean ====
section
/-! DEFINITION. Machine/StSwarm.lean: swarm messages and swarm state of the station (spec/14). -/

namespace Sys2Proof

/-- A station address. -/
abbrev StnId := Fin 64

/-- The partner of one port: station and its port, when the port is ACTIVE and the partner known (R314, R328). -/
abbrev Partner := Option (StnId × PortId)

/-- The contents of a DISPATCH message (R333): class, flags, WAX_VER and key, with the colony and span of the job and what
checks 2 and 4 of R246 ask of it (log entry 63). -/
structure DispatchMsg where
  col : ColId
  cls : Nat
  replayable : Bool
  checkpoint : Bool
  waxVer : Word
  key : DWord
  span : DWord
  /-- SPILL_OK. -/
  spillOk : Bool := false
  /-- IN_HIVE and OUT_HIVE, where the message names them. -/
  hives : Option (Nat × Nat) := none
  deriving DecidableEq, Repr

/-- The swarm map that the root sends (R328): each member with the partners of its four ports, and MAP_GEN. -/
structure SwarmMap where
  members : DWord
  partners : List (StnId × List Partner)
  gen : BitVec 8
  deriving DecidableEq, Repr

/-- What a swarm message names in its header (Table 13.6), with the port that it arrived on. -/
structure MsgHdr where
  port : PortId
  src : StnId
  home : StnId
  tag : BitVec 16
  deriving DecidableEq, Repr

/-- The contents of a swarm message that the part sends (Table 14.2). -/
inductive SwMsg
  | dispatch (d : DispatchMsg)
  | accept
  | reject (code : Nat) (detail : DWord)
  | stop (reason : Nat)
  | done
  | timeout (dst port : Nat)
  | rollback (k : Nat) (role standby : StnId)
  | ckptDone (k : Nat)
  | arrive (bar : Fin 32) (gen : Byte)
  | release (bar : Fin 32) (gen : Byte)
  | tick (sec : Word) (delay : Nat)
  | add (hive : HiveId) (acc : Nat) (vals : List Nat)
  | move (hive : HiveId) (off : Nat) (data : List Byte)
  | ckptData (k : Nat) (hive : HiveId) (off : Nat) (data : List Byte)
  | ckptLoad (k : Nat) (hive : HiveId) (off : Nat) (data : List Byte)
  | token (value : Nat) (root : Bool) (list : List Nat)
  | tokenRet (value : Nat) (root : Bool) (list : List Nat)
  | links (partners : List Partner)
  | map (m : SwarmMap)
  | stnFail (stn by_ : StnId)
  | leave
  | drain
  | drained
  deriving DecidableEq, Repr

namespace Machine

/-- A message received whole for this station and not yet acted on (R306, R307): its port, KIND, VC and payload. -/
structure InMsg where
  port : PortId
  kind : Nat
  vc : Nat
  payload : List Byte
  nflits : Nat
  deriving DecidableEq, Repr

/-- EXO_SW_STAT.STATE. -/
inductive SwState
  | alone
  | walking
  | member
  | draining
  | detached
  deriving DecidableEq, Repr

/-- Progress of an enumeration walk on this station (R327, R328, R330). -/
inductive WalkPhase
  /-- The root drains swarm jobs first. -/
  | draining
  /-- The token is out, or this station visits its ports. -/
  | token
  /-- The root collects LINKS messages. -/
  | links
  deriving DecidableEq, Repr

/-- A walk as this station sees it. -/
structure Walk where
  phase : WalkPhase := .draining
  /-- The port on which the token arrived. -/
  arrival : Fin 4 := 0
  /-- Ports not yet visited, in visiting order. -/
  left : List (Fin 4) := []
  value : Nat := 0
  /-- Addresses recorded in the token's list. -/
  list : List Nat := []
  /-- The token met a second root (R328). -/
  twoRoot : Bool := false
  /-- LINKS received at the root. -/
  links : List (StnId × List Partner) := []
  deriving DecidableEq, Repr

/-- A checkpoint that this station keeps in its system region (R339). -/
structure OwnCkpt where
  slot : Nat
  k : Nat
  progs : List Prog
  scratch : List (Nat × Nat × List Byte)
  bars : Vector Barrier 32 := Vector.replicate 32 {}
  deriving DecidableEq, Repr

/-- Swarm state. -/
structure SwarmSt where
  topo : BitVec 2 := 0
  dimX : BitVec 3 := 0
  dimY : BitVec 3 := 0
  tsrc : Bool := false
  stby : DWord := 0
  st : SwState := .alone
  addr : Option StnId := none
  err : BitVec 4 := 0
  mapGen : BitVec 8 := 0
  evt : Word := 0
  failStn : BitVec 6 := 0
  failV : Bool := false
  failBy : BitVec 6 := 0
  failCount : BitVec 16 := 0
  members : DWord := 0
  /-- Partners of the members' ports, from the swarm map in force. -/
  partners : List (StnId × List Partner) := []
  walk : Option Walk := none
  /-- A DRAIN is in force: no swarm job is dispatched until the walk ends (R330). -/
  drain : Bool := false
  /-- The DRAIN has not been answered yet. -/
  drainOwed : Bool := false
  /-- Members whose DRAINED the root holds. -/
  drained : DWord := 0
  ckpts : List OwnCkpt := []
  deriving DecidableEq, Repr

end Machine
end Sys2Proof
end

