-- ==== Sys2Proof/Machine/Crypto.lean ====
section
/-! DEFINITION. Machine/Crypto.lean: the standard functions that the spec names: CRC-32 of IEEE 802.3 (R152), SHA-384
(FIPS 180-4), HMAC (FIPS 198-1), AES-256 (FIPS 197), CMAC (SP 800-38B), GCM (SP 800-38D), CTR_DRBG with AES-256
(SP 800-90A) and ECDSA P-384 verification (FIPS 186-5). Log entry 9: PRESUMED, from those standards. -/

namespace Sys2Proof.Machine

/-! ## CRC-32 -/

/-- The register of the reflected CRC-32 after some message bits, least significant bit of each byte first (R152). -/
def crc32Run (c : Word) : List Bool → Word
  | [] => c
  | b :: r => if c.getLsbD 0 == b then crc32Run (c >>> 1) r else crc32Run ((c >>> 1) ^^^ 0xEDB88320) r

/-- R152: CRC-32, initial value and final XOR 0xFFFF_FFFF. -/
def crc32 (bs : List Byte) : Word := ~~~(crc32Run 0xFFFFFFFF (bs.flatMap fun b => (List.range 8).map b.getLsbD))

/-- A CRC-16 of polynomial 0x1021, most significant bit first, from an initial value (used by R299). -/
def crc16Bits : Nat → BitVec 16 → BitVec 16
  | 0, c => c
  | n + 1, c => crc16Bits n (if c.msb then (c <<< 1) ^^^ 0x1021 else c <<< 1)

/-- CRC-16 with polynomial 0x1021 over bytes. -/
def crc16 (init : BitVec 16) (bs : List Byte) : BitVec 16 :=
  bs.foldl (fun c b => crc16Bits 8 (c ^^^ ((b.setWidth 16 : BitVec 16) <<< (8 : Nat)))) init

/-! ## SHA-384 -/

/-- The largest r below 2^i added to the start value whose k-th power stays within n, found bit by bit. -/
def rootFrom (k n : Nat) : Nat → Nat → Nat
  | 0, r => r
  | i + 1, r => rootFrom k n i (if (r + 2 ^ i) ^ k ≤ n then r + 2 ^ i else r)

/-- The first 64 bits after the binary point of the k-th root of p (FIPS 180-4, 4.2.3 and 5.3.4). -/
def rootFrac (k p : Nat) : BitVec 64 := BitVec.ofNat 64 (rootFrom k (p * 2 ^ (64 * k)) 70 0)

/-- The first 80 primes: what no prime up to 19 divides, up to 409. -/
def primes80 : List Nat :=
  (List.range 410).filter fun n => decide (2 ≤ n) && [2, 3, 5, 7, 11, 13, 17, 19].all fun d => n == d || n % d != 0

/-- Four successive values of one of the two sequences that the rounds build, newest first. -/
structure Quad where
  n0 : BitVec 64
  n1 : BitVec 64
  n2 : BitVec 64
  n3 : BitVec 64
  deriving DecidableEq, Repr

/-- The next value of a sequence. -/
def Quad.push (q : Quad) (x : BitVec 64) : Quad := ⟨x, q.n0, q.n1, q.n2⟩

/-- Sums, place by place. -/
def Quad.plus (q r : Quad) : Quad := ⟨q.n0 + r.n0, q.n1 + r.n1, q.n2 + r.n2, q.n3 + r.n3⟩

/-- Four roots as a quad. -/
def quadOf (l : List (BitVec 64)) : Quad := ⟨l.getD 0 0, l.getD 1 0, l.getD 2 0, l.getD 3 0⟩

/-- XOR of three turns to the right of a word. -/
def turns (i j k : Nat) (x : BitVec 64) : BitVec 64 := [i, j, k].foldl (fun y n => y ^^^ x.rotateRight n) 0

/-- XOR of two turns and a shift of a word. -/
def turnShift (i j k : Nat) (x : BitVec 64) : BitVec 64 := x.rotateRight i ^^^ x.rotateRight j ^^^ (x >>> k)

/-- One round over the pair of sequences (working words a to d and e to h), `kw` being constant plus schedule word. -/
def shaStep (q : Quad × Quad) (kw : BitVec 64) : Quad × Quad :=
  let (u, v) := q
  let pick := v.n2 ^^^ (v.n0 &&& (v.n1 ^^^ v.n2))
  let most := (u.n0 &&& u.n1) ||| (u.n2 &&& (u.n0 ||| u.n1))
  let t := kw + v.n3 + pick + turns 14 18 41 v.n0
  (u.push (t + most + turns 28 34 39 u.n0), v.push (t + u.n3))

/-- The schedule of a block, newest word first, longer by n words. -/
def schedMore : Nat → List (BitVec 64) → List (BitVec 64)
  | 0, l => l
  | n + 1, l =>
    schedMore n ((turnShift 19 61 6 (l.getD 1 0) + l.getD 6 0 + turnShift 1 8 7 (l.getD 14 0) + l.getD 15 0) :: l)

/-- The 80 round constants: cube roots. -/
def shaConsts : List (BitVec 64) := primes80.map (rootFrac 3)

/-- A block of 16 words taken into the chaining value. -/
def shaChain (q : Quad × Quad) (ws : List (BitVec 64)) : Quad × Quad :=
  let r := ((schedMore 64 ws.reverse).reverse.zipWith (· + ·) shaConsts).foldl shaStep q
  (q.1.plus r.1, q.2.plus r.2)

/-- Where SHA-384 starts: square roots of the 9th to the 16th prime. -/
def sha384Start : Quad × Quad :=
  let l := ((primes80.drop 8).take 8).map (rootFrac 2)
  (quadOf l, quadOf (l.drop 4))

/-- A message of whole blocks: a bit 1, zeros, and the length in 128 bits. -/
def shaFill (bs : List Byte) : List Byte :=
  bs ++ 0x80 :: (List.replicate (127 - (bs.length + 16) % 128) 0 ++ beBytes 16 (8 * bs.length))

/-- SHA-384 as 48 digest bytes, first digest byte first. -/
def sha384 (bs : List Byte) : List Byte :=
  let m := shaFill bs
  let ws := (chunksOf 8 m.length m).map fun x => BitVec.ofNat 64 (beNat x)
  let (u, v) := (chunksOf 16 ws.length ws).foldl shaChain sha384Start
  [u.n0, u.n1, u.n2, u.n3, v.n0, v.n1].flatMap fun x => beBytes 8 x.toNat

/-- HMAC-SHA-384 (FIPS 198-1; block of 128 bytes). -/
def hmac384 (key msg : List Byte) : List Byte :=
  let k0 := if key.length > 128 then sha384 key else key
  let k := k0 ++ List.replicate (128 - k0.length) 0
  sha384 (k.map (· ^^^ 0x5C) ++ sha384 (k.map (· ^^^ 0x36) ++ msg))

/-! ## AES-256 -/

/-- Multiply by x in GF(2^8) of FIPS 197. -/
def xtime (b : Byte) : Byte := (b <<< 1) ^^^ (if b.msb then 0x1B else 0)

/-- Product in GF(2^8), over n bits of the multiplier. -/
def gmul : Nat → Byte → Byte → Byte
  | 0, _, _ => 0
  | n + 1, a, b => (if b.getLsbD 0 then a else 0) ^^^ gmul n (xtime a) (b >>> 1)

/-- a^(2^n - 2) style chain: square and multiply for the inverse a^254. -/
def gfInv (a : Byte) : Byte :=
  let m := gmul 8
  let a2 := m a a
  let a4 := m a2 a2
  let a8 := m a4 a4
  let a16 := m a8 a8
  let a32 := m a16 a16
  let a64 := m a32 a32
  let a128 := m a64 a64
  m a128 (m a64 (m a32 (m a16 (m a8 (m a4 a2)))))

/-- The S-box of FIPS 197, computed from its definition. -/
def sbox (a : Byte) : Byte :=
  let b := gfInv a
  b ^^^ b.rotateLeft 1 ^^^ b.rotateLeft 2 ^^^ b.rotateLeft 3 ^^^ b.rotateLeft 4 ^^^ 0x63

/-- XOR of two byte strings. -/
def xorBytes (a b : List Byte) : List Byte := List.zipWith (· ^^^ ·) a b

/-- The next words of the AES-256 key schedule: the last eight words, oldest first; `i` counts from 8. -/
def aesSched : Nat → Nat → Byte → List (List Byte) → List (List Byte)
  | 0, _, _, _ => []
  | n + 1, i, rc, win =>
    let last := win.getD 7 []
    let t : List Byte :=
      if i % 8 = 0 then
        xorBytes ((last.drop 1 ++ last.take 1).map sbox) [rc, 0, 0, 0]
      else if i % 8 = 4 then last.map sbox else last
    let w := xorBytes (win.getD 0 []) t
    w :: aesSched n (i + 1) (if i % 8 = 0 then xtime rc else rc) (win.drop 1 ++ [w])

/-- The 15 round keys of 16 bytes. -/
def aesKeys (key : List Byte) : List (List Byte) :=
  let w0 := chunksOf 4 8 key
  let ws := w0 ++ aesSched 52 8 1 w0
  (chunksOf 4 15 ws).map List.flatten

/-- ShiftRows on the column-major state. -/
def shiftRows (s : List Byte) : List Byte :=
  [0, 5, 10, 15, 4, 9, 14, 3, 8, 13, 2, 7, 12, 1, 6, 11].map fun i => s.getD i 0

/-- MixColumns of one column. -/
def mixCol (c : List Byte) : List Byte :=
  let a := c.getD 0 0
  let b := c.getD 1 0
  let d := c.getD 2 0
  let e := c.getD 3 0
  [xtime a ^^^ (xtime b ^^^ b) ^^^ d ^^^ e, a ^^^ xtime b ^^^ (xtime d ^^^ d) ^^^ e,
   a ^^^ b ^^^ xtime d ^^^ (xtime e ^^^ e), (xtime a ^^^ a) ^^^ b ^^^ d ^^^ xtime e]

/-- The rounds after the first key addition; the last has no MixColumns. -/
def aesRounds : List (List Byte) → List Byte → List Byte
  | [], s => s
  | [k], s => xorBytes (shiftRows (s.map sbox)) k
  | k :: k2 :: ks, s =>
    aesRounds (k2 :: ks) (xorBytes ((chunksOf 4 4 (shiftRows (s.map sbox))).flatMap mixCol) k)

/-- AES-256 of one 16-byte block. -/
def aes256 (key blk : List Byte) : List Byte :=
  let ks := aesKeys key
  aesRounds (ks.drop 1) (xorBytes blk (ks.getD 0 []))

/-- AES-256 of a 128-bit number read big-endian. -/
def aesNum (key : List Byte) (v : Nat) : List Byte := aes256 key (beBytes 16 v)

/-! ## CMAC, GCM, CTR_DRBG -/

/-- Doubling in GF(2^128) as CMAC uses it. -/
def cmacDbl (v : BitVec 128) : BitVec 128 := (v <<< 1) ^^^ (if v.msb then 0x87 else 0)

/-- AES-256 CMAC of a message (SP 800-38B). -/
def cmac (key msg : List Byte) : BitVec 128 :=
  let l : BitVec 128 := BitVec.ofNat 128 (beNat (aes256 key (List.replicate 16 0)))
  let k1 := cmacDbl l
  let k2 := cmacDbl k1
  let blocks := chunksOf 16 msg.length msg
  let full := !msg.isEmpty && msg.length % 16 == 0
  let last := blocks.getLastD []
  let padded : List Byte := if full then last else last ++ [0x80] ++ List.replicate (15 - last.length) 0
  let m := beBytes 16 ((BitVec.ofNat 128 (beNat padded)) ^^^ (if full then k1 else k2)).toNat
  let c := blocks.dropLast.foldl (fun c b => aes256 key (xorBytes c b)) (List.replicate 16 0)
  BitVec.ofNat 128 (beNat (aes256 key (xorBytes c m)))

/-- Product in GF(2^128) as GCM orders its bits; n bits of y remain. -/
def ghashMul : Nat → BitVec 128 → BitVec 128 → BitVec 128 → BitVec 128
  | 0, _, _, z => z
  | n + 1, v, y, z =>
    ghashMul n ((v >>> 1) ^^^ (if v.getLsbD 0 then (0xE1 <<< 120) else 0)) (y <<< 1) (if y.msb then z ^^^ v else z)

/-- Pad with zeros to a multiple of 16. -/
def pad16 (bs : List Byte) : List Byte := bs ++ List.replicate ((16 - bs.length % 16) % 16) 0

/-- GHASH of a padded string. -/
def ghash (h : BitVec 128) (bs : List Byte) : BitVec 128 :=
  (chunksOf 16 bs.length bs).foldl (fun y b => ghashMul 128 h (y ^^^ BitVec.ofNat 128 (beNat b)) 0) 0

/-- Counter-mode key stream of n blocks from a 128-bit counter block (32-bit increment). -/
def gctrStream (key : List Byte) (ctr : Nat) : Nat → List Byte
  | 0 => []
  | n + 1 =>
    aesNum key ctr ++ gctrStream key (ctr / 2 ^ 32 * 2 ^ 32 + (ctr + 1) % 2 ^ 32) n

/-- AES-256-GCM encryption with a 96-bit IV: ciphertext and 128-bit tag. -/
def gcmEnc (key iv aad pt : List Byte) : List Byte × BitVec 128 :=
  let h : BitVec 128 := BitVec.ofNat 128 (beNat (aes256 key (List.replicate 16 0)))
  let j0 := beNat iv * 2 ^ 32 + 1
  let ct := xorBytes pt (gctrStream key (j0 + 1) ((pt.length + 15) / 16))
  let y := ghash h (pad16 aad ++ pad16 ct ++ beBytes 8 (aad.length * 8) ++ beBytes 8 (ct.length * 8))
  (ct, BitVec.ofNat 128 (beNat (aesNum key j0)) ^^^ y)

/-- AES-256-GCM decryption: the plaintext when the tag verifies. -/
def gcmDec (key iv aad ct : List Byte) (tag : BitVec 128) : Option (List Byte) :=
  let h : BitVec 128 := BitVec.ofNat 128 (beNat (aes256 key (List.replicate 16 0)))
  let j0 := beNat iv * 2 ^ 32 + 1
  let y := ghash h (pad16 aad ++ pad16 ct ++ beBytes 8 (aad.length * 8) ++ beBytes 8 (ct.length * 8))
  if (BitVec.ofNat 128 (beNat (aesNum key j0)) ^^^ y) = tag then
    some (xorBytes ct (gctrStream key (j0 + 1) ((ct.length + 15) / 16)))
  else none

/-- Working state of CTR_DRBG with AES-256: Key of 256 bits and V of 128 bits. -/
structure Drbg where
  key : BitVec 256 := 0
  v : BitVec 128 := 0
  deriving DecidableEq, Repr

/-- n blocks of CTR_DRBG output and the V after them. -/
def drbgBlocks (key : List Byte) : Nat → BitVec 128 → List Byte × BitVec 128
  | 0, v => ([], v)
  | n + 1, v =>
    let v1 := v + 1
    let r := drbgBlocks key n v1
    (aesNum key v1.toNat ++ r.1, r.2)

/-- CTR_DRBG_Update with 48 bytes of provided data. -/
def drbgUpdate (d : Drbg) (data : List Byte) : Drbg :=
  let t := xorBytes (drbgBlocks (beBytes 32 d.key.toNat) 3 d.v).1 data
  { key := BitVec.ofNat 256 (beNat (t.take 32)), v := BitVec.ofNat 128 (beNat (t.drop 32)) }

/-- One generate call without additional input: the output of n bytes and the state after. -/
def drbgGenerate (d : Drbg) (n : Nat) : List Byte × Drbg :=
  let r := drbgBlocks (beBytes 32 d.key.toNat) ((n + 15) / 16) d.v
  (r.1.take n, drbgUpdate { d with v := r.2 } (List.replicate 48 0))

/-- CBC-MAC chaining of the derivation function (BCC). -/
def drbgBcc (key : List Byte) (bs : List Byte) : List Byte :=
  (chunksOf 16 bs.length bs).foldl (fun c b => aes256 key (xorBytes c b)) (List.replicate 16 0)

/-- n blocks X = AES(K, X) of the derivation function. -/
def drbgDfOut (key : List Byte) : Nat → List Byte → List Byte
  | 0, _ => []
  | n + 1, x =>
    let y := aes256 key x
    y ++ drbgDfOut key n y

/-- Block_Cipher_df for a 48-byte result. -/
def drbgDf (inp : List Byte) : List Byte :=
  let s0 := beBytes 4 inp.length ++ beBytes 4 48 ++ inp ++ [0x80]
  let s := pad16 s0
  let k := (List.range 32).map fun i => BitVec.ofNat 8 i
  let t := (List.range 3).flatMap fun i => drbgBcc k (beBytes 4 i ++ List.replicate 12 0 ++ s)
  drbgDfOut (t.take 32) 3 ((t.drop 32).take 16)

/-- Instantiate from entropy, nonce and personalization string, with the derivation function (R353). -/
def drbgInstantiate (entropy nonce pers : List Byte) : Drbg := drbgUpdate {} (drbgDf (entropy ++ nonce ++ pers))

/-- Reseed from entropy, with the derivation function. -/
def drbgReseed (d : Drbg) (entropy : List Byte) : Drbg := drbgUpdate d (drbgDf entropy)

/-! ## ECDSA P-384 -/

/-- The field prime of P-384. -/
def p384P : Nat := 2 ^ 384 - 2 ^ 128 - 2 ^ 96 + 2 ^ 32 - 1
/-- The order of P-384. -/
def p384N : Nat := 0xffffffffffffffffffffffffffffffffffffffffffffffffc7634d81f4372ddf581a0db248b0a77aecec196accc52973
/-- The coefficient b of P-384. -/
def p384B : Nat := 0xb3312fa7e23ee7e4988e056be3f82d19181d9c6efe8141120314088f5013875ac656398d8a2ed19d2a85c8edd3ec2aef
/-- The base point of P-384. -/
def p384G : Nat × Nat :=
  (0xaa87ca22be8b05378eb1c71ef320ad746e1d3b628ba79b9859f741e082542a385502f25dbf55296c3a545e3872760ab7,
   0x3617de4a96262c6f5d9e98bf9292dc29f8f41dbd289a147ce9da3113b5f0b8c00a60b1ce1d7e819d7a431d7c90ea0e5f)

/-- a^e mod m over n bits of the exponent. -/
def powMod (m : Nat) : Nat → Nat → Nat → Nat
  | 0, _, _ => 1 % m
  | n + 1, a, e => (if e % 2 = 1 then a else 1) * powMod m n (a * a % m) (e / 2) % m

/-- The inverse modulo a prime. -/
def invMod (m a : Nat) : Nat := powMod m 384 (a % m) (m - 2)

/-- Point addition on P-384; none is the point at infinity. -/
def ecAdd (p q : Option (Nat × Nat)) : Option (Nat × Nat) :=
  match p, q with
  | none, q => q
  | p, none => p
  | some (x1, y1), some (x2, y2) =>
    if x1 = x2 ∧ (y1 + y2) % p384P = 0 then none
    else
      let l := if x1 = x2 then (3 * x1 * x1 + (p384P - 3)) * invMod p384P (2 * y1) % p384P
               else (y2 + p384P - y1) * invMod p384P (x2 + p384P - x1) % p384P
      let x3 := (l * l + 2 * p384P - x1 - x2) % p384P
      some (x3, (l * (x1 + p384P - x3) + p384P - y1) % p384P)

/-- Scalar multiple over n bits. -/
def ecMul : Nat → Nat → Option (Nat × Nat) → Option (Nat × Nat)
  | 0, _, _ => none
  | n + 1, k, p => ecAdd (if k % 2 = 1 then p else none) (ecMul n (k / 2) (ecAdd p p))

/-- The point lies on P-384. -/
def onP384 (q : Nat × Nat) : Bool :=
  decide (q.1 < p384P) && decide (q.2 < p384P) &&
    decide (q.2 * q.2 % p384P = (q.1 * q.1 * q.1 + (p384P - 3) * q.1 + p384B) % p384P)

/-- ECDSA P-384 verification of a SHA-384 digest (FIPS 186-5). -/
def ecdsaVerify (q : Nat × Nat) (digest : List Byte) (r s : Nat) : Bool :=
  if r = 0 ∨ s = 0 ∨ r ≥ p384N ∨ s ≥ p384N ∨ onP384 q = false then false
  else
    let w := invMod p384N s
    let e := beNat digest
    match ecAdd (ecMul 384 (e * w % p384N) (some p384G)) (ecMul 384 (r * w % p384N) (some q)) with
    | none => false
    | some (x, _) => x % p384N = r

end Sys2Proof.Machine
end

