-- ==== Sys2Proof/Machine/StGuard.lean ====
section
/-! DEFINITION. Machine/StGuard.lean: state of the Guard (spec/15, spec/16): entropy, expander, keys, commands, seals. -/

namespace Sys2Proof

/-- A waiting consumer of the expander (Table 15.2). -/
inductive Consumer
  | keyManager
  | cipher
  /-- The hardware seed of the job in a slot (R50). -/
  | job (slot : SlotId)
  /-- The HWKEY request of a colony's sampling port (R61). -/
  | sp (c : ColId)
  | port
  deriving DecidableEq, Repr

/-- A repair map entry (Table 19.2): TYPE, origin, bytes 2 to 7. -/
structure MapEnt where
  ty : Byte
  org : Byte
  b2 : Byte
  b3 : Byte
  b4 : Byte := 0
  b5 : Byte := 0
  b6 : Byte := 0
  b7 : Byte := 0
  deriving DecidableEq, Repr

namespace Machine

/-- A P-384 public key of a key record. -/
structure PubKey where
  x : Nat
  y : Nat
  deriving DecidableEq, Repr

/-- A key record as programmed in a sector (Table 16.4A). -/
structure KeyRec where
  gen : Nat
  owner : Option PubKey
  /-- WAXKEY[0] to WAXKEY[7], those with VALID. -/
  wax : List (Nat × PubKey)
  /-- Bytes 0 to 959. -/
  bytes : List Byte
  cmac : BitVec 128
  /-- The COMMIT word is complete. -/
  complete : Bool := true
  deriving DecidableEq, Repr

/-- A key log entry (R378): done when `done`, else intent; with its generation and its CMAC under the log key. -/
structure KeyLogEnt where
  done : Bool
  gen : Nat
  cmac : BitVec 128
  deriving DecidableEq, Repr

/-- A sealed save set in the system region (R384, R389). Its ciphertext is in no window of the part (R222, R367), so
the model keeps what it protects, with the IV and count that it was made under (log entry 12). -/
structure SaveSet where
  slot : Nat
  hive : HiveId
  cnt : Nat
  iv : List Byte
  prog : Prog
  scratch : List (Nat × List Byte)
  deriving DecidableEq, Repr

/-- A noise pair at its conditioner and health test (R345, R347, R349): the raw bit that waits for its second one, the
conditioned bits of the window in progress (bit i of `bits` is the i-th), the run of equal bits that ended the window before,
and how many raw samples it has taken. -/
structure PairSt where
  odd : Option Bool := none
  n : Nat := 0
  bits : Nat := 0
  run : Nat := 0
  last : Bool := false
  samples : Nat := 0
  deriving DecidableEq, Repr

/-- Entropy: noise test, expander and its port (spec/15). -/
structure EntropySt where
  ready : Bool := false
  dead : Bool := false
  throttled : Bool := false
  startup : Bool := true
  raw : Bool := false
  tp : Bool := false
  cond : Bool := false
  /-- The four noise pairs. -/
  pairs : Vector PairSt 4 := Vector.replicate 4 {}
  evt : Word := 0
  bias : BitVec 16 := 0
  corr : Vector (BitVec 16) 4 := Vector.replicate 4 0
  lastFail : Bool := false
  /-- BIAS, CORR 1 to 4, STUCK, STARVED as bits 0 to 6. -/
  reasons : BitVec 7 := 0
  run : BitVec 2 := 0
  win : BitVec 16 := 0
  /-- Consecutive passing windows of the start-up phase. -/
  passes : Nat := 0
  drbg : Drbg := {}
  calls : BitVec 21 := 0
  rseed : Word := 0
  /-- Unused blocks of 128 bytes. -/
  blocks : List (List Byte) := []
  /-- The expander generates nothing until it has reseeded (R346, R364). -/
  needReseed : Bool := false
  port : List Word := []
  /-- The port has requested a call, which it does when its buffer is empty (R356). -/
  portReq : Bool := true
  /-- The consumer served last, by its place in Table 15.2 (R354); the round begins with the first. -/
  turn : Fin 4 := 3
  /-- IVs that the cipher engine has been given and has not used (R389). -/
  ivs : List (List Byte) := []
  noData : Bool := false
  notReady : Bool := false
  /-- Seeds on the seed wire that their consumer has not taken. -/
  wire : List (Consumer × DWord) := []
  rawReq : Bool := false
  /-- The Guard has not answered the request (R362). -/
  rawAsk : Bool := false
  sel : BitVec 3 := 4
  ovf : Bool := false
  empty : Bool := false
  fifo : List Word := []
  tpPat : Word := 0
  /-- Raw samples of each pair that the FIFO has taken in this raw-sample mode. -/
  fifoAt : Nat := 0
  deriving DecidableEq, Repr

/-- The Guard. -/
structure GuardSt where
  en : EntropySt := {}
  /-- Lifecycle: 1 FACTORY, 2 FIELD_OPEN, 3 FIELD_SEALED. -/
  lc : BitVec 2 := 2
  /-- The DRK fuses; none while they are blank or fail their check. -/
  drk : Option (BitVec 256) := none
  drkBlank : Bool := false
  keysValid : Bool := false
  locked : Bool := false
  zeroize : Bool := false
  busy : Bool := false
  op : Byte := 0
  col : BitVec 6 := 0
  result : Byte := 0
  src : DWord := 0
  /-- Result that the acceptance checks of the running command gave; none when it was accepted. -/
  verdict : Option Byte := none
  /-- The argument block of a running KEY_UPDATE, once it has been read (R381). -/
  blk : List Byte := []
  /-- Forager channel that the running command claims. -/
  ch : BitVec 4 := 0xF
  /-- Expander bits drawn for the running command. -/
  drawn : Option (List Byte) := none
  recA : Option KeyRec := none
  recB : Option KeyRec := none
  /-- Sector of the record in force: B when true. -/
  inForce : Option Bool := none
  log : List KeyLogEnt := []
  updateLost : Bool := false
  genFail : Bool := false
  seals : DWord := 0
  /-- Sealing keys by colony. -/
  sealKeys : List (Nat × List Byte) := []
  sealEvt : Word := 0
  sealCnt : Word := 0
  fch : BitVec 4 := 0xF
  ceGate : Bool := false
  ceGated : Bool := false
  ceClaimed : Bool := false
  ceDefer : Bool := false
  saves : List SaveSet := []
  /-- Save count by job slot (R389). -/
  saveCnt : List (Nat × Nat) := []
  deriving DecidableEq, Repr

end Machine
end Sys2Proof
end

