-- ==== Sys2Proof/Machine/StSys.lean ====
section
/-! DEFINITION. Machine/StSys.lean: timebase (spec/17), power (spec/18), repair (spec/19), reset and boot (spec/20),
observation (spec/22), alarm, SMBus and TAP (spec/23). -/

namespace Sys2Proof

/-- The straps of Table 23.5 as the pins stand. -/
structure Straps where
  /-- STN_MODE: 1 chain enumeration. -/
  stnMode : Bool := true
  /-- ROOT_N: 0 this station is the root. -/
  rootN : Bool := true
  stnAddr : BitVec 6 := 63
  smbAddr : BitVec 2 := 3
  deriving DecidableEq, Repr

/-- TAP instructions (R504). -/
inductive TapIr
  | bypass
  | idcode
  | samplePreload
  | extest
  | clamp
  | highz
  deriving DecidableEq, Repr

/-- What the TAP does to the CTL pins (R505). -/
inductive PinDrive
  | function
  /-- Driven from the boundary register. -/
  | boundary
  | held
  | floating
  deriving DecidableEq, Repr

/-- A supply input. -/
inductive Supply
  | a
  | b
  deriving DecidableEq, Repr

namespace Machine

/-- TB_QUAL (Table 17.2). -/
inductive TbState
  | free
  | holdover
  | locked
  | acquire
  deriving DecidableEq, Repr

/-- The timebase. -/
structure TbSt where
  sec : Word := 0
  sub : Nat := 0
  ftrim : Int := 0
  st : TbState := .free
  /-- Consecutive accepted edges in ACQUIRE. -/
  acq : Nat := 0
  badrun : BitVec 2 := 0
  slew : Int := 0
  /-- Parts of a correction that have built up, in units of 1/1,500,000,000: of all corrections (skips count up, holds down), and of
  those of the slew (R397; log entry 82). -/
  phase : Int := 0
  slewPhase : Nat := 0
  mode : Bool := true
  poutEn : Bool := true
  ppsEn : Bool := true
  evt : Word := 0
  offs : Word := 0
  setsec : Word := 0
  setsecPend : Bool := false
  /-- The PPS_OUT pin. -/
  ppsOut : Bool := false
  tornPf0 : Bool := false
  tornGrd : Bool := false
  deriving DecidableEq, Repr

/-- PWR_STAT.STATE. -/
inductive PwrState
  | main
  | backup
  | ride
  | stopping
  | standby
  deriving DecidableEq, Repr

/-- Power. -/
structure PwrSt where
  st : PwrState := .main
  stage : Nat := 0
  /-- Stage 6 has halted, self-refreshed and cut (R420). -/
  held : Bool := false
  aGood : Bool := true
  bGood : Bool := false
  /-- VIN_A failed while VIN_B is good: the VIN_B path has not closed yet (R410). -/
  closing : Bool := false
  srcB : Bool := false
  resume : Bool := false
  evt : Word := 0
  bkup : BitVec 7 := 0
  meas : BitVec 12 := 0
  mvA : BitVec 16 := 0
  maA : BitVec 16 := 0
  mvB : BitVec 16 := 0
  maB : BitVec 16 := 0
  railIdx : BitVec 4 := 0
  rail : Vector (BitVec 16 × BitVec 16) 16 := Vector.replicate 16 (0, 0)
  switches : BitVec 16 := 0
  stops : BitVec 16 := 0
  deriving DecidableEq, Repr

/-- A map record (R432). -/
structure MapRec where
  gen : Nat
  ents : List MapEnt
  deriving DecidableEq, Repr

/-- Why an inspection runs (R442). -/
inductive InspWhy
  | periodic
  | pf0
  | slab
  | rows
  deriving DecidableEq, Repr

/-- An inspection in progress: TARGET as coded in RPR_INSP_CMD, physical row and column; `held` is the logical hive whose work
is paused for it (R137). -/
structure Insp where
  target : Nat
  row : Nat
  pcol : Nat
  why : InspWhy
  held : Option HiveId := none
  deriving DecidableEq, Repr

/-- A retirement in progress (R447): the failed host, the origin, and the logical hives whose host moves. -/
structure Retire where
  row : Nat
  pcol : Nat
  hive : Nat
  cause : Nat
  org : Byte
  moving : List HiveId
  deriving DecidableEq, Repr

/-- Repair. -/
structure RprSt where
  factory : List MapEnt := []
  /-- Field entries in force on die. -/
  field : List MapEnt := []
  m0 : Option MapRec := none
  m1 : Option MapRec := none
  mapSrc : BitVec 2 := 0
  wrBusy : Bool := false
  /-- Entries of the running write. -/
  writing : List MapEnt := []
  /-- Changes that wait for the next record. -/
  dirty : Bool := false
  clearPend : Bool := false
  evt : Word := 0
  /-- Physical column of every logical hive. -/
  pcol : List Nat := List.replicate 96 0
  onSpare : BitVec 96 := 0
  insp : List Insp := []
  /-- Inspections that wait until the charge admits them (R442). -/
  inspWait : List Insp := []
  /-- The column of each row at which the round of periodic inspections goes on (R442). -/
  inspNext : List Nat := List.replicate 8 0
  period : BitVec 16 := 0x3E8
  inspTarget : BitVec 7 := 0
  inspGo : Bool := false
  inspRes : BitVec 3 := 0
  inspResTarget : BitVec 7 := 0
  inspCause : BitVec 4 := 0
  retire : List Retire := []
  /-- Failures that wait for a retirement of their row: row, column, hive, cause, origin (R451). -/
  failQ : List Retire := []
  mapIdx : BitVec 13 := 0
  mapW0 : Word := 0
  mapW1 : Word := 0
  logIdx : BitVec 12 := 0
  logHead : BitVec 12 := 0
  logW : List Word := [0, 0, 0, 0]
  /-- Log entries on die that go with the next map record, and those of the record being written (R454). -/
  logPend : List (List Byte) := []
  logWriting : List (List Byte) := []
  /-- Repair log: entry index and 16 bytes, canonical over absent. -/
  log : List (Nat × List Byte) := []
  deriving DecidableEq, Repr

/-- Reset, boot and pins. -/
structure BootSt where
  /-- CAP_BOOT.STAGE: 0 PLL to 6 READY, 7 RECOVERY. -/
  stage : BitVec 4 := 0
  fwSrc : BitVec 2 := 0
  rcode : BitVec 4 := 0
  cause : BitVec 4 := 1
  /-- FW_ALT, FW_FIXED, KEYS, MAP_LOST, WAX_ALT, PPR, FLASH_WAIT. -/
  flags : BitVec 7 := 0
  us : BitVec 24 := 0
  /-- FW_SRC and the flags of the boot in progress, which CAP_BOOT shows at its end. -/
  newSrc : BitVec 2 := 0
  newFlags : BitVec 7 := 0
  /-- The boot in progress is a cold boot. -/
  cold : Bool := true
  /-- RESET_N and PERST_N are low. -/
  resetLow : Bool := false
  perstLow : Bool := false
  /-- THERMTRIP_N is asserted; a thermal trip waits for its cold reset. -/
  thermtrip : Bool := false
  tripPend : Bool := false
  /-- PCI Express controller released (R460). -/
  pcie : Bool := false
  /-- Power was lost; the next good input starts a cold boot (R424). -/
  dark : Bool := false
  straps : Straps := {}
  /-- Compute die temperature and PEAK, signed Q8.8. -/
  tj : BitVec 16 := 0
  peak : BitVec 16 := 0
  /-- PRK_ROM_IDX. -/
  romIdx : BitVec 11 := 0
  deriving DecidableEq, Repr

/-- Counters of Table 22.1, keyed by unit × 16 + CTR, over 0. -/
structure Ctrs where
  hive : List (Nat × DWord) := []
  col : List (Nat × DWord) := []
  bank : List (Nat × DWord) := []
  deriving DecidableEq, Repr

/-- Observation. -/
structure ObsSt where
  live : Ctrs := {}
  snap : Ctrs := {}
  snapSub : Word := 0
  snapSec : Word := 0
  evt : Word := 0
  csel : Word := 0
  cval : DWord := 0
  en : Bool := false
  mode : Bool := false
  kindEn : BitVec 7 := 0
  base : DWord := 0
  size : BitVec 16 := 1
  wr : Nat := 0
  rd : Nat := 0
  wm : BitVec 23 := 0
  drop : Word := 0
  /-- Records were dropped before the next one. -/
  loss : Bool := false
  hmask : BitVec 96 := 0
  cmask : DWord := 0
  /-- Records held on die, oldest first (R486). -/
  buf : List (List Byte) := []
  smpHive : BitVec 7 := 0
  smpComb : BitVec 3 := 0
  smpCell : BitVec 6 := 0
  smpCount : BitVec 4 := 0
  smpStride : BitVec 8 := 0
  smpArm : Bool := false
  smpDst : DWord := 0
  smpTaken : BitVec 5 := 0
  /-- Comb-slabs to pass before the next sample. -/
  smpSkip : Nat := 0
  deriving DecidableEq, Repr

/-- SMBus and TAP. -/
structure BmcSt where
  alert : Bool := false
  /-- Bits [6:0] of STATUS when last looked at (R510). -/
  status : BitVec 7 := 0
  tap : TapIr := .idcode
  drive : PinDrive := .function
  boundary : List Bool := []
  /-- The word or bytes that the part last gave on SMBus or TDO; none: not acknowledged, or nothing (log entry 8). -/
  out : Option (List Byte) := none
  deriving DecidableEq, Repr

end Machine
end Sys2Proof
end

