-- ==== Sys2Proof/Syntax.lean ====
section
/-! DEFINITION. Syntax.lean: the commands, one constructor per row of the opcode table, with the operands that the
manual names and the inputs that the row's event brings from outside the part (log entry 4). -/

namespace Sys2Proof

/-- The target of a register write: words at an offset of BAR0 of a function (or of the Guard's own access), each with its
four byte enables, or a control field of configuration space. `same` names the W1C bits that the part sets in the cycle of the
write: bits 31:0 of the first word, bits 63:32 of the second (R9). -/
inductive WriteTgt
  | bar (who : Req) (off : Nat) (ws : List (Word × BitVec 4)) (same : DWord := 0)
  | cfg (fn : Fn) (f : CfgField) (v : Nat) (same : DWord := 0)
  deriving DecidableEq, Repr

/-- A rail level of Table 6.1, as its code. -/
abbrev OvsLevel := Fin 4

/-- How a calibration ended (R113): the entries of the eight wavelengths sets, the channels found bad, the
temperature, or failure; `line` tells that a comb line failed step 1. -/
inductive CalRes
  | ok (ents : List (BitVec 16 × BitVec 12)) (bad : List Nat) (temp : BitVec 8)
  | fail (bad : List Nat) (line : Bool)
  deriving DecidableEq, Repr

/-- A write of the over-scaling ceilings (R128). -/
inductive CeilTgt
  | row (r : RowId) (ceil : BitVec 2)
  | nominal (on : Bool)
  deriving DecidableEq, Repr

/-- Outside inputs of a STREAM (R196): what the shadow latches flag per comb-slab (R129 to R134), converter codes of
photonic passes (R104), and the comb activity of the row, averaged over the last 1,500 cycles (R111). A comb-slab of output o, local pass p, sample b
and slab s has key ((o P + p) B + b) 16 + s; its value is the number of flagged executions, plus 16 (d + 1) when the last of
them is flagged in bits [1:0] of its counts only and latches those bits as d, two bits a sub-tree. A code of integrator i has
key ((o P + p) B + b) 4 + i. -/
structure StreamEnv where
  flags : List (Nat × Nat) := []
  codes : List (Nat × Int) := []
  activity : Nat := 0
  deriving DecidableEq, Repr

/-- What a boot stage met (R459, R462). -/
structure BootInfo where
  fwA : Bool := true
  fwB : Bool := true
  drkOk : Bool := true
  findings : List MapEnt := []
  /-- Physical hives (row, column) that fail the self-test. -/
  hiveFails : List (Nat × Nat) := []
  sup0 : Bool := true
  sup1 : Bool := true
  flashWait : Bool := false
  us : BitVec 24 := 0
  deriving DecidableEq, Repr

/-- What the known-answer test of an inspection found (R444, R445). -/
inductive InspFound
  | pass
  /-- Faults that cell and lane spares cover: the entries. -/
  | repaired (ents : List MapEnt)
  /-- The hive fails with a cause of Table 19.4. -/
  | fail (cause : BitVec 4) (ents : List MapEnt)
  | aborted
  deriving DecidableEq, Repr

/-- What the scrubber found in a hive in one pass (R235): how many errors it corrected, the rows of these errors, and the
uncorrectable words. -/
structure ScrubFind where
  hive : HiveId
  corrected : Nat
  rows : List Nat
  uncorrectable : List Nat
  deriving DecidableEq, Repr

/-- A PF0 access to BAR2 (R226, R281): offset, the bytes to write, absent where the byte enable is clear, or the number of
words to read. -/
inductive Bar2
  | read (off n : Nat)
  | write (off : Nat) (bytes : List (Option Byte))
  deriving DecidableEq, Repr

/-- What a failed cellar read was for (R292, Table 12.6). -/
inductive RdPurpose
  | descriptor (c : ColId) (q : Fin 4)
  | input (slot : SlotId)
  | forDesc (k : ChanId)
  /-- With the bytes before the failing request. -/
  | forData (k : ChanId) (moved : List Byte)
  deriving DecidableEq, Repr

/-- A TLP error of Table 12.5. -/
inductive TlpErr
  | poisoned
  | malformed
  | unsupported
  | completerAbort
  | unexpectedCpl
  | ecrc
  | receiverOverflow
  | flowControl
  | dlProtocol
  | surpriseDown
  | receiverError
  | badTlp
  | badDllp
  | replayTimeout
  | replayRollover
  deriving DecidableEq, Repr

/-- Whose request a TLP error concerns: the function it is tied to, and whether it is posted (R291). -/
structure TlpReq where
  fn : Option Fn
  posted : Bool := false
  deriving DecidableEq, Repr

/-- What comes to a hive from the supers over the mesh; `bad` names the link of the hive's router that discards a flit of it
(R88). -/
structure FromSupers where
  hive : HiveId
  bad : Option (Fin 4) := none
  deriving DecidableEq, Repr

/-- 16 bytes that a port receives as a flit. -/
structure RxFlit where
  port : PortId
  bytes : List Byte
  deriving DecidableEq, Repr

/-- The commands. -/
inductive Instr
  -- registers (spec/24, R6, R407, R520)
  | registerWrite (t : WriteTgt)
  | pairLoRead (who : Req) (off : Nat) (two : Bool)
  | pairHiRead (who : Req) (off : Nat)
  | capTempRead (two : Bool) (tj : Option (BitVec 16))
  | phxBerrRead (b : BankId) (two : Bool) (worst : BitVec 16)
  | supCeCntRead (two : Bool) (n : Nat)
  | obsGlDropRead (two : Bool)
  -- Parnik sampling port (spec/03)
  | prkSpDataRead (c : ColId) (two : Bool)
  | prkSpKeyHiWrite (c : ColId) (v : Word)
  | hwkey (c : ColId)
  | spSeedArrive (c : ColId)
  -- hives (spec/04)
  | hivClkGate (h : HiveId)
  | hivPwrGate (h : HiveId)
  | hivForceGate (h : HiveId) (clk pwr : Bool)
  | hivUngate (h : HiveId) (clk pwr : Bool)
  | deferredGateExecute (h : HiveId)
  | hnyPsDataWrite (h : HiveId) (v : Word)
  | hnyActDataWrite (h : HiveId) (v : Word)
  | dncHalt (h : HiveId)
  | dncStep (h : HiveId)
  | meshCountMessage (n : Nat) (bad : Option (Fin 4))
  | movMessage (n : Nat) (bad : Option (Fin 4))
  | chainFin (h : HiveId)
  -- photonic extractor (spec/05)
  | phxEnable (b : BankId)
  | phxDisable (b : BankId)
  | cal (b : BankId)
  | phxCalDone (b : BankId) (r : CalRes)
  | phxLocked (b : BankId)
  /-- `worst` is the largest ring detuning seen since PHX_BERR was read, unsigned Q8.8 pm. -/
  | phxLossOfLock (b : BankId) (cause : BitVec 4) (worst temp : BitVec 16)
  | phxRelockTimeout (b : BankId)
  | phxCalStale (b : BankId) (temp : BitVec 16)
  | phxTempHoldEnd (temp : BitVec 16)
  | phxBcalDataWrite (b : BankId) (v : Word)
  -- over-scaling (spec/06)
  | ovsRequestInForce (h : HiveId)
  | ovsRailSlewStart (r : RowId) (late : Bool)
  | ovsRailSettled (r : RowId)
  | ovsCeilingWrite (t : CeilTgt)
  | computeTempThreshold (tj : BitVec 16)
  | ovsStormHoldEnd (r : RowId)
  -- wax (spec/08)
  | stage
  | waxStageCheckDone
  | waxStageCopyDone (ok : Bool)
  | trial
  | waxApply
  | waxApplyDone
  | waxDrainTimeout
  | waxWatchdogExpire
  | commit
  | waxCommitDone (ok : Bool)
  | rollback
  | waxRollbackDone
  | revert
  | abort
  -- dancer (spec/09): the instruction at PC of the hive's running program
  | nop (h : HiveId)
  | end_ (h : HiveId)
  | yield_ (h : HiveId)
  | li (h : HiveId)
  | alu (h : HiveId)
  | ld (h : HiveId)
  | st (h : HiveId)
  | mov (h : HiveId)
  | ldw (h : HiveId)
  | ldwCopyDone (m : FromSupers)
  | ldp (h : HiveId)
  | stream (h : HiveId) (env : StreamEnv)
  | clr (h : HiveId)
  | req (h : HiveId)
  | draw (h : HiveId)
  | get (h : HiveId)
  | seed (h : HiveId)
  | vset (h : HiveId)
  | hint (h : HiveId)
  | hintTakesEffect (h : HiveId)
  | arrive (h : HiveId)
  | wait (h : HiveId)
  | arriveWait (h : HiveId)
  | barrierArrival (n : Nat)
  | br (h : HiveId)
  | lset (h : HiveId)
  | lend (h : HiveId)
  | stopReached (h : HiveId) (cycles : Nat)
  | programResume (m : FromSupers)
  -- memory levels (spec/10)
  | modelLoadGo
  | modelLoadPerform
  | modelLoadDone
  | combStoreScrub (found : List ScrubFind)
  | csrowRemap (h : HiveId)
  | supersUe (addr : BitVec 35) (slot : Option SlotId)
  | supAllocWrite (c : ColId) (which : Fin 3) (v : Word)
  | bar2Access (a : Bar2)
  -- colonies and jobs (spec/11)
  | sqDoorbell (c : ColId) (q : Fin 4) (v : Word)
  | cqDoorbell (c : ColId) (v : Word)
  | jobFetch (c : ColId) (q : Fin 4) (bytes : List Byte)
  | jobDispatch (slot : SlotId)
  | jobSeedArrive (slot : SlotId)
  | inputCopyDone (slot : SlotId) (bytes : List Byte)
  | jobEnd (slot : SlotId)
  | cqRecordWrite (c : ColId)
  | cqModTimer (c : ColId)
  | lendStart (h : HiveId) (slot : SlotId)
  | lentJobReturn (slot : SlotId) (home : Bool)
  | xpDb (c : ColId) (v : Word)
  | expressStart (c : ColId)
  | colCancel (c : ColId) (tag : BitVec 16)
  | cancelAll (c : ColId)
  | colonyReset (c : ColId)
  | vfFlr (c : ColId)
  | queueConfigWrite (c : ColId) (off : Nat) (v : Word)
  | mailboxWrite (c : ColId) (off : Nat) (bytes : List (Option Byte))
  -- host interface (spec/12)
  | vfEnable
  | vfDisable
  | pf0Flr
  | busMasterEnable (fn : Fn)
  | msixUnmask (fn : Fn) (v : Nat)
  | foragerTail (k : ChanId) (v : Word)
  | foragerEnable (k : ChanId) (log2 : BitVec 4)
  | foragerDisable (k : ChanId)
  | resume (k : ChanId)
  | gate (k : ChanId) (on : Bool)
  | foragerErrClear (k : ChanId)
  | foragerDescriptor (k : ChanId) (bytes : List Byte)
  | foragerDescriptorDone (k : ChanId) (data : List Byte)
  | cellarReadFail (p : RdPurpose) (why : RdRes)
  | completionTimeout (p : RdPurpose)
  | tlpError (e : TlpErr) (r : TlpReq)
  | linkUp (width speed : Nat)
  -- Exoth link (spec/13)
  | flitReceive (p : PortId) (bytes : List Byte)
  | status (p : PortId) (bytes : List Byte)
  | nak (p : PortId) (bytes : List Byte)
  | train (f : RxFlit)
  | retrain (f : RxFlit)
  | heartbeatSend (p : PortId)
  | retryTimeout (p : PortId)
  | heartbeatTimeout (p : PortId)
  | exchangeTimeout (p : PortId) (dst home : StnId) (tag : BitVec 16)
  | lossOfLight (p : PortId) (pwr : BitVec 16)
  | probe (p : PortId)
  | answer (p : PortId)
  | relit (p : PortId)
  | trainingDone (p : PortId) (txGood rxGood : BitVec 9) (serial : BitVec 64) (rtt freq : BitVec 16)
  | trainRetry (p : PortId) (txGood rxGood : BitVec 9)
  | wavelengthLost (p : PortId) (k : Fin 9)
  | retrainTimeout (p : PortId)
  | en (p : PortId) (v : Bool)
  | loop (p : PortId) (v : Bool)
  | portRetrain (p : PortId)
  -- swarm (spec/14)
  | dispatch (m : MsgHdr) (d : DispatchMsg)
  | accept (m : MsgHdr)
  | reject (m : MsgHdr) (code : Nat) (detail : DWord)
  | swStop (m : MsgHdr) (reason : Nat)
  | done (m : MsgHdr)
  | timeout (m : MsgHdr) (dst port : Nat)
  | rollbackMsg (m : MsgHdr) (k : Nat) (role standby : StnId)
  | ckptDone (m : MsgHdr) (k : Nat)
  | arriveMsg (m : MsgHdr) (bar : Fin 32)
  | release (m : MsgHdr) (bar : Fin 32) (gen : Byte)
  | tick (m : MsgHdr) (sec : Word) (delay : Nat) (sub interval : Nat)
  | add (m : MsgHdr) (hive : HiveId) (acc : Nat) (vals : List Nat)
  | move (m : MsgHdr) (hive : HiveId) (off : Nat) (data : List Byte)
  | ckptData (m : MsgHdr) (k : Nat) (hive : HiveId) (off : Nat) (data : List Byte)
  | ckptLoad (m : MsgHdr) (k : Nat) (hive : HiveId) (off : Nat) (data : List Byte)
  | token (m : MsgHdr) (value : Nat) (root : Bool) (list : List Nat)
  | tokenRet (m : MsgHdr) (value : Nat) (root : Bool) (list : List Nat)
  | links (m : MsgHdr) (partners : List Partner)
  | map (m : MsgHdr) (sm : SwarmMap)
  | stnFail (m : MsgHdr) (stn by_ : StnId)
  | leaveMsg (m : MsgHdr)
  | drain (m : MsgHdr)
  | drained (m : MsgHdr)
  | enum
  | leave
  | walkTimeout
  -- Guard (spec/15, spec/16)
  /-- Of each pair how many raw bits, and the bits, bit i the i-th. -/
  | htWindowClose (ns bits : List Nat)
  | htStarved (pair : Fin 4)
  | generateCall (k : Consumer)
  | drbgReseed
  | grdRngDataRead (who : Req) (two : Bool)
  | cond (v : Bool)
  | grst (drkOk : Bool)
  | rawReq
  | rawAnswer
  | rawEnd
  | grdRawDataRead (two : Bool)
  | testPatternEn (v : Bool)
  | seal (c : ColId)
  | unseal (c : ColId)
  | keyUpdate
  | lcOpen
  | lcSeal
  | drkProg
  | guardCommandDone (flashOk : Bool)
  | ceGate (v : Bool)
  | sealedDeferral (h : HiveId)
  | sealedResume (h : HiveId) (slot : SlotId) (ok : Bool)
  -- timebase (spec/17)
  | ppsEdge (sub interval : Nat)
  | holdoverTimeout
  | setsec
  | tbSecondRollover
  | ppsOutEnd
  -- power (spec/18)
  | pllLock (straps : Straps)
  | pllLockLoss
  | vinGood (inp : Supply)
  | vinAFail
  | vinBFail
  | switchover
  | holdEnter
  | returnToMain
  | standbyReturn
  | budgetWrite (v : Word)
  | powerLoss
  -- repair (spec/19)
  | inspectionPeriodic (row pcol : Nat)
  | inspectionGo (v : BitVec 7)
  | inspectionDone (row : RowId) (f : InspFound)
  | retirementDone (row : RowId)
  | mapRecordCommit
  | clearField
  -- reset and boot (spec/20)
  | resetN
  | perstN
  | linkHotReset
  | warm
  | cold
  | rcvGo (ok : Bool)
  | bootStageDone (info : BootInfo)
  | fwRewriteDone
  | queenFault
  | thermalTrip
  | thermtripRelease
  -- observation (spec/22)
  | snap
  | obsCselWrite (v : Word)
  | glassMark (v : Word)
  | glassEnable (v : Word)
  | glassRecordWrite
  | arm (v : Word)
  -- SMBus, TAP, pins (spec/23)
  | smbStatus
  | tempCmp (tj : BitVec 16)
  | tempPhx (temp : BitVec 16)
  | smbVinAMv (v : BitVec 16)
  | smbVinAMa (v : BitVec 16)
  | smbVinBMv (v : BitVec 16)
  | smbVinBMa (v : BitVec 16)
  | smbCharge
  | smbMeas (v : BitVec 12)
  | smbBoot
  | smbRailMv (rail : Fin 16) (v : BitVec 16)
  | smbRailP (rail : Fin 16) (v : BitVec 16)
  | smbIdent
  | alertResponse (win : Bool)
  | bypass
  | idcode
  | samplePreload (pins : List Bool) (preload : Option (List Bool))
  | extest
  | clamp
  | highz
  | tapReset
  | thermtripNDeassert (tj : BitVec 16)
  | tbSlewDone
  | rawFifoWord (raw : List Word)
  | smbClockLowTimeout
  | smbOtherCommand (code : Byte) (isWrite : Bool)
  | perstNRelease
  deriving DecidableEq, Repr

end Sys2Proof
end

