-- ==== Sys2Proof/Decode.lean ====
section
/-! DEFINITION. Decode.lean: the command that a word spells by the opcode table's bits. Every row of the table has an
empty field list and gives no bits, so no word spells a command. -/

namespace Sys2Proof

/-- The table gives no row any bits: no word is a command. -/
def decodeTableWord (_nbits _w : Nat) : Option Instr := none

end Sys2Proof
end

