-- ==== Sys2Proof/Config.lean ====
section
/-! DEFINITION. Config.lean: what one part fixes and the manual leaves open: opaque constants that no proof can
evaluate (log entries 5, 7, 11). -/

namespace Sys2Proof.Config

/-- The free values: an undefined value is this at the index that `State.freeCtr` gives (log entry 11). -/
opaque freeValue : Nat → BitVec 64

/-- Device Serial Number, 8 bytes (Table 12.2). -/
opaque dsn : BitVec 64

/-- The device root key in the fuses of the part as shipped (R17, R370). -/
opaque drk : BitVec 256

/-- The factory self-test image of slot A (R17); its version field is 1 (`factorySlot`). -/
opaque factoryImage : List Byte

/-- ARG bytes 8 to 13 of a swarm message, and its data where no table gives the bytes: class, operation, arguments
(Table 14.2 names the contents and not their places). -/
opaque argBytes : Nat → Nat → List Nat → List Byte

/-- What the link and physical layer capabilities of configuration space hold, by offset (R271). -/
opaque cfgOther : Nat → BitVec 32

/-- The scrambler seed of a physical wavelength of a port that the two ends agree in a training (R296), by the port, the
wavelength and the training. -/
opaque scramblerSeed : Nat → Nat → Nat → BitVec 31

end Sys2Proof.Config
end

