-- ==== Sys2Proof/Machine/StWax.lean ====
section
/-! DEFINITION. Machine/StWax.lean: the records of a wax image (spec/07) and the state of the wax controller (spec/08). -/

namespace Sys2Proof.Machine

/-- A partition record (Table 7.5). -/
structure PartRec where
  pid : Nat
  nHive : Nat
  csKib : Nat
  supMib : Nat
  deriving DecidableEq, Repr

/-- A layer record (Table 7.6) with its partition. -/
structure LayerRec where
  pid : Nat
  layer : Nat
  /-- BIP: bipolar. -/
  bip : Bool
  /-- RANDW: random x random. -/
  randw : Bool
  lcode : Nat
  nTerms : Nat
  nOut : Nat
  span : Nat
  hmask : BitVec 96
  deriving DecidableEq, Repr

/-- A HIVE record (Table 7.7); pid 0xFF is unassigned. -/
structure HiveRec where
  hive : Nat
  pid : Nat
  combEn : Byte
  deriving DecidableEq, Repr

/-- A ROUTE record (Table 7.8). -/
structure RouteRec where
  src : Nat
  dst : Nat
  pid : Nat
  hops : Nat
  path : BitVec 48
  deriving DecidableEq, Repr

/-- An EXTRACT record (Table 7.9). -/
structure ExtractRec where
  pid : Nat
  layer : Nat
  approx : Bool
  photonic : Bool
  fallback : Bool
  wset : Nat
  deriving DecidableEq, Repr

/-- An OVS record (Table 7.10). -/
inductive OvsRec
  | row (row ceil : Nat)
  | part (pid ceil : Nat)
  /-- MODE: TOLERATE_LSB when `tolerate`, else REPLAY. -/
  | layer (pid layer : Nat) (tolerate : Bool)
  deriving DecidableEq, Repr

/-- An EXPRESS record (Table 7.11). -/
structure ExpressRec where
  owner : Nat
  nHive : Nat
  maxSteps : Nat
  maxCyc : Nat
  colmask : BitVec 64
  deriving DecidableEq, Repr

/-- A SEED record (Table 7.12): `weight` for KIND WEIGHT, else INPUT_RAW. -/
structure SeedRec where
  pid : Nat
  layer : Nat
  weight : Bool
  base : BitVec 24
  stride : BitVec 24
  deriving DecidableEq, Repr

/-- The records of an image. An image in force always has its hives ascending. -/
structure WaxImg where
  ver : Word := 0
  signed : Bool := false
  step : Byte := 0
  name : List Byte := List.replicate 16 0
  parts : List PartRec := []
  layers : List LayerRec := []
  hives : List HiveRec := []
  routes : List RouteRec := []
  extracts : List ExtractRec := []
  ovs : List OvsRec := []
  express : Option ExpressRec := none
  seeds : List SeedRec := []
  deriving DecidableEq, Repr

/-- WAX_STAT.STATE. -/
inductive WaxState
  | idle
  | checking
  | writing
  | staged
  | draining
  | applying
  | trial
  | committing
  | rollingBack
  deriving DecidableEq, Repr

/-- A commit record (Table 8.1). -/
structure CommitRec where
  gen : Word
  /-- CUR_SLOT is B. -/
  curB : Bool
  prevValid : Bool
  curSigned : Bool
  prevSigned : Bool
  curVer : Word
  prevVer : Word
  curLen : Nat
  prevLen : Nat
  curHash : List Byte
  prevHash : List Byte
  cmac : BitVec 128
  /-- The COMMIT word is complete. -/
  complete : Bool
  deriving DecidableEq, Repr

/-- Why the controller drains (R167, R172). -/
inductive DrainFor
  | trial
  | rollback
  deriving DecidableEq, Repr

/-- What the controller has staged or on trial. -/
structure Staged where
  partialImg : Bool
  pid : Nat
  img : WaxImg
  bytes : List Byte
  /-- Slot of a full image: B when true. -/
  slotB : Bool
  /-- Staged by REVERT from its slot (R175). -/
  revert : Bool
  deriving DecidableEq, Repr

/-- The wax controller and the wax part of the brood store. -/
structure WaxSt where
  st : WaxState := .idle
  err : Byte := 0
  src : DWord := 0
  wdogMs : BitVec 24 := 0x2710
  drainMs : BitVec 24 := 0x3E8
  evt : Word := 0
  chkCode : Byte := 0
  chkSection : Byte := 0
  chkRecord : BitVec 16 := 0
  chkOffs : BitVec 25 := 0
  bootCur : Byte := 0
  bootPrev : Byte := 0
  bootSrc : BitVec 2 := 0
  -- brood store
  slotA : List Byte := []
  slotB : List Byte := []
  secX : Option CommitRec := none
  secY : Option CommitRec := none
  -- in force
  none_ : Bool := false
  img : WaxImg := {}
  /-- IN_FORCE slot is B. -/
  forceB : Bool := false
  /-- Partition versions (R178), canonical table over 0. -/
  pver : List (Nat × Word) := []
  -- in progress
  staged : Option Staged := none
  /-- Held source range: address and length (R163). -/
  hold : Option (Nat × Nat) := none
  /-- The checks under way are those of REVERT. -/
  chkRevert : Bool := false
  /-- The rollback follows the watchdog (R171). -/
  wdogHit : Bool := false
  drainFor : Option DrainFor := none
  /-- Partitions the image changes (R166). -/
  changed : List Nat := []
  /-- Watchdog running, with the ms read at TRIAL. -/
  wdog : Option (BitVec 24) := none
  /-- Image in force before the trial, with its versions, its slot and NONE (R170). -/
  before : Option (WaxImg × List (Nat × Word) × Bool × Bool) := none
  deriving DecidableEq, Repr

end Sys2Proof.Machine
end

