-- ==== Sys2Proof/Machine/WaxImage.lean ====
section
/-! DEFINITION. Machine/WaxImage.lean: reading a wax image into its records (Tables 7.1 to 7.13), what its records say
(R144, R145, R148, R150), applying a partial image (R155, R156) and writing an image out (R174). -/

namespace Sys2Proof.Machine

/-- Byte i of an image. -/
def u8 (bs : List Byte) (i : Nat) : Nat := (bs.getD i 0).toNat

/-- The little-endian number of n bytes at i (R4). -/
def uN (bs : List Byte) (i n : Nat) : Nat := leNat ((bs.drop i).take n)

/-- A section as its header gives it (Table 7.2). -/
structure SecHdr where
  ty : Nat
  count : Nat
  size : Nat
  off : Nat
  deriving DecidableEq, Repr

/-- What a record is. -/
inductive RecKind
  | glob
  | part
  | layer (pid : Nat)
  | hive
  | route
  | extract
  | ovs
  | express
  | seed
  | crc
  | sig
  deriving DecidableEq, Repr

/-- A record's place: kind, section type, index within the section, byte offset. -/
structure RecRef where
  kind : RecKind
  sec : Nat
  idx : Nat
  off : Nat
  deriving DecidableEq, Repr

/-- Record size of a section type whose records have one size (Table 7.3); none for PARTITION and unknown types. -/
def recSize : Nat → Option Nat
  | 1 => some 32
  | 3 => some 8
  | 4 => some 16
  | 5 => some 8
  | 6 => some 8
  | 7 => some 24
  | 8 => some 16
  | 0xE => some 8
  | 0xF => some 104
  | _ => none

/-- Record kind of a section type other than PARTITION. -/
def secKind : Nat → RecKind
  | 1 => .glob
  | 3 => .hive
  | 4 => .route
  | 5 => .extract
  | 6 => .ovs
  | 7 => .express
  | 8 => .seed
  | 0xE => .crc
  | _ => .sig

/-- Partition and layer records of a PARTITION section: n partition records from `off`, with record index `i`. -/
def partRecs (bs : List Byte) : Nat → Nat → Nat → List RecRef
  | 0, _, _ => []
  | n + 1, i, off =>
    let pid := u8 bs off
    let nl := u8 bs (off + 1)
    { kind := .part, sec := 2, idx := i, off := off } ::
      ((List.range nl).map fun k =>
        ({ kind := .layer pid, sec := 2, idx := i + 1 + k, off := off + 16 + 24 * k } : RecRef)) ++
      partRecs bs n (i + 1 + nl) (off + 16 + 24 * nl)

/-- Bytes that n partition records with their layers take, from `off`. -/
def partBytes (bs : List Byte) : Nat → Nat → Nat
  | 0, _ => 0
  | n + 1, off => 16 + 24 * u8 bs (off + 1) + partBytes bs n (off + 16 + 24 * u8 bs (off + 1))

/-- The records of one section. -/
def secRecs (bs : List Byte) (s : SecHdr) : List RecRef :=
  if s.ty = 2 then partRecs bs s.count 0 (s.off + 8)
  else
    let sz := (recSize s.ty).getD 0
    (List.range s.count).map fun k => { kind := secKind s.ty, sec := s.ty, idx := k, off := s.off + 8 + sz * k }

/-- The sections from `off` to `len`, taking each SIZE as it stands. -/
def secWalk (bs : List Byte) (len : Nat) : Nat → Nat → List SecHdr
  | 0, _ => []
  | n + 1, off =>
    if off ≥ len then []
    else
      let s : SecHdr := { ty := uN bs off 2, count := uN bs (off + 2) 2, size := uN bs (off + 4) 4, off := off }
      s :: (if s.size < 8 then [] else secWalk bs len n (off + s.size))

/-- The sections of an image. -/
def imgSecs (bs : List Byte) : List SecHdr := secWalk bs bs.length (bs.length / 8) 80

/-- All records in section order, then record order (R157). -/
def imgRecs (bs : List Byte) : List RecRef := (imgSecs bs).flatMap (secRecs bs)

/-- A layer record read at its place. -/
def readLayer (bs : List Byte) (pid off : Nat) : LayerRec :=
  let enc := u8 bs (off + 1)
  { pid := pid, layer := u8 bs off, bip := enc.testBit 0, randw := enc.testBit 1, lcode := natBits enc 2 3
    nTerms := uN bs (off + 2) 2, nOut := uN bs (off + 4) 2, span := u8 bs (off + 6)
    hmask := BitVec.ofNat 96 (uN bs (off + 8) 12) }

/-- An OVS record read at its place. -/
def readOvs (bs : List Byte) (off : Nat) : OvsRec :=
  match u8 bs off with
  | 1 => .row (u8 bs (off + 1)) (u8 bs (off + 2))
  | 2 => .part (u8 bs (off + 1)) (u8 bs (off + 2))
  | _ => .layer (u8 bs (off + 1)) (u8 bs (off + 2)) (u8 bs (off + 3) == 1)

/-- The records of an image as data (the checks of Table 7.14 make this reading faithful). -/
def parseWax (bs : List Byte) : WaxImg :=
  let rs := imgRecs bs
  let of (k : RecKind) : List Nat := (rs.filter fun r => r.kind == k).map (·.off)
  let g := (of .glob).headD 0
  { ver := BitVec.ofNat 32 (uN bs 8 4)
    signed := (uN bs 6 2).testBit 1
    step := bs.getD (g + 2) 0
    name := (bs.drop (g + 8)).take 16
    parts := (of .part).map fun o =>
      { pid := u8 bs o, nHive := u8 bs (o + 2), csKib := uN bs (o + 4) 2, supMib := uN bs (o + 6) 2 }
    layers := rs.filterMap fun r =>
      match r.kind with
      | .layer p => some (readLayer bs p r.off)
      | _ => none
    hives := (of .hive).map fun o => { hive := u8 bs o, pid := u8 bs (o + 1), combEn := bs.getD (o + 2) 0 }
    routes := (of .route).map fun o =>
      { src := u8 bs o, dst := u8 bs (o + 1), pid := u8 bs (o + 2), hops := u8 bs (o + 3)
        path := BitVec.ofNat 48 (uN bs (o + 4) 6) }
    extracts := (of .extract).map fun o =>
      let f := u8 bs (o + 2)
      { pid := u8 bs o, layer := u8 bs (o + 1), approx := f.testBit 0, photonic := f.testBit 1
        fallback := f.testBit 2, wset := u8 bs (o + 3) }
    ovs := (of .ovs).map (readOvs bs)
    express := (of .express).head?.map fun o =>
      { owner := u8 bs (o + 1), nHive := u8 bs (o + 2), maxSteps := u8 bs (o + 3), maxCyc := uN bs (o + 4) 2
        colmask := BitVec.ofNat 64 (uN bs (o + 8) 8) }
    seeds := (of .seed).map fun o =>
      { pid := u8 bs o, layer := u8 bs (o + 1), weight := u8 bs (o + 2) == 2
        base := BitVec.ofNat 24 (uN bs (o + 4) 3), stride := BitVec.ofNat 24 (uN bs (o + 8) 3) } }

/-! ## What the records say -/

/-- The partition record of a partition. -/
def WaxImg.part? (w : WaxImg) (p : Nat) : Option PartRec := w.parts.find? fun r => r.pid == p

/-- The layer record of a layer. -/
def WaxImg.layer? (w : WaxImg) (p l : Nat) : Option LayerRec := w.layers.find? fun r => r.pid == p && r.layer == l

/-- The owner of a logical hive: none when unassigned or unlisted. -/
def WaxImg.owner? (w : WaxImg) (h : Nat) : Option Nat :=
  match w.hives.find? fun r => r.hive == h with
  | some r => if r.pid = 0xFF then none else some r.pid
  | none => none

/-- COMB_EN of a logical hive. -/
def WaxImg.combEn (w : WaxImg) (h : Nat) : Byte :=
  match w.hives.find? fun r => r.hive == h with
  | some r => if r.pid = 0xFF then 0 else r.combEn
  | none => 0

/-- The EXTRACT record of a layer. -/
def WaxImg.extract? (w : WaxImg) (p l : Nat) : Option ExtractRec :=
  w.extracts.find? fun r => r.pid == p && r.layer == l

/-- A layer uses the photonic extractor. -/
def WaxImg.photonic (w : WaxImg) (p l : Nat) : Bool := ((w.extract? p l).map (·.photonic)).getD false

/-- A layer may fall back to the electronic extractor (EXTRACT_FALLBACK). -/
def WaxImg.fallback (w : WaxImg) (p l : Nat) : Bool := ((w.extract? p l).map (·.fallback)).getD false

/-- The wavelength set of a layer. -/
def WaxImg.wset (w : WaxImg) (p l : Nat) : Nat := ((w.extract? p l).map (·.wset)).getD 0

/-- A layer runs TOLERATE_LSB (R148: REPLAY without a record). -/
def WaxImg.tolerate (w : WaxImg) (p l : Nat) : Bool :=
  w.ovs.any fun r => match r with
    | .layer p' l' t => p' == p && l' == l && t
    | _ => false

/-- Row ceiling of a row: 0x0 without a ROW record (R148). -/
def WaxImg.rowCeil (w : WaxImg) (r : Nat) : Nat :=
  (w.ovs.findSome? fun o => match o with
    | .row r' c => if r' = r then some c else none
    | _ => none).getD 0

/-- Partition ceiling: 0x3 without a PARTITION record (R148). -/
def WaxImg.partCeil (w : WaxImg) (p : Nat) : Nat :=
  (w.ovs.findSome? fun o => match o with
    | .part p' c => if p' = p then some c else none
    | _ => none).getD 3

/-- R148: the wax ceiling of a row, the lowest of its row ceiling and of the ceilings of the partitions that own hives in it. -/
def WaxImg.waxCeil (w : WaxImg) (row : Nat) : Nat :=
  (w.hives.filter fun h => h.hive / 12 == row && h.pid != 0xFF).foldl
    (fun c h => min c (w.partCeil h.pid)) (w.rowCeil row)

/-- The express partition exists (R149). -/
def WaxImg.hasExpress (w : WaxImg) : Bool := w.express.isSome && (w.part? 0x40).isSome

/-- The colony of a partition: itself, or the OWNER of the EXPRESS record (R195, R227). -/
def WaxImg.colonyOf (w : WaxImg) (p : Nat) : Nat :=
  if p = 0x40 then (w.express.map (·.owner)).getD 0 else p

/-- A cell's wavelength is in a wavelength set (Table 5.1: FULL, SKIP4, ALT). -/
def wsetHas (ws cell : Nat) : Bool :=
  match ws with
  | 0 => true
  | 1 => cell % 4 != 3
  | _ => cell % 2 == 0

/-- Terms per pass of a wavelength set (Table 5.1): 64, 48, 32. -/
def wsetTerms (ws : Nat) : Nat :=
  match ws with
  | 0 => 64
  | 1 => 48
  | _ => 32

/-- T of R144: 64 for an electronic layer, the terms per pass of its wavelength set for a photonic one. -/
def WaxImg.termsPerPass (w : WaxImg) (p l : Nat) : Nat := if w.photonic p l then wsetTerms (w.wset p l) else 64

/-- P of R144. -/
def passesOf (nTerms t : Nat) : Nat := (nTerms + t - 1) / t

/-- Stream length of an LCODE (Table 7.6). -/
def lenOf (lcode : Nat) : Nat := 64 * 2 ^ lcode

/-- The hives of an HMASK in ascending order. -/
def maskHives (m : BitVec 96) : List Nat := (List.range 96).filter fun i => m.getLsbD i

/-- R150: id of an element under a SEED record. -/
def SeedRec.sid (r : SeedRec) (e : Nat) : BitVec 24 := r.base + BitVec.ofNat 24 e * r.stride

/-- The SEED record of a kind for a layer. -/
def WaxImg.seed? (w : WaxImg) (p l : Nat) (weight : Bool) : Option SeedRec :=
  w.seeds.find? fun r => r.pid == p && r.layer == l && r.weight == weight

/-- BANKS: rows in which a photonic layer has a hive (Table 7.4). -/
def WaxImg.banks (w : WaxImg) : Byte :=
  let rows := (w.layers.filter fun l => w.photonic l.pid l.layer).flatMap fun l => (maskHives l.hmask).map (· / 12)
  BitVec.ofNat 8 ((List.range 8).foldl (fun a r => a + if rows.contains r then 2 ^ r else 0) 0)

/-- Records of one partition, for the comparison of R166. -/
def WaxImg.ofPart (w : WaxImg) (p : Nat) : WaxImg :=
  { parts := w.parts.filter fun r => r.pid == p
    layers := w.layers.filter fun r => r.pid == p
    hives := w.hives.filter fun r => r.pid == p
    routes := w.routes.filter fun r => r.pid == p
    extracts := w.extracts.filter fun r => r.pid == p
    ovs := w.ovs.filter fun r => match r with
      | .row _ _ => false
      | .part p' _ => p' == p
      | .layer p' _ _ => p' == p
    express := if p = 0x40 then w.express else none
    seeds := w.seeds.filter fun r => r.pid == p }

/-- R166: partitions that a full image adds, removes or changes; records in another order count as changed (log entry 76). -/
def changedParts (old new : WaxImg) : List Nat :=
  (List.range 65).filter fun p => decide (old.ofPart p ≠ new.ofPart p)

/-! ## Partial images and writing an image out -/

/-- R155, R156: the image that a partial image yields on the image in force. Where none is in force (R154: no hive records),
STEP and NAME are those of the partial image (log entry 71). -/
def applyPartial (old : WaxImg) (p : Nat) (new : WaxImg) : WaxImg :=
  let keepPid {α : Type} (f : α → Nat) (l : List α) : List α := l.filter fun r => f r != p
  let hiveOf (h : Nat) : HiveRec :=
    match new.hives.find? fun r => r.hive == h with
    | some r => r
    | none =>
      match old.hives.find? fun r => r.hive == h with
      | some r => if r.pid = p then { hive := h, pid := 0xFF, combEn := r.combEn } else r
      | none => { hive := h, pid := 0xFF, combEn := 0 }
  { ver := new.ver
    signed := old.signed && new.signed
    step := if old.hives.isEmpty then new.step else old.step
    name := if old.hives.isEmpty then new.name else old.name
    parts := keepPid PartRec.pid old.parts ++ new.parts
    layers := keepPid LayerRec.pid old.layers ++ new.layers
    hives := (List.range 96).map hiveOf
    routes := keepPid RouteRec.pid old.routes ++ new.routes
    extracts := keepPid ExtractRec.pid old.extracts ++ new.extracts
    ovs := (old.ovs.filter fun r => match r with
      | .row _ _ => true
      | .part p' _ => p' != p
      | .layer p' _ _ => p' != p) ++ new.ovs
    express := if p = 0x40 then new.express else old.express
    seeds := keepPid SeedRec.pid old.seeds ++ new.seeds }

/-- The elements of a list whose key is k, for each key from 0 to 255 in turn (a stable sort by key). -/
def sortByKey {α : Type} (f : α → Nat) (l : List α) : List α :=
  (List.range 256).flatMap fun k => l.filter fun r => f r == k

/-- PID of an OVS record for the order of R174; ROW records come first, by row. -/
def OvsRec.key : OvsRec → Nat
  | .row _ _ => 0
  | .part p _ => p + 1
  | .layer p _ _ => p + 1

/-- The bytes of a layer record. -/
def encLayer (l : LayerRec) : List Byte :=
  leBytes 1 l.layer ++ leBytes 1 (b2n l.bip + 2 * b2n l.randw + 4 * l.lcode) ++ leBytes 2 l.nTerms ++
    leBytes 2 l.nOut ++ leBytes 1 l.span ++ [0] ++ leBytes 12 l.hmask.toNat ++ List.replicate 4 0

/-- The bytes of an OVS record. -/
def encOvs : OvsRec → List Byte
  | .row r c => leBytes 1 1 ++ leBytes 1 r ++ leBytes 1 c ++ List.replicate 5 0
  | .part p c => leBytes 1 2 ++ leBytes 1 p ++ leBytes 1 c ++ List.replicate 5 0
  | .layer p l t => leBytes 1 3 ++ leBytes 1 p ++ leBytes 1 l ++ leBytes 1 (b2n t) ++ List.replicate 4 0

/-- A section: header and body; an empty optional section is absent. -/
def encSec (ty count : Nat) (body : List Byte) : List Byte :=
  if count = 0 then [] else leBytes 2 ty ++ leBytes 2 count ++ leBytes 4 (8 + body.length) ++ body

/-- Partition and layer records of an image in ascending PID (R174). -/
def encParts (w : WaxImg) : List Byte :=
  (sortByKey PartRec.pid w.parts).flatMap fun p =>
    let ls := w.layers.filter fun l => l.pid == p.pid
    leBytes 1 p.pid ++ leBytes 1 ls.length ++ leBytes 1 p.nHive ++ [0] ++ leBytes 2 p.csKib ++ leBytes 2 p.supMib ++
      List.replicate 8 0 ++ ls.flatMap encLayer

/-- R174: an image in force written out as an unsigned full image. -/
def encodeFull (w : WaxImg) : List Byte :=
  let glob := leBytes 2 0x4B96 ++ [w.step] ++ leBytes 1 w.parts.length ++ leBytes 2 w.layers.length ++ [w.banks, 0] ++
    w.name ++ List.replicate 8 0
  let secs := encSec 1 1 glob ++ encSec 2 w.parts.length (encParts w) ++
    encSec 3 w.hives.length (w.hives.flatMap fun h =>
      leBytes 1 h.hive ++ leBytes 1 h.pid ++ [h.combEn] ++ List.replicate 5 0) ++
    encSec 4 w.routes.length ((sortByKey RouteRec.pid w.routes).flatMap fun r =>
      leBytes 1 r.src ++ leBytes 1 r.dst ++ leBytes 1 r.pid ++ leBytes 1 r.hops ++ leBytes 6 r.path.toNat ++
        List.replicate 6 0) ++
    encSec 5 w.extracts.length ((sortByKey ExtractRec.pid w.extracts).flatMap fun r =>
      leBytes 1 r.pid ++ leBytes 1 r.layer ++ leBytes 1 (b2n r.approx + 2 * b2n r.photonic + 4 * b2n r.fallback) ++
        leBytes 1 r.wset ++ List.replicate 4 0) ++
    encSec 6 w.ovs.length ((sortByKey OvsRec.key w.ovs).flatMap encOvs) ++
    encSec 7 (b2n w.express.isSome) ((w.express.map fun e =>
      leBytes 1 0x40 ++ leBytes 1 e.owner ++ leBytes 1 e.nHive ++ leBytes 1 e.maxSteps ++ leBytes 2 e.maxCyc ++
        List.replicate 2 0 ++ leBytes 8 e.colmask.toNat ++ List.replicate 8 0).getD []) ++
    encSec 8 w.seeds.length ((sortByKey SeedRec.pid w.seeds).flatMap fun r =>
      leBytes 1 r.pid ++ leBytes 1 r.layer ++ leBytes 1 (if r.weight then 2 else 1) ++ [0] ++
        leBytes 4 r.base.toNat ++ leBytes 4 r.stride.toNat ++ List.replicate 4 0)
  let crcSec := leBytes 2 0xE ++ leBytes 2 1 ++ leBytes 4 16 ++ leBytes 4 (crc32 secs).toNat ++ List.replicate 4 0
  let body := secs ++ crcSec
  let nsec := (secWalk body body.length (body.length / 8) 0).length
  [0x53, 0x4B, 0x57, 0x58] ++ leBytes 2 3 ++ leBytes 2 0 ++ leBytes 4 w.ver.toNat ++ leBytes 4 (80 + body.length) ++
    leBytes 4 0 ++ List.replicate 4 0 ++ leBytes 2 nsec ++ List.replicate 6 0 ++ sha384 body ++ body

end Sys2Proof.Machine
end

