-- ==== Sys2Proof/Machine/Kdf.lean ====
section
/-! DEFINITION. Machine/Kdf.lean: derived keys (R371) and the bytes of a wax commit record (Table 8.1). Encodings of the
standards: log entry 9. -/

namespace Sys2Proof.Machine

/-- Bytes of the device root key, most significant first. -/
def drkBytes (d : BitVec 256) : List Byte := beBytes 32 d.toNat

/-- R371: a derived key of 32 bytes; the label is ASCII (Table 16.1). -/
def kdf (d : BitVec 256) (label : List Byte) : List Byte :=
  (hmac384 (drkBytes d) (beBytes 4 1 ++ label ++ [0] ++ leBytes 8 Config.dsn.toNat ++ beBytes 4 256)).take 32

/-- SKW-WAXC. -/
def labWaxc : List Byte := [0x53, 0x4B, 0x57, 0x2D, 0x57, 0x41, 0x58, 0x43]

/-- SKW-KREC. -/
def labKrec : List Byte := [0x53, 0x4B, 0x57, 0x2D, 0x4B, 0x52, 0x45, 0x43]

/-- SKW-LOGK. -/
def labLogk : List Byte := [0x53, 0x4B, 0x57, 0x2D, 0x4C, 0x4F, 0x47, 0x4B]

/-- Bytes 0 to 123 of a commit record (Table 8.1). -/
def CommitRec.body (r : CommitRec) : List Byte :=
  [0x53, 0x4B, 0x57, 0x43] ++ leBytes 4 r.gen.toNat ++
  [BitVec.ofNat 8 (b2n r.curB + 2 * b2n r.prevValid + 4 * b2n r.curSigned + 8 * b2n r.prevSigned), 0, 0, 0] ++
  leBytes 4 r.curVer.toNat ++ leBytes 4 r.prevVer.toNat ++ leBytes 4 r.curLen ++ leBytes 4 r.prevLen ++
  r.curHash ++ r.prevHash

/-- The CMAC of a commit record under the wax commit key of a root key. -/
def commitMac (d : BitVec 256) (bs : List Byte) : BitVec 128 := cmac (kdf d labWaxc) bs

/-- A commit record with its CMAC under the wax commit key of a root key. -/
def CommitRec.sign (d : BitVec 256) (r : CommitRec) : CommitRec := { r with cmac := commitMac d r.body }

/-- R160: the record is complete and its CMAC verifies. -/
def CommitRec.valid (d : Option (BitVec 256)) (r : CommitRec) : Bool :=
  match d with
  | none => false
  | some d => r.complete && r.cmac == commitMac d r.body

/-- The HASH field of an image. -/
def imgHash (bs : List Byte) : List Byte := (bs.drop 32).take 48

end Sys2Proof.Machine
end

