-- ==== Sys2Proof/Machine/StArray.lean ====
section
/-! DEFINITION. Machine/StArray.lean: state of the photonic extractor (spec/05) and of voltage over-scaling (spec/06). -/

namespace Sys2Proof.Machine

/-- PHX_BSTAT.STATE. -/
inductive BankSt
  | off
  | cal
  | acquiring
  | locked
  | unlocked
  | shed
  deriving DecidableEq, Repr

/-- A calibration entry (PHX_BCAL_DATA): unsigned Q2.14 gain and signed 12-bit offset. -/
structure CalEnt where
  gain : BitVec 16 := 0x4000
  offs : BitVec 12 := 0
  deriving DecidableEq, Repr

/-- One photonic bank. -/
structure Bank where
  en : Bool := false
  st : BankSt := .off
  /-- A bank was LOCKED when a calibration or a loss moved it, so its next LOCKED follows a relock. -/
  relocking : Bool := false
  /-- The thermal hold keeps it OFF: it calibrates when the hold ends (R116). -/
  thermal : Bool := false
  /-- The comb that had the last grant: its logical hive and its number (R102). -/
  last : Option (HiveId × Nat) := none
  /-- Cycles left in which passes are marked unhinted (R111). -/
  unhint : Nat := 0
  /-- Shedding has taken the bank and it has not been LOCKED since (R120). -/
  wasShed : Bool := false
  calStale : Bool := false
  calValid : Bool := false
  tCal : BitVec 8 := 0
  spares : Nat := 0
  evt : Word := 0
  lossCause : BitVec 4 := 0
  lossTag : BitVec 16 := 0
  worst : BitVec 16 := 0
  calIdx : BitVec 3 := 0
  ents : Vector CalEnt 8 := Vector.replicate 8 {}
  /-- Retired physical channels (R97, R113). -/
  retired : List Nat := []
  deriving DecidableEq, Repr

/-- The extractor. -/
structure PhxSt where
  laserOk : Bool := false
  tempHold : Bool := false
  temp : BitVec 16 := 0
  bank : Vector Bank 8 := Vector.replicate 8 {}
  deriving DecidableEq, Repr

/-- One hive row's rail (R122 to R137). -/
structure OvsRow where
  /-- OVS_RCTL.CEIL. -/
  ceil : BitVec 2 := 3
  /-- Level that the rail holds, or moves to while `slew`. -/
  level : BitVec 2 := 0
  slew : Bool := false
  /-- The movement is upward after a storm (R135). -/
  stormUp : Bool := false
  stormCeil : BitVec 2 := 3
  hold : Bool := false
  volt : BitVec 16 := 0
  evt : Word := 0
  slabs : DWord := 0
  replays : DWord := 0
  tolerated : DWord := 0
  storms : Word := 0
  deriving DecidableEq, Repr

/-- Over-scaling. -/
structure OvsSt where
  nominal : Bool := false
  stormIe : Bool := false
  /-- The compute die has exceeded 100 C and has not fallen below 95 C (R125). -/
  hot : Bool := false
  row : Vector OvsRow 8 := Vector.replicate 8 {}
  deriving DecidableEq, Repr

end Sys2Proof.Machine
end

