-- ==== Sys2Proof/Machine/StExo.lean ====
section
/-! DEFINITION. Machine/StExo.lean: state of the Exoth ports (spec/13). -/

namespace Sys2Proof.Machine

/-- EXO_PSTAT.STATE (Table 13.7). -/
inductive PortSt
  | down
  | safe
  | answer
  | relit
  | train
  | active
  | retrain
  | loop
  deriving DecidableEq, Repr

/-- What the TX of a port emits (Table 13.7, R319). -/
inductive TxLight
  | dark
  /-- One 1 ms probe at probe power on physical wavelength 0. -/
  | probe
  /-- Probe power, continuous. -/
  | answer
  /-- Full power. -/
  | full
  deriving DecidableEq, Repr

/-- A sequenced flit that the retry buffer holds: its number modulo 1,024 and its bytes. -/
structure HeldFlit where
  num : Nat
  bytes : List Byte
  deriving DecidableEq, Repr

/-- A message that waits on a port for credits or retry room, or is partly sent: class (KIND 2 to 6), VC, and the payloads of
the flits that have not been sent. -/
structure OutMsg where
  kind : Nat
  vc : Nat
  flits : List (List Byte)
  /-- The payload of its first flit. -/
  head : List Byte := []
  /-- Its first flit has been sent. -/
  started : Bool := false
  /-- Flits of a message that is passed on which have not arrived yet (R309). -/
  more : Nat := 0
  /-- A message that is passed on: the port and credit index whose buffer it leaves (R306, R309). -/
  from_ : Option (Nat × Nat) := none
  deriving DecidableEq, Repr

/-- What becomes of a message that is being received: it is for this station, it is passed on by a port (R309), or it is
discarded. -/
inductive RxTo
  | here
  | pass (q : Fin 4)
  | drop
  deriving DecidableEq, Repr

/-- A message partly received: its KIND and VC, the flits that its LEN gives and those that have arrived, and the payloads kept
here. -/
structure RxMsg where
  kind : Nat
  vc : Nat
  len : Nat
  got : Nat
  dest : RxTo
  flits : List (List Byte)
  deriving DecidableEq, Repr

/-- What a partner's TRAIN flits report (Table 13.8, step 4): its good receive set, its Device Serial Number, and the value of
its own that the next TRAIN flit echoes. -/
structure TrainInfo where
  good : BitVec 9
  serial : BitVec 64
  echo : BitVec 16
  deriving DecidableEq, Repr

/-- One Exoth port. Credits are indexed class by class, two VCs each, in the order of Table 13.4. -/
structure Port where
  st : PortSt := .down
  en : Bool := true
  loopOn : Bool := false
  tx : TxLight := .dark
  light : Bool := false
  half : Bool := false
  self : Bool := false
  admitted : Bool := false
  partner : BitVec 6 := 0
  partnerV : Bool := false
  pport : BitVec 2 := 0
  evt : Word := 0
  lossCause : BitVec 4 := 0
  lossCount : BitVec 16 := 0
  /-- The loss was detected in the present cycle (R321). -/
  lossNow : Bool := false
  txUse : BitVec 9 := 0
  rxUse : BitVec 9 := 0
  rtt : BitVec 16 := 0
  freq : BitVec 16 := 0
  rxPwr : BitVec 16 := 0x8000
  txPwr : BitVec 16 := 0x8000
  crcCnt : DWord := 0
  rtyCnt : DWord := 0
  txfCnt : DWord := 0
  rxfCnt : DWord := 0
  /-- Retry buffer, oldest first (at most 256 flits). -/
  retry : List HeldFlit := []
  /-- Number of the next sequenced flit sent, and of the next one expected, modulo 1,024. -/
  txNext : Nat := 0
  rxNext : Nat := 0
  /-- Number acknowledged last, once an ACK has advanced. -/
  acked : Option Nat := none
  credits : List Nat := []
  /-- Credits to return in the next STATUS. -/
  owed : List Nat := List.replicate 10 0
  /-- An acknowledgement is due. -/
  ackDue : Bool := false
  /-- A bad flit was discarded and the expected one has not arrived (R301). -/
  discarding : Bool := false
  /-- Failed retries, and whether a resend has happened since the last ACK advance (R304). -/
  failed : Nat := 0
  resent : Bool := false
  /-- Messages partly received. -/
  rxPart : List RxMsg := []
  /-- Messages that wait to be sent. -/
  outq : List OutMsg := []
  /-- Sequenced flits sent in a row while a flit of MGMT could have been (Table 13.5). -/
  mgmtWait : Nat := 0
  /-- Flit slots used since the last training, and the draw that stands for the scrambler seeds agreed in it (R296). -/
  slotN : Nat := 0
  seedAt : Nat := 0
  /-- What the partner has reported in the training under way. -/
  peer : Option TrainInfo := none
  /-- Flits on their way to the port's own receiver (R315), oldest first. -/
  loopIn : List (List Byte) := []
  deriving DecidableEq, Repr

/-- Buffers of Table 13.5 as credits, STREAM, PSUM, CONTROL, SYNC, MGMT, two VCs each (order of Table 13.4). -/
def creditInit : List Nat := [256, 256, 128, 128, 32, 32, 16, 16, 32, 32]

end Sys2Proof.Machine
end

