-- ==== Sys2Proof/Machine/StJob.lean ====
section
/-! DEFINITION. Machine/StJob.lean: state of jobs and colonies (spec/11), the Parnik sampling ports (spec/03). -/

namespace Sys2Proof.Machine

/-- A completion code of Table 0.6. -/
inductive Code
  | ok
  | okDegraded
  | doesNotFit
  | waxMismatch
  | seedUnavailable
  | swarmLost
  | linkTimeout
  | sealedAbort
  | rngFail
  | powerShed
  | hiveFault
  | cancelled
  | internal
  deriving DecidableEq, Repr

/-- A status with its DETAIL bytes 8 to 15 (Table 11.4), as a little-endian number. -/
structure Ending where
  code : Code
  detail : DWord := 0
  deriving DecidableEq, Repr

/-- A job descriptor (Table 11.2), fields only. -/
structure Desc where
  cls : Nat := 0
  hwseed : Bool := false
  spillOk : Bool := false
  replayable : Bool := false
  checkpoint : Bool := false
  lendOk : Bool := false
  rreg : Bool := false
  fence : Bool := false
  noirq : Bool := false
  inHive : Nat := 0
  outHive : Nat := 0
  waxVer : Word := 0
  key : DWord := 0
  inAddr : DWord := 0
  inLen : Nat := 0
  inOff : Nat := 0
  outAddr : DWord := 0
  outLen : Nat := 0
  outOff : Nat := 0
  g2 : Word := 0
  g3 : Word := 0
  user : Word := 0
  deriving DecidableEq, Repr

/-- Where a job came from. -/
inductive JobKind
  /-- Submission queue q of the colony. -/
  | queue (q : Fin 4)
  /-- An express request: payload bytes, PACK, and the address of its record (R258). -/
  | express (payload : List Byte) (pack : Bool) (cpl : DWord)
  /-- A swarm job of another home station, with its tag there (R333). -/
  | swarm (home : BitVec 6) (tag : BitVec 16)
  deriving DecidableEq, Repr

/-- Progress of a job (R238). -/
inductive JobSt
  | queued
  | running
  /-- Its ending is known; programs still stop. -/
  | stopping
  /-- Ended; its record waits to be written (R251, R276). -/
  | ended
  deriving DecidableEq, Repr

/-- One checkpoint of a swarm job as its home station holds it (R339): its number, and the bytes received per station and
hive, from an offset on. -/
structure Ckpt where
  k : Nat := 0
  /-- Stations whose CKPT_DONE arrived. -/
  done : List Nat := []
  data : List (Nat × HiveId × Nat × List Byte) := []
  deriving DecidableEq, Repr

/-- A job in flight (R238 to R240). -/
structure Job where
  slot : Nat
  gen : Nat
  col : ColId
  kind : JobKind
  d : Desc
  st : JobSt := .queued
  /-- Fetch order, which also orders dispatch within a class. -/
  order : Nat := 0
  /-- The seed of HWSEED has been requested and has not arrived. -/
  seedPend : Bool := false
  key : DWord := 0
  inputPend : Bool := false
  bars : Vector Barrier 32 := Vector.replicate 32 {}
  /-- The seed of HWSEED is in `key`. -/
  seeded : Bool := false
  /-- The express hive in whose lent window the job's program runs or ran, and the program's home hive (R256). -/
  lentAt : Option (HiveId × HiveId) := none
  /-- Home hives whose program and window lie on another hive of the partition, and that hive (R92, R391). -/
  movedAt : List (HiveId × HiveId) := []
  /-- Degradation causes: bit 0 supered, bit 1 spare hive, bit 2 extractor fallback (Table 11.4). -/
  degr : BitVec 3 := 0
  /-- First cause of an ending other than OK, and whether it was detected in the present cycle (R13). -/
  ending : Option Ending := none
  endNow : Bool := false
  /-- Program-region write reported (R187), supers access without an allocation reported (R223). -/
  progWr : Bool := false
  noSup : Bool := false
  sealed : Bool := false
  /-- Partition 0x40 or the colony's own. -/
  part : PartId := 0
  -- Swarm state (spec/14)
  span : DWord := 0
  /-- The span and the stations on the routes among it, at dispatch (R332). -/
  reach : DWord := 0
  /-- A station removed from the span and the standby that took its role (R342). -/
  role : Option (Nat × Nat) := none
  /-- STOP has been sent to the other stations, or received from the home station (R337). -/
  stopSent : Bool := false
  /-- Stations that accepted, stations that are done. -/
  accepted : DWord := 0
  done : DWord := 0
  started : Bool := false
  ckpt : List Ckpt := []
  repeats : Nat := 0
  /-- Number of the last release of barrier 31 that was a checkpoint here (R339). -/
  ckptK : Nat := 0
  deriving DecidableEq, Repr

/-- One completion record, in the order of Table 11.3, before PHASE is known. -/
structure CplRec where
  tag : BitVec 16
  code : Code
  detail : DWord := 0
  user : Word := 0
  qual : BitVec 2 := 0
  sec : Word := 0
  sub : Word := 0
  result : Option (BitVec 56 × Byte) := none
  noirq : Bool := false
  slot : Nat := 0
  deriving DecidableEq, Repr

/-- A submission queue (R241). -/
structure Sq where
  base : DWord := 0
  log2 : BitVec 4 := 4
  en : Bool := false
  head : Nat := 0
  tail : Nat := 0
  deriving DecidableEq, Repr

/-- One buffer of a result register (R261): 56 result bits and SEQ. -/
structure ResBuf where
  res : BitVec 56 := 0
  seq : Byte := 0
  deriving DecidableEq, Repr

/-- A result register: two buffers and which one is active (R261). -/
structure ResReg where
  a : ResBuf := {}
  b : ResBuf := {}
  useB : Bool := false
  deriving DecidableEq, Repr

/-- The Parnik sampling port of a VF (R59 to R64). -/
structure SpPort where
  /-- The key in force. -/
  key : DWord := 0
  /-- The last value written to PRK_SP_KEY_LO. -/
  keyLo : Word := 0
  sid : BitVec 24 := 0
  pos : Word := 0
  fmt : BitVec 2 := 0
  busy : Bool := false
  hwk : Bool := false
  /-- SEED_ERR, EARLY, WRAP as bits 2, 3, 4 of PRK_SP_STAT. -/
  stat : Word := 0
  deriving DecidableEq, Repr

/-- The express registers of a VF (R258). -/
structure XpSt where
  key : DWord := 0
  dst : DWord := 0
  cpl : DWord := 0
  inOff : BitVec 21 := 0
  inHive : BitVec 7 := 0
  outOff : BitVec 21 := 0
  outHive : BitVec 7 := 0
  lenIn : BitVec 10 := 0
  pack : Bool := false
  lenOut : BitVec 10 := 0
  g2 : Word := 0
  ver : Word := 0
  user : Word := 0
  deriving DecidableEq, Repr

/-- What a register set of a VF holds (returned to reset by a colony reset, R266). -/
structure VfRegs where
  sq : Vector Sq 4 := Vector.replicate 4 {}
  cqBase : DWord := 0
  cqLog2 : BitVec 4 := 4
  cqEn : Bool := false
  cqTail : Nat := 0
  cqPhase : Bool := true
  cqHead : Nat := 0
  modCnt : Byte := 1
  modUsec : BitVec 16 := 0
  /-- Records written and not yet signalled that count (R252). -/
  modPend : Nat := 0
  /-- Records that wait for CQ space or Bus Master Enable, in the order in which their jobs ended (R251, R276). -/
  waiting : List CplRec := []
  /-- The record of an express request that waits for Bus Master Enable, with its address (R276). -/
  xpHeld : Option (DWord × CplRec) := none
  mailbox : Memory := []
  xp : XpSt := {}
  /-- PHASE of the next express record (R260). -/
  xphase : Bool := true
  torn : Bool := false
  err : Word := 0
  errIdx : BitVec 12 := 0
  errSq : BitVec 2 := 0
  errCode : Byte := 0
  res : ResReg := {}
  xres : ResReg := {}
  sp : SpPort := {}
  deriving DecidableEq, Repr

/-- One colony: its VF registers, PF0's limits (COL, SUP, EXO_SW_SPAN) and its reset in progress. -/
structure Colony where
  r : VfRegs := {}
  resetBusy : Bool := false
  /-- The reset is a Function Level Reset or a VF disable: the configuration space goes back with it (R266, R275). -/
  flr : Bool := false
  limit : Nat := 15
  highOk : Bool := true
  lend : Bool := true
  /-- SUP_CA_BASE, SUP_CA_SIZE, SUP_CS_QUOTA. -/
  caBase : BitVec 16 := 0
  caSize : BitVec 16 := 0
  csQuota : BitVec 11 := 0x600
  /-- EXO_SW_SPAN. -/
  span : DWord := 0
  /-- The queue of the colony from which the next fetch starts (R243). -/
  nextQ : Nat := 0
  deriving DecidableEq, Repr

end Sys2Proof.Machine
end

