-- ==== Sys2Proof/Machine/StMem.lean ====
section
/-! DEFINITION. Machine/StMem.lean: state of the supers, of the queen's model loads and of the loaded models
(spec/09 dance image, spec/10). -/

namespace Sys2Proof.Machine

/-- The supers and the SUP block. -/
structure SupSt where
  /-- 32 GiB of bytes (R221). -/
  mem : Memory := []
  /-- Addresses of uncorrectable 64-bit words (R236). -/
  ue : List Nat := []
  /-- Addresses queued for post-package repair (R236). -/
  ppr : List Nat := []
  s0Up : Bool := false
  s1Up : Bool := false
  evt : Word := 0
  win : BitVec 7 := 0
  ueAddr : BitVec 35 := 0
  ceCnt : Word := 0
  /-- Self-refresh (R420). -/
  selfRefresh : Bool := false
  deriving DecidableEq, Repr

/-- A directory entry of a dance image (Table 9.10). -/
structure DirEnt where
  hive : HiveId
  nInstr : Nat
  imgOff : Nat
  csOff : Nat
  deriving DecidableEq, Repr

/-- KIND of a model descriptor entry (Table 10.3). -/
inductive EntKind
  | weights
  | fixed
  | scratch
  deriving DecidableEq, Repr

/-- A model descriptor entry (Table 10.3). -/
structure MdlEnt where
  hive : HiveId
  layer : Nat
  kind : EntKind
  csOff : Nat
  len : Nat
  src : Nat
  deriving DecidableEq, Repr

/-- The plan of one hive (R229), in rank order (R228). -/
inductive Plan
  | resident
  | supered
  | nofit
  deriving DecidableEq, Repr

/-- The fit plan of one hive with its shortfalls (R229, R230). -/
structure HivePlan where
  hive : HiveId
  plan : Plan
  /-- Layers the plan supers on the hive. -/
  layers : List Nat
  /-- Spill buffer size in bytes. -/
  spill : Nat
  /-- SHORT_KIB of this hive: of check 5 for SUPERED, of check 4 for NOFIT, 0 for RESIDENT. -/
  shortKib : Nat
  deriving DecidableEq, Repr

/-- A loaded model: its dance image and descriptor entries, and its fit plan (R214, R227 to R229). -/
structure Model where
  part : PartId
  waxVer : Word
  /-- TARGET0 to TARGET31. -/
  targets : List Nat
  dir : List DirEnt
  /-- Supers address of the dance image (the master copy). -/
  image : Nat
  /-- Layers that the programs name in SEED. -/
  seeds : List Nat
  /-- Layers that its programs run under: the first, and those named in LSET (R255). -/
  layers : List Nat
  usesSync : Bool
  usesMov : Bool
  ents : List MdlEnt
  plans : List HivePlan
  deriving DecidableEq, Repr

/-- What the checks and copies of a load came to: CODE, the model that passed them, what QN_DLD_STAT and QN_DLD_POS report
of its dance image (code, entry, index; none when the image was not checked), and the figures of R216. -/
structure LoadRes where
  code : Byte := 0
  model : Option Model := none
  dld : Option (Byte × Nat × Nat) := none
  exp : Option (Nat × Nat) := none
  deriving DecidableEq, Repr

/-- The model-load command and the load results (QN block). -/
structure MldSt where
  src : DWord := 0
  /-- A load runs (QN_MLD_CMD.GO reads 1, CODE reads BUSY). -/
  busy : Bool := false
  /-- The descriptor address that the running load uses. -/
  at_ : Nat := 0
  /-- The partition whose dispatch the load holds, when its descriptor names one. -/
  hold : Option PartId := none
  /-- What the checks and copies of the running load came to, before it ends. -/
  result : Option LoadRes := none
  code : Byte := 0
  plan : BitVec 2 := 0
  nSup : Byte := 0
  shortKib : BitVec 24 := 0
  dldCode : Byte := 0
  dldProg : BitVec 7 := 0
  dldPos : BitVec 24 := 0
  expCyc : BitVec 11 := 0
  expSteps : BitVec 5 := 0
  deriving DecidableEq, Repr

end Sys2Proof.Machine
end

