-- ==== Sys2Proof/Machine/State.lean ====
section
/-! DEFINITION. Machine/State.lean: the state of the part, the reasons that a step can stop, and the state after reset. -/

namespace Sys2Proof.Machine

/-- What the part sends out (log entry 8). -/
inductive Tx
  /-- A posted write to the cellar, with its Relaxed Ordering attribute (R288); No Snoop is never set. -/
  | write (fn : Fn) (kind : TxKind) (addr : Nat) (bytes : List Byte) (ro : Bool := false)
  /-- A read request to the cellar. -/
  | read (fn : Fn) (key : RdKey) (addr len : Nat)
  /-- An MSI-X message of a vector. -/
  | msix (fn : Fn) (vec : Nat) (addr : DWord) (data : Word)
  /-- A flit on a port. -/
  | flit (p : PortId) (bytes : List Byte) (slot cycle : Nat)
  /-- A probe of 1 ms at probe power on physical wavelength 0 (R319). -/
  | probe (p : PortId)
  /-- A swarm message formed here for a station, of the job named. -/
  | swarm (dst home : StnId) (tag : BitVec 16) (m : SwMsg)
  /-- A message of a walk given to a port (R327, R328). -/
  | walk (p : PortId) (src : StnId) (m : SwMsg)
  deriving DecidableEq, Repr

/-- The state of the part: one block per chapter of the manual, and the queue of commands. -/
structure State where
  /-- Commands that wait, first in, first out. -/
  pending : List Instr := []
  /-- The last completion returned to a requester (the model's own field, log entry 8). -/
  resp : Resp := {}
  /-- What the part has sent, newest first: a TLP stands here from the time it is handed to the transmitter (the model's own
  field, log entry 8). -/
  tx : List Tx := []
  /-- TLPs that the arbiter has transmitted, newest first, by their place in `tx` counted from the oldest (R289). -/
  wired : List Nat := []
  /-- TLPs handed over before this place are no longer waiting: a reset has come since. -/
  txFloor : Nat := 0
  /-- Index of the next free value (the model's own field, log entry 11). -/
  freeCtr : Nat := 0
  host : HostSt := {}
  /-- Shadow of each requester (R407): the pair's _LO address and the captured _HI. PF0 is key 0, VF c+1 key c+1, the
  Guard key 65. -/
  shadows : List (Nat × Option (Nat × Word)) := []
  cols : Vector Colony 64 := Vector.replicate 64 {}
  /-- The colony from which the next fetch starts (R243). -/
  nextCol : Nat := 0
  jobs : List Job := []
  /-- Swarm jobs of other home stations that were lost here and that a ROLLBACK can bring back (R341, R342). -/
  lostJobs : List Job := []
  /-- Generation of each job table slot (R239). -/
  gens : List (Nat × Nat) := []
  /-- Fetch order of the next job. -/
  order : Nat := 0
  hives : Vector Hive 96 := Vector.replicate 96 {}
  mesh : List MeshMsg := []
  arrivals : List Arrival := []
  /-- Sending order of messages on the mesh. -/
  seq : Nat := 0
  sup : SupSt := {}
  mld : MldSt := {}
  models : List Model := []
  wax : WaxSt := {}
  phx : PhxSt := {}
  ovs : OvsSt := {}
  ports : Vector Port 4 := Vector.replicate 4 {}
  /-- EXO_LCTL.TMO. -/
  tmo : BitVec 16 := 0x3E8
  swarm : SwarmSt := {}
  inbox : List InMsg := []
  guard : GuardSt := {}
  tb : TbSt := {}
  pwr : PwrSt := {}
  rpr : RprSt := {}
  boot : BootSt := {}
  obs : ObsSt := {}
  bmc : BmcSt := {}
  deriving DecidableEq, Repr

/-- Faults. The manual gives every command an effect in every state, so the part has none: the type is empty. -/
inductive Fault
  deriving DecidableEq, Repr

/-- Refusals. -/
inductive Refusal
  /-- Raised by an arm of `exec` whose command has no meaning in the model yet (safe: nothing is claimed of it). -/
  | notModelled (mnemonic : String)
  deriving DecidableEq, Repr

/-- The factory self-test image of slot A: its IMG_VER is 0x0000_0001 (R17, Table 0.10). -/
def factorySlot : List Byte := Config.factoryImage.take 8 ++ [1, 0, 0, 0] ++ Config.factoryImage.drop 12

/-- The commit record of the factory image (R17): generation 1, slot A, unsigned (log entry 7). -/
def factoryCommit : CommitRec := CommitRec.sign Config.drk {
  gen := 1, curB := false, prevValid := false, curSigned := false, prevSigned := false
  curVer := 1, prevVer := 0, curLen := factorySlot.length, prevLen := 0
  curHash := imgHash factorySlot, prevHash := List.replicate 48 0, cmac := 0, complete := true }

/-- The part after its first cold reset: stage PLL, every register at its reset value, the lifecycle, fuses and brood
store as shipped (R17), with the factory map mirrored in M0 at generation 1 (Table 0.10, log entry 7). -/
def State.reset : State := {
  guard := { drk := some Config.drk }
  wax := { slotA := factorySlot, secX := some factoryCommit }
  rpr := { m0 := some { gen := 1, ents := [] } } }

end Sys2Proof.Machine
end

