-- ==== Sys2Proof/Machine/Ops.lean ====
section
/-! DEFINITION. Machine/Ops.lean: the named operations over the state that every block uses: units, jobs, the free
values, what the part sends, interrupt vectors (R276, R278, R279) and glass records (R480 to R486). -/

namespace Sys2Proof.Machine

-- units

/-- A logical hive. -/
def State.hv (s : State) (h : HiveId) : Hive := s.hives[h]

/-- Change one hive. -/
def updHive (h : HiveId) (f : Hive → Hive) (s : State) : State := { s with hives := updAt s.hives h f }

/-- A colony. -/
def State.co (s : State) (c : ColId) : Colony := s.cols[c]

/-- Change one colony. -/
def updCol (c : ColId) (f : Colony → Colony) (s : State) : State := { s with cols := updAt s.cols c f }

/-- Change the VF registers of one colony. -/
def updVf (c : ColId) (f : VfRegs → VfRegs) (s : State) : State := updCol c (fun x => { x with r := f x.r }) s

/-- Change one port. -/
def updPort (p : PortId) (f : Port → Port) (s : State) : State := { s with ports := updAt s.ports p f }

/-- Change one photonic bank. -/
def updBank (b : BankId) (f : Bank → Bank) (s : State) : State :=
  { s with phx := { s.phx with bank := updAt s.phx.bank b f } }

/-- Change one rail row. -/
def updRow (r : RowId) (f : OvsRow → OvsRow) (s : State) : State :=
  { s with ovs := { s.ovs with row := updAt s.ovs.row r f } }

/-- Change one forager channel. -/
def updFor (k : ChanId) (f : ForSt → ForSt) (s : State) : State :=
  { s with host := { s.host with forager := updAt s.host.forager k f } }

/-- The hive row of a logical hive (R65). -/
def rowOf (h : HiveId) : RowId := ⟨h.val / 12, by have := h.isLt; omega⟩

/-- The hive of a number below 96. -/
def hiveOf? (n : Nat) : Option HiveId := if h : n < 96 then some ⟨n, h⟩ else none

/-- Every hive, ascending. -/
def allHives : List HiveId := List.finRange 96

/-- The colony of a number below 64. -/
def colOf? (n : Nat) : Option ColId := if h : n < 64 then some ⟨n, h⟩ else none

-- jobs

/-- The job in a slot of the job table. -/
def State.job? (s : State) (slot : Nat) : Option Job := s.jobs.find? fun j => j.slot == slot

/-- Change the job in a slot. -/
def updJob (slot : Nat) (f : Job → Job) (s : State) : State :=
  { s with jobs := s.jobs.map fun j => if j.slot == slot then f j else j }

/-- The tag of a job: generation and slot (R240). -/
def Job.tag (j : Job) : BitVec 16 :=
  match j.kind with
  | .swarm _ t => t
  | _ => BitVec.ofNat 16 (j.gen % 64 * 1024 + j.slot)

/-- The tag of the job in a slot, 0 when there is none. -/
def State.tagOf (s : State) (slot : Nat) : BitVec 16 := ((s.job? slot).map Job.tag).getD 0

/-- The job is an express request (R258). -/
def Job.isExpress (j : Job) : Bool := match j.kind with | .express .. => true | _ => false

/-- The job's home station is this one. -/
def Job.isHome (j : Job) : Bool := match j.kind with | .swarm .. => false | _ => true

/-- Rank of a completion code (Table 0.6); codes without one come last. -/
def Code.rank : Code → Nat
  | .internal => 1 | .sealedAbort => 2 | .powerShed => 3 | .hiveFault => 4 | .swarmLost => 5 | .linkTimeout => 6 | .rngFail => 7
  | .waxMismatch => 8 | .doesNotFit => 9 | .seedUnavailable => 10 | .cancelled => 11 | .ok => 12 | .okDegraded => 12

/-- Note an ending (R13): the first one detected stays, but for a lower rank detected in the same cycle. -/
def Job.endWith (e : Ending) (j : Job) : Job :=
  match j.ending with
  | none => { j with ending := some e, endNow := true }
  | some x => if j.endNow && decide (e.code.rank < x.code.rank) then { j with ending := some e } else j

-- free values

/-- An undefined value of n bits: nothing constrains it (log entry 11). -/
def State.free (s : State) (n : Nat) : BitVec n := (Config.freeValue s.freeCtr).setWidth n

/-- Use up one free value. -/
def State.tickFree (s : State) : State := { s with freeCtr := s.freeCtr + 1 }

-- what the part returns and sends

/-- Return data to the requester. -/
def State.reply (s : State) (ws : List Word) : State := { s with resp := { data := ws } }

/-- Return a completion without data. -/
def State.cpl (s : State) (c : Cpl) : State := { s with resp := { status := c } }

/-- Record something sent. -/
def State.send (s : State) (t : Tx) : State := { s with tx := t :: s.tx }

/-- Configuration state of a function. -/
def State.fn (s : State) : Fn → FnSt
  | .pf0 => s.host.pf0
  | .vf c => s.host.vf[c]

/-- Change the configuration state of a function. -/
def updFn (f : Fn) (g : FnSt → FnSt) (s : State) : State :=
  match f with
  | .pf0 => { s with host := { s.host with pf0 := g s.host.pf0 } }
  | .vf c => { s with host := { s.host with vf := updAt s.host.vf c g } }

/-- VF n exists while VF Enable is 1 and n ≤ NumVFs (R275). -/
def State.vfExists (s : State) (c : ColId) : Bool := s.host.sriov.vfEnable && decide (c.val < s.host.sriov.numVfs)

/-- Output data and forager data, on which Relaxed Ordering may stand (R288). -/
def TxKind.isData : TxKind → Bool
  | .output | .xpOutput | .foragerData _ | .foragerPoisoned _ => true
  | .record | .xpRecord | .foragerStatus _ => false

/-- Hand a read request to the transmitter (R290). -/
def sendRead (f : Fn) (key : RdKey) (addr len : Nat) (s : State) : State :=
  { s with tx := .read f key addr len :: s.tx, host := { s.host with reads := s.host.reads ++ [(s.tx.length, key)] } }

/-- Hand a request of a function to the transmitter (R288). -/
def handOver (f : Fn) (w : HeldTx) (s : State) : State :=
  match w with
  | .write k addr bs => s.send (.write f k addr bs ((s.fn f).relaxed && TxKind.isData k))
  | .read key addr len => sendRead f key addr len s

/-- A request of the part to the cellar; it waits while the function's Bus Master Enable is 0 (R276). -/
def cellarTx (f : Fn) (w : HeldTx) (s : State) : State :=
  if (s.fn f).bme then handOver f w s else updFn f (fun x => { x with held := x.held ++ [w] }) s

/-- A posted write of the part to the cellar. -/
def cellarWrite (f : Fn) (k : TxKind) (addr : Nat) (bs : List Byte) (s : State) : State := cellarTx f (.write k addr bs) s

/-- Max_Payload_Size in bytes: that of PF0 stands for every function, 512 at most (Table 12.2, R281; log entry 6). -/
def State.maxPayload (s : State) : Nat := min 512 (128 * 2 ^ s.host.pf0.mps.toNat)

/-- Cut a write into pieces that cross no boundary of m bytes; `k` bounds their number. -/
def splitWrites (m : Nat) : Nat → Nat → List Byte → List (Nat × List Byte)
  | 0, _, _ => []
  | k + 1, a, bs =>
    if bs.isEmpty then []
    else
      let n := m - a % m
      (a, bs.take n) :: splitWrites m k (a + n) (bs.drop n)

/-- Max_Read_Request_Size in bytes: that of PF0 stands for every function (R285). -/
def State.maxRead (s : State) : Nat := min 4096 (128 * 2 ^ s.host.pf0.mrrs.toNat)

/-- Cut a range into pieces that cross no boundary of m bytes; `k` bounds their number. -/
def splitReads (m : Nat) : Nat → Nat → Nat → List (Nat × Nat)
  | 0, _, _ => []
  | k + 1, a, len =>
    if len = 0 then []
    else
      let n := min len (m - a % m)
      (a, n) :: splitReads m k (a + n) (len - n)

/-- Read a range of the cellar: in requests that cross no 4 KiB boundary and ask for no more than Max_Read_Request_Size (R234,
R285). -/
def cellarRead (f : Fn) (key : RdKey) (addr len : Nat) (s : State) : State :=
  (splitReads s.maxRead (len / s.maxRead + 2) addr len).foldl (fun t x => cellarTx f (.read key x.1 x.2) t) s

/-- The reads of a purpose have ended: those that still stood with the transmitter have left it. -/
def readsEnd (key : RdKey) (s : State) : State :=
  let mine := (s.host.reads.filter fun x => x.2 == key).map (·.1)
  { s with
    wired := (mine.filter fun i => !s.wired.contains i).reverse ++ s.wired
    host := { s.host with reads := s.host.reads.filter fun x => x.2 != key } }

/-- Errors whose TLP header goes into the Header Log: poisoned, Completer Abort, unexpected completion, malformed, ECRC,
Unsupported Request. -/
def aerHasHdr (b : Nat) : Bool := [12, 15, 16, 18, 19, 20].contains b

/-- Log an uncorrectable error in AER and Device Status; the first that is not masked gives First Error Pointer and Header Log,
whose bytes come from outside (R291, log entry 6). -/
def aerUnc (fn : Fn) (b : Nat) (s : State) : State :=
  let p := s.host.pf0
  let first := !p.aerUncMask.getLsbD b && ((s.fn fn).aerUnc &&& ~~~p.aerUncMask) == 0
  let hdr := s.free 64 ++ s.tickFree.free 64
  let s := if first && aerHasHdr b then s.tickFree.tickFree else s
  updFn fn (fun f => { f with
    aerUnc := setBit f.aerUnc b
    firstErr := if first then BitVec.ofNat 5 b else f.firstErr
    hdrLog := if first && aerHasHdr b then hdr else f.hdrLog
    devSta := f.devSta ||| (if p.aerSev.getLsbD b then 4 else 2) ||| (if b = 20 then 8 else 0) }) s

/-- Log a correctable error in AER and Device Status. -/
def aerCor (fn : Fn) (b : Nat) (s : State) : State :=
  updFn fn (fun f => { f with aerCor := setBit f.aerCor b, devSta := f.devSta ||| 1 }) s

/-- A non-posted request that the part turns away: Unsupported Request or Completer Abort, with its AER bit (Table 12.5, log
entry 6). -/
def refuseReq (fn : Fn) (c : Cpl) (s : State) : State :=
  match c with
  | .sc => s
  | .ur => (aerUnc fn 20 s).cpl .ur
  | .ca => (aerUnc fn 15 s).cpl .ca

/-- A posted request that the part turns away: its AER bit, and no completion (Table 12.5). -/
def refusePosted (fn : Fn) (c : Cpl) (s : State) : State :=
  match c with
  | .sc => s
  | .ur => aerUnc fn 20 s
  | .ca => aerUnc fn 15 s

-- vectors

/-- The entry of a vector. -/
def FnSt.ent (f : FnSt) (v : Nat) : MsixEnt := f.msix.getD v {}

/-- Nothing holds the vector's message back (R278). -/
def FnSt.open_ (f : FnSt) (v : Nat) : Bool := f.msixEn && !f.msixMask && !(f.ent v).masked && f.bme

/-- Send the message of a vector. -/
def sendMsix (f : Fn) (v : Nat) (s : State) : State :=
  s.send (.msix f v ((s.fn f).ent v).addr ((s.fn f).ent v).data)

/-- Raise vector v of a function (R278, R279). -/
def raise (f : Fn) (v : Nat) (s : State) : State :=
  if !(s.fn f).msixEn then s
  else if (s.fn f).open_ v then sendMsix f v s
  else updFn f (fun x => { x with pba := x.pba ||| BitVec.ofNat 64 (2 ^ v) }) s

/-- Raise several vectors of PF0. -/
def raiseAll : List Nat → State → State
  | [], s => s
  | v :: r, s => raiseAll r (raise .pf0 v s)

/-- Send each pending message of a function whose hold has ended (R278). -/
def flushPba (f : Fn) : List Nat → State → State
  | [], s => s
  | v :: r, s =>
    if (s.fn f).pba.getLsbD v && (s.fn f).open_ v then
      flushPba f r (updFn f (fun x => { x with pba := x.pba &&& ~~~(BitVec.ofNat 64 (2 ^ v)) }) (sendMsix f v s))
    else flushPba f r s

/-- Send the requests that waited for Bus Master Enable, oldest first (R276). -/
def flushHeld (f : Fn) (s : State) : State :=
  if (s.fn f).bme then
    (s.fn f).held.foldl (fun t w => handOver f w t) (updFn f (fun x => { x with held := [] }) s)
  else s

-- glass records

/-- OBS_EVT: set bits and raise vector 6 (R492). -/
def obsEvent (bits : Word) (s : State) : State :=
  raise .pf0 6 { s with obs := { s.obs with evt := s.obs.evt ||| bits } }

/-- The COL byte of a record: colony with its valid bit (Table 22.2). -/
def colByte : Option Nat → Byte
  | none => 0
  | some c => BitVec.ofNat 8 (0x80 + c % 64)

/-- Bytes 0 to 31 of a glass record without its LOSS bit (R480); `tail` gives bytes 16 to 31. -/
def glassBytes (s : State) (kind : Nat) (hive : Option HiveId) (col : Option Nat) (code : Nat) (tag : BitVec 16)
    (tail : List Byte) : List Byte :=
  leBytes 4 s.tb.sec.toNat ++ leBytes 4 s.tb.sub ++
  [BitVec.ofNat 8 kind, (hive.map fun h => BitVec.ofNat 8 h.val).getD 0xFF, colByte col, BitVec.ofNat 8 code] ++
  leBytes 2 tag.toNat ++ [0, 0] ++ (tail ++ List.replicate 16 0).take 16

/-- Put a record into the on-die buffer, or drop it when the buffer holds 512 (R486). -/
def glassPut (bs : List Byte) (s : State) : State :=
  if s.obs.buf.length < 512 then { s with obs := { s.obs with buf := s.obs.buf ++ [bs] } }
  else obsEvent 2 { s with obs := { s.obs with drop := if s.obs.drop = 0xFFFFFFFF then s.obs.drop else s.obs.drop + 1, loss := true } }

/-- The kind is enabled (R482). -/
def State.glassOn (s : State) (kind : Nat) : Bool := s.obs.en && s.obs.kindEn.getLsbD (kind - 1)

/-- A colony is traced (R482). -/
def State.colTraced (s : State) (c : ColId) : Bool := s.obs.cmask.getLsbD c.val

/-- The colony is sealed. -/
def State.isSealed (s : State) (c : ColId) : Bool := s.guard.seals.getLsbD c.val

/-- A STEP, STOP or RESUME record of a hive's work (R482, R483). -/
def glassHive (kind : Nat) (h : HiveId) (slot code : Nat) (tail : List Byte) (s : State) : State :=
  match s.job? slot with
  | none => s
  | some j =>
    if s.glassOn kind && s.obs.hmask.getLsbD h.val && s.colTraced j.col && !(s.isSealed j.col && j.part.val != 0x40) then
      glassPut (glassBytes s kind (some h) (some j.col.val) code j.tag tail) s
    else s

/-- A DISPATCH or COMPLETE record of a colony's job (R482). -/
def glassJob (kind : Nat) (c : ColId) (tag : BitVec 16) (code : Nat) (tail : List Byte) (s : State) : State :=
  if s.glassOn kind && s.colTraced c then glassPut (glassBytes s kind none (some c.val) code tag tail) s else s

-- counters (R476)

/-- Add to a hive counter. -/
def cntHive (h : HiveId) (ctr n : Nat) (s : State) : State :=
  let k := h.val * 16 + ctr
  { s with obs := { s.obs with live := { s.obs.live with hive := tabSet 0 s.obs.live.hive k (tabGet 0 s.obs.live.hive k + BitVec.ofNat 64 n) } } }

/-- Add to a colony counter. -/
def cntCol (c : ColId) (ctr n : Nat) (s : State) : State :=
  let k := c.val * 16 + ctr
  { s with obs := { s.obs with live := { s.obs.live with col := tabSet 0 s.obs.live.col k (tabGet 0 s.obs.live.col k + BitVec.ofNat 64 n) } } }

/-- Add to a bank counter. -/
def cntBank (b : BankId) (ctr n : Nat) (s : State) : State :=
  let k := b.val * 16 + ctr
  { s with obs := { s.obs with live := { s.obs.live with bank := tabSet 0 s.obs.live.bank k (tabGet 0 s.obs.live.bank k + BitVec.ofNat 64 n) } } }

/-- A saturating count of n bits. -/
def satInc {n : Nat} (v : BitVec n) : BitVec n := if v = BitVec.allOnes n then v else v + 1

end Sys2Proof.Machine
end

