-- ==== Sys2Proof/Machine/Flags.lean ====
section
/-! DEFINITION. Machine/Flags.lean: event registers, their vectors and glass records (Table 22.4, R16), the alarm causes
(R507), the SMBus status and its alert latch (R510), PF0's vector summary (R279). -/

namespace Sys2Proof.Machine

/-- An event register of Table 22.4. -/
inductive EvSrc
  | wax
  | ovs (r : RowId)
  | phx (b : BankId)
  | rpr
  | pwr
  | tb
  | exo (p : PortId)
  | swarm
  | grd
  | seal
  | hive (h : HiveId)
  | sup
  deriving DecidableEq, Repr

/-- CODE of Table 22.4. -/
def EvSrc.code : EvSrc → Nat
  | .wax => 1 | .ovs _ => 2 | .phx _ => 3 | .rpr => 4 | .pwr => 5 | .tb => 6 | .exo _ => 7 | .swarm => 8 | .grd => 9
  | .seal => 10 | .hive _ => 11 | .sup => 12

/-- The unit that byte 16 of an EVENT record names. -/
def EvSrc.unit : EvSrc → Nat
  | .ovs r => r.val | .phx b => b.val | .exo p => p.val | .hive h => h.val | _ => 0

/-- The logical hive that an event concerns: byte 9 of its record (Table 22.2). -/
def EvSrc.hive? : EvSrc → Option HiveId
  | .hive h => some h
  | _ => none

/-- The event register. -/
def evGet (s : State) : EvSrc → Word
  | .wax => s.wax.evt
  | .ovs r => (s.ovs.row[r]).evt
  | .phx b => (s.phx.bank[b]).evt
  | .rpr => s.rpr.evt
  | .pwr => s.pwr.evt
  | .tb => s.tb.evt
  | .exo p => (s.ports[p]).evt
  | .swarm => s.swarm.evt
  | .grd => s.guard.en.evt
  | .seal => s.guard.sealEvt
  | .hive h => (s.hives[h]).evt
  | .sup => s.sup.evt

/-- Change the event register. -/
def evSet (e : EvSrc) (v : Word) (s : State) : State :=
  match e with
  | .wax => { s with wax := { s.wax with evt := v } }
  | .ovs r => updRow r (fun x => { x with evt := v }) s
  | .phx b => updBank b (fun x => { x with evt := v }) s
  | .rpr => { s with rpr := { s.rpr with evt := v } }
  | .pwr => { s with pwr := { s.pwr with evt := v } }
  | .tb => { s with tb := { s.tb with evt := v } }
  | .exo p => updPort p (fun x => { x with evt := v }) s
  | .swarm => { s with swarm := { s.swarm with evt := v } }
  | .grd => { s with guard := { s.guard with en := { s.guard.en with evt := v } } }
  | .seal => { s with guard := { s.guard with sealEvt := v } }
  | .hive h => updHive h (fun x => { x with evt := v }) s
  | .sup => { s with sup := { s.sup with evt := v } }

/-- Some bit of a mask is set. -/
def anyBit (w m : Word) : Bool := (w &&& m) != 0

/-- The PF0 vectors that bits of an event register raise (R90, R113 to R119, R134, R177, R236, R323, R366, R391, R393,
R403, R429, R448, R450). -/
def evVecs (s : State) (e : EvSrc) (w : Word) : List Nat :=
  match e with
  | .wax => [1]
  | .ovs _ => if anyBit w 1 && s.ovs.stormIe then [3] else []
  | .phx _ => if anyBit w 0x23 then [4] else []
  | .rpr => [4]
  | .pwr => (if anyBit w 0x18 then [0] else []) ++ (if anyBit w 0x27 then [3] else [])
  | .tb => [5]
  | .exo _ => (if anyBit w 0x30 then [4] else []) ++ (if anyBit w 0x4F then [2] else [])
  | .swarm => [2]
  | .grd => if anyBit w 0x19 then [0] else []
  | .seal => if anyBit w 6 then [0] else []
  | .hive _ => if anyBit w 4 then [4] else []
  | .sup => if anyBit w 1 then [0] else []

/-- The glass record of bits newly set (R480). -/
def glassEvent (e : EvSrc) (newly : Word) (s : State) : State :=
  if s.glassOn 6 && newly != 0 then
    glassPut (glassBytes s 6 e.hive? none e.code 0 ([BitVec.ofNat 8 e.unit, 0, 0, 0] ++ leBytes 4 newly.toNat)) s
  else s

/-- An event sets bits of its register, is traced, and raises its vectors. -/
def postEvent (e : EvSrc) (w : Word) (s : State) : State :=
  raiseAll (evVecs s e w) (glassEvent e (w &&& ~~~(evGet s e)) (evSet e (evGet s e ||| w) s))

/-- A colony error: a bit of COL_ERR and VF vector 2 (Table 0.8). -/
def colErr (c : ColId) (b : Nat) (s : State) : State :=
  raise (.vf c) 2 (updVf c (fun r => { r with err := setBit r.err b }) s)

-- alarm and SMBus status

/-- CAP_ALARM.CAUSE (Table 23.10). -/
def State.alarm (s : State) : BitVec 6 :=
  BitVec.ofNat 6 (b2n s.guard.en.dead + 2 * b2n (s.pwr.st == .stopping || s.pwr.st == .standby) +
    4 * b2n (s.pwr.st == .ride) + 8 * b2n s.ovs.hot + 16 * b2n s.phx.tempHold + 32 * b2n (s.boot.thermtrip || s.boot.tripPend))

/-- ALARM_N is asserted (R507). -/
def State.alarmN (s : State) : Bool := s.alarm != 0

/-- READY (R459). -/
def State.isReady (s : State) : Bool := s.boot.stage == 6

/-- Bits [6:0] of the SMBus STATUS word (Table 23.11). -/
def State.status (s : State) : BitVec 7 := BitVec.ofNat 7 (s.alarm.toNat + 64 * b2n s.pwr.srcB)

/-- Latch the SMBus alert when a bit of STATUS has changed from 0 to 1 (R510). -/
def latchAlert (s : State) : State :=
  { s with bmc := { s.bmc with alert := s.bmc.alert || (s.status &&& ~~~s.bmc.status) != 0, status := s.status } }

/-- IRQ_SUM.VEC: a bit per vector with an event bit that raises it (spec/12). -/
def State.irqSum (s : State) : BitVec 7 :=
  let srcs : List EvSrc := [.wax, .rpr, .pwr, .tb, .swarm, .grd, .seal, .sup] ++
    (List.finRange 8).map EvSrc.ovs ++ (List.finRange 8).map EvSrc.phx ++ (List.finRange 4).map EvSrc.exo ++
    allHives.map EvSrc.hive
  let vs := srcs.flatMap (fun e => if evGet s e = 0 then [] else evVecs s e (evGet s e)) ++
    (if s.obs.evt = 0 then [] else [6]) ++ (if s.guard.updateLost || s.guard.genFail then [0] else [])
  BitVec.ofNat 7 (((List.range 7).filter fun v => vs.contains v).foldl (fun a v => a + 2 ^ v) 0)

end Sys2Proof.Machine
end

