-- ==== Sys2Proof/Machine/Link.lean ====
section
/-! DEFINITION. Machine/Link.lean: routes of the swarm map in force and their healing (Table 14.1, R329), swarm messages as
flits (R299, R306, R307, Tables 13.2 to 13.6, 14.2), and how a port sends (R300, R304, R306, R308). -/

namespace Sys2Proof.Machine

-- routes

/-- Stations of the map as it was made: N of Table 14.1. -/
def SwarmSt.size (w : SwarmSt) : Nat := w.partners.length

/-- A station is in the map. -/
def SwarmSt.has (w : SwarmSt) (a : Nat) : Bool := w.members.getLsbD a

/-- k steps of `d` from a on a ring of n, the last included. -/
def ringSteps (n d : Nat) : Nat → Nat → List Nat
  | 0, _ => []
  | k + 1, a => ((a + d) % n) :: ringSteps n d k ((a + d) % n)

/-- Steps and step of the shorter way from a to b on a ring of n; ties go toward increasing positions. -/
def ringWay (n a b : Nat) : Nat × Nat :=
  let up := (b + n - a) % n
  if up ≤ n - up then (up, 1) else (n - up, n - 1)

/-- Every station of a path is in the map. -/
def SwarmSt.pathOk (w : SwarmSt) (p : List Nat) : Bool := p.all w.has

/-- A path when it can be used. -/
def SwarmSt.usable (w : SwarmSt) (p : List Nat) : Option (List Nat) := if w.pathOk p then some p else none

/-- The route on a chain. -/
def chainPath (a b : Nat) : List Nat :=
  if a ≤ b then (List.range (b - a)).map (a + 1 + ·) else (List.range (a - b)).map (a - 1 - ·)

/-- Columns and rows of the torus. -/
def SwarmSt.dims (w : SwarmSt) : Nat × Nat := (w.dimX.toNat + 1, w.dimY.toNat + 1)

/-- X hops of row y from column a to column b. -/
def torusX (x y a b : Nat) : List Nat := (ringSteps x (ringWay x a b).2 (ringWay x a b).1 a).map (y * x + ·)

/-- Y hops of column c from row a to row b. -/
def torusY (x y c a b : Nat) : List Nat := (ringSteps y (ringWay y a b).2 (ringWay y a b).1 a).map (· * x + c)

/-- The hops of one dimension from station a. The hop into a station that is not in the map is replaced by one step in the other
dimension, the hops that remain, and one step back (Table 14.1); `side` is the step in the other dimension. -/
def SwarmSt.detour (w : SwarmSt) (side : Nat → Nat) (a : Nat) (hops : List Nat) : List Nat :=
  let clean := hops.takeWhile w.has
  match hops.drop clean.length with
  | [] => hops
  | f :: r => clean ++ side (clean.getLast?.getD a) :: ((f :: r).map side ++ [(f :: r).getLast?.getD f])

/-- The route on a torus: the X hops, then the Y hops, each healed by a detour (Table 14.1). -/
def SwarmSt.torusPath (w : SwarmSt) (a b : Nat) : Option (List Nat) :=
  let (x, y) := w.dims
  let up := fun i => (i / x + 1) % y * x + i % x
  let right := fun i => i / x * x + (i % x + 1) % x
  w.usable (w.detour up a (torusX x (a / x) (a % x) (b % x)) ++
    w.detour right (a / x * x + b % x) (torusY x y (b % x) (a / x) (b / x)))

/-- The route from a to b in the map in force: the stations after a, the last is b. -/
def SwarmSt.route (w : SwarmSt) (a b : Nat) : Option (List Nat) :=
  if a = b then some []
  else match w.topo.toNat with
  | 0 => w.usable (chainPath a b)
  | 1 =>
    let n := w.size
    let (k, d) := ringWay n a b
    match w.usable (ringSteps n d k a) with
    | some p => some p
    | none => w.usable (ringSteps n (n - d) (n - k) a)
  | 2 => w.torusPath a b
  | _ => none

/-- The route from src to dst, cut at station `at_`: the stations up to it, and those after it. A station that the route does
not pass, since the map has changed, takes the route of its own (R329). -/
def SwarmSt.wayFrom (w : SwarmSt) (src at_ dst : Nat) : List Nat × List Nat :=
  let path := src :: (w.route src dst).getD []
  let after := (path.reverse.takeWhile (· != at_)).reverse
  if (w.route src dst).isSome && path.contains at_ then (path.take (path.length - after.length), after)
  else ([at_], (w.route at_ dst).getD [])

/-- Stations of a mask, ascending. -/
def maskStns (m : DWord) : List Nat := (List.range 64).filter m.getLsbD

/-- The mask of stations. -/
def stnsMask (l : List Nat) : DWord := BitVec.ofNat 64 (((List.range 64).filter l.contains).foldl (fun a i => a + 2 ^ i) 0)

-- stations and jobs

/-- This station's address, 0 while it has none. -/
def State.stn (s : State) : StnId := s.swarm.addr.getD 0

/-- The home station of a job. -/
def State.homeOf (s : State) (j : Job) : StnId :=
  match j.kind with
  | .swarm h _ => ⟨h.toNat, h.isLt⟩
  | _ => s.stn

/-- Stations of the span of a job other than this one (R332). -/
def State.others (s : State) (j : Job) : List StnId :=
  (List.finRange 64).filter fun a => j.span.getLsbD a.val && a != s.stn

/-- The job spans another station. -/
def State.isSwarmJob (s : State) (j : Job) : Bool := !j.isHome || !(s.others j).isEmpty

-- virtual channels (Table 14.1)

/-- Two neighbours on a ring of n are joined by its wrap link; on a ring of 2 no link wraps. -/
def wraps (n a b : Nat) : Bool := decide (2 < n) && ((a == 0 && b + 1 == n) || (b == 0 && a + 1 == n))

/-- Consecutive stations of a path. -/
def hopsOf : List Nat → List (Nat × Nat)
  | a :: b :: r => (a, b) :: hopsOf (b :: r)
  | _ => []

/-- The virtual channel of the hop from `at_` to `next` of a message from `src`: VC1 after the wrap link of the ring, or of the
dimension of the hop, has been crossed. -/
def SwarmSt.vcOf (w : SwarmSt) (src at_ next dst : Nat) : Nat :=
  let past := hopsOf (w.wayFrom src at_ dst).1
  match w.topo.toNat with
  | 1 => b2n (past.any fun h => wraps w.size h.1 h.2)
  | 2 =>
    let (x, y) := w.dims
    if at_ / x = next / x then b2n (past.any fun h => h.1 / x == h.2 / x && wraps x (h.1 % x) (h.2 % x))
    else b2n (past.any fun h => h.1 / x != h.2 / x && wraps y (h.1 / x) (h.2 / x))
  | _ => 0

/-- The port of a station that the map joins to another; the lowest of several. -/
def SwarmSt.portTo (w : SwarmSt) (a b : Nat) : Option PortId :=
  match w.partners.find? fun x => x.1.val == a with
  | none => none
  | some (_, ps) => (List.finRange 4).find? fun p => match ps.getD p.val none with | some (n, _) => n.val == b | none => false

-- messages as flits

/-- Class of a message (KIND of Table 13.3) and OP (Table 14.2). -/
def swCode : SwMsg → Nat × Nat
  | .dispatch .. => (4, 1) | .accept => (4, 2) | .reject .. => (4, 3) | .stop .. => (4, 4) | .done => (4, 5)
  | .timeout .. => (4, 6) | .rollback .. => (4, 7) | .ckptDone .. => (4, 8)
  | .arrive .. => (5, 1) | .release .. => (5, 2) | .tick .. => (5, 3)
  | .add .. => (3, 1)
  | .move .. => (2, 1) | .ckptData .. => (2, 2) | .ckptLoad .. => (2, 3)
  | .token .. => (6, 1) | .tokenRet .. => (6, 2) | .links .. => (6, 3) | .map .. => (6, 4) | .stnFail .. => (6, 5)
  | .leave => (6, 6) | .drain => (6, 7) | .drained => (6, 8)

/-- A partner as a number. -/
def partnerNum : Partner → Nat
  | none => 0
  | some (a, p) => 1 + a.val * 4 + p.val

/-- What a message names (Table 14.2). -/
def swArgs : SwMsg → List Nat
  | .dispatch d => [d.col.val, d.cls, b2n d.replayable, b2n d.checkpoint, d.waxVer.toNat, d.key.toNat, d.span.toNat, b2n d.spillOk,
    (d.hives.map fun x => x.1 + 256 * x.2 + 65536).getD 0]
  | .reject c d => [c, d.toNat]
  | .stop r => [r]
  | .timeout d p => [d, p]
  | .rollback k a b => [k, a.val, b.val]
  | .ckptDone k => [k]
  | .arrive b g | .release b g => [b.val, g.toNat]
  | .tick t d => [t.toNat, d]
  | .add h a vs => [h.val, a, vs.length]
  | .move h o _ => [h.val, o]
  | .ckptData k h o _ | .ckptLoad k h o _ => [k, h.val, o]
  | .token v r l | .tokenRet v r l => v :: b2n r :: l
  | .links ps => ps.map partnerNum
  | .map m => m.gen.toNat :: m.members.toNat :: m.partners.flatMap fun x => x.1.val :: x.2.map partnerNum
  | .stnFail a b => [a.val, b.val]
  | _ => []

/-- Bytes of a flit's payload: 13. -/
def pad13 (bs : List Byte) : List Byte := (bs ++ List.replicate 13 0).take 13

/-- The payloads of the flits after the first: chain counts four to a flit (R336), data 13 bytes to a flit (R307), and what
the arguments take beyond the first flit (log entry 62). -/
def swBody (m : SwMsg) : List (List Byte) :=
  match m with
  | .add _ _ vs => (chunksOf 4 vs.length vs).map fun c => pad13 (c.flatMap (leBytes 3))
  | .move _ _ d | .ckptData _ _ _ d | .ckptLoad _ _ _ d => (chunksOf 13 d.length d).map pad13
  | m => (chunksOf 13 15 ((Config.argBytes (swCode m).1 (swCode m).2 (swArgs m)).drop 6)).map pad13

/-- A response is required: DISPATCH (R310, R333). -/
def swRsp : SwMsg → Bool
  | .dispatch .. => true
  | _ => false

/-- The payload of the first flit (Table 13.6). -/
def msgHead (dst src home : StnId) (vc : Nat) (tag : BitVec 16) (n : Nat) (m : SwMsg) : List Byte :=
  pad13 ([BitVec.ofNat 8 (dst.val + 64 * vc + 128 * b2n (swRsp m)), BitVec.ofNat 8 src.val, BitVec.ofNat 8 (n - 1), BitVec.ofNat 8 home.val] ++
    leBytes 2 tag.toNat ++ [BitVec.ofNat 8 (swCode m).2] ++ (Config.argBytes (swCode m).1 (swCode m).2 (swArgs m)).take 6)

/-- A message as a port queues it. -/
def outMsg (dst src home : StnId) (vc : Nat) (tag : BitVec 16) (m : SwMsg) : OutMsg :=
  let b := swBody m
  let h := msgHead dst src home vc tag (b.length + 1) m
  { kind := (swCode m).1, vc := vc, flits := h :: b, head := h }

-- sending (R300, R304, R306, R308)

/-- The port behaves as ACTIVE (R315). -/
def Port.live (x : Port) : Bool := x.st == .active || x.st == .loop

/-- Index of a class and VC among the ten credit counts (Table 13.4). -/
def creditIdx (kind vc : Nat) : Nat := 2 * (kind - 2) + vc

/-- The next flit of a message may be sent: it is here, the port is live, admitted unless MGMT (R314), the retry buffer is not
full (R304), and for a first flit the port holds credits for all the flits of the message (R306). -/
def Port.canSend (x : Port) (m : OutMsg) : Bool :=
  x.live && (m.kind == 6 || x.admitted) && !m.flits.isEmpty && decide (x.retry.length < 256) &&
  (m.started || decide (m.flits.length + m.more ≤ x.credits.getD (creditIdx m.kind m.vc) 0))

/-- The oldest message of a class and VC. -/
def Port.head? (x : Port) (kind vc : Nat) : Option OutMsg := x.outq.find? fun m => m.kind == kind && m.vc == vc

/-- The message of a class whose flit goes next: the one under way, since the flits of a message are contiguous within their
class (R308), else the oldest of a VC. -/
def Port.ready (x : Port) (kind : Nat) : Option OutMsg :=
  match x.outq.find? fun m => m.kind == kind && m.started with
  | some m => if x.canSend m then some m else none
  | none => [0, 1].findSome? fun v => (x.head? kind v).bind fun m => if x.canSend m then some m else none

/-- Classes by the priority of Table 13.5: one slot in 64 is held for MGMT while it waits. -/
def Port.order (x : Port) : List Nat := if 63 ≤ x.mgmtWait then [6, 5, 4, 3, 2] else [5, 4, 3, 2, 6]

/-- The message whose flit a port sends next. -/
def Port.next? (x : Port) : Option OutMsg := x.order.findSome? x.ready

/-- The 16 bytes of a flit (R299, Tables 13.2, 13.3). -/
def flitBytes (kind : Nat) (som eom : Bool) (seq : Nat) (payload : List Byte) : List Byte :=
  let b := BitVec.ofNat 8 (kind % 8 + 8 * b2n som + 16 * b2n eom + 32 * (seq % 8)) :: pad13 payload
  b ++ leBytes 2 (crc16 0xFFFF b).toNat

/-- Flit slots of a cycle: two, or slot 0 alone at half width (R296). -/
def Port.width (x : Port) : Nat := if x.half then 1 else 2

/-- A flit leaves in the port's next slot, which gives its slot stream and cycle (R296); with LOOP = 1 it goes to the port's own
receiver (R315). -/
def emitOne (p : PortId) (bs : List Byte) (s : State) : State :=
  let x := s.ports[p]
  let s := updPort p (fun x => { x with slotN := x.slotN + 1 }) s
  if x.loopOn then updPort p (fun x => { x with loopIn := x.loopIn ++ [bs] }) s
  else s.send (.flit p bs (x.slotN % x.width) (x.slotN / x.width))

/-- An IDLE flit (R299). -/
def idleFlit : List Byte := flitBytes 0 false false 0 []

/-- The slots of each 1,024th cycle carry IDLE flits (R297). -/
def emitIdles (p : PortId) : Nat → State → State
  | 0, s => s
  | n + 1, s =>
    let x := s.ports[p]
    if x.slotN / x.width % 1024 = 1023 then emitIdles p n (emitOne p idleFlit s) else s

/-- Send one flit, after the IDLE flits that are due. -/
def emit (p : PortId) (bs : List Byte) (s : State) : State := emitOne p bs (emitIdles p 2 s)

/-- Send one sequenced flit: it is numbered and held in the retry buffer (R300, R304). -/
def sendFlit (p : PortId) (kind : Nat) (som eom : Bool) (payload : List Byte) (s : State) : State :=
  let n := (s.ports[p]).txNext
  let bs := flitBytes kind som eom n payload
  emit p bs (updPort p (fun x => { x with
    txNext := (n + 1) % 1024, txfCnt := x.txfCnt + 1, retry := x.retry ++ [{ num := n, bytes := bs }] }) s)

/-- n flits of a class have left a port's receive buffer: their credits are to be returned (R306). -/
def oweCredits (i n : Nat) (x : Port) : Port := { x with owed := x.owed.set i (x.owed.getD i 0 + n), ackDue := true }

/-- n flits of a message that is passed on have left the buffer of the port that they came in on. -/
def leaveBuffer (m : OutMsg) (n : Nat) (s : State) : State :=
  match m.from_ with
  | none => s
  | some (q, i) => if h : q < 4 then updPort ⟨q, h⟩ (oweCredits i n) s else s

/-- What a port's queue holds of a message after its next flit. -/
def OutMsg.rest (m : OutMsg) : Option OutMsg :=
  if m.flits.length ≤ 1 && m.more == 0 then none else some { m with flits := m.flits.drop 1, started := true }

/-- How long MGMT has waited after a flit of a class. -/
def Port.mgmtAfter (x : Port) (kind : Nat) : Nat := if kind != 6 && (x.ready 6).isSome then x.mgmtWait + 1 else 0

/-- Send the next flit of a message: it consumes a credit (R306). -/
def sendOut (p : PortId) (m : OutMsg) (s : State) : State :=
  let i := creditIdx m.kind m.vc
  let upd := fun (x : Port) => { x with
    outq := (match m.rest with | none => x.outq.erase m | some r => x.outq.replace m r)
    credits := x.credits.set i (x.credits.getD i 0 - 1), mgmtWait := x.mgmtAfter m.kind }
  leaveBuffer m 1 (sendFlit p m.kind (!m.started) m.rest.isNone (m.flits.headD []) (updPort p upd s))

/-- Send every flit that a port can send, at most n. -/
def pumpN (p : PortId) : Nat → State → State
  | 0, s => s
  | n + 1, s =>
    match (s.ports[p]).next? with
    | none => s
    | some m => pumpN p n (sendOut p m s)

/-- Send every flit that a port can send. -/
def pump (p : PortId) (s : State) : State := pumpN p ((s.ports[p]).outq.map (·.flits.length)).sum s

/-- Messages leave a port's queue unsent, and the buffer of the port that they came in on. -/
def cutOut (p : PortId) (f : OutMsg → Bool) (s : State) : State :=
  ((s.ports[p]).outq.filter f).foldl (fun t m => leaveBuffer m m.flits.length t)
    (updPort p (fun x => { x with outq := x.outq.filter fun m => !f m }) s)

/-- Messages leave the queues of all ports unsent. -/
def cutAll (f : OutMsg → Bool) (s : State) : State := (List.finRange 4).foldl (fun t p => cutOut p f t) s

/-- Give a message to a port. -/
def enq (p : PortId) (m : OutMsg) (s : State) : State := pump p (updPort p (fun x => { x with outq := x.outq ++ [m] }) s)

/-- The first payload of a message names a job by its home station and tag. -/
def namesJob (home : Nat) (tag : BitVec 16) (b : List Byte) : Bool := u8 b 3 % 64 == home && uN b 4 2 == tag.toNat

/-- Send a message to a station on the route of the map; one that no route reaches is discarded (R309, R329). -/
def sendMsg (dst home : StnId) (tag : BitVec 16) (m : SwMsg) (s : State) : State :=
  match s.swarm.route s.stn.val dst.val with
  | some (n :: _) =>
    match s.swarm.portTo s.stn.val n with
    | none => s
    | some p =>
      enq p (outMsg dst s.stn home (s.swarm.vcOf s.stn.val s.stn.val n dst.val) tag m) (s.send (.swarm dst home tag m))
  | _ => s

/-- Send a message of a job to a station. -/
def sendSw (dst : StnId) (j : Job) (m : SwMsg) (s : State) : State := sendMsg dst (s.homeOf j) j.tag m s

/-- Send a message of a job to several stations. -/
def sendSwAll (j : Job) (m : SwMsg) : List StnId → State → State
  | [], s => s
  | a :: r, s => sendSwAll j m r (sendSw a j m s)

/-- Send a message that names no job to several stations. -/
def sendMgmt (m : SwMsg) : List StnId → State → State
  | [], s => s
  | a :: r, s => sendMgmt m r (sendMsg a s.stn 0 m s)

/-- A message of a walk: it goes out on a port, to the station at its other end (R327). -/
def sendWalk (p : PortId) (src : StnId) (m : SwMsg) (s : State) : State :=
  enq p (outMsg 0 src 0 0 0 m) (s.send (.walk p src m))

/-- Every other station of the map. -/
def State.peers (s : State) : List StnId := (List.finRange 64).filter fun a => s.swarm.has a.val && a != s.stn

/-- Stations to which this one passes on a TICK of the root: those whose route from the root comes last through it (R338). -/
def State.tickNext (s : State) : List StnId :=
  s.peers.filter fun a => a.val != 0 && match s.swarm.route 0 a.val with
    | none => false
    | some p => (0 :: p).getD (p.length - 1) 0 == s.stn.val

end Sys2Proof.Machine
end

