-- ==== Sys2Proof/Machine/PortLight.lean ====
section
/-! DEFINITION. Machine/PortLight.lean: wavelengths of a port, the words that a flit leaves as on them, and received light (R295,
R296, R312, R317; log entry 80). -/

namespace Sys2Proof.Machine

/-- Good wavelengths of a set, in increasing order. -/
def goodOnes (m : BitVec 9) : List Nat := (List.range 9).filter m.getLsbD

/-- The physical wavelength of a logical one: the sets in use are taken in increasing order (R295). -/
def physical (use : BitVec 9) (k : Nat) : Option Nat := (goodOnes use)[k]?

/-- The PRBS31 register one bit on, x³¹ + x²⁸ + 1: the bit that leaves enters at the low end. -/
def prbsStep (r : BitVec 31) : BitVec 31 := (r <<< 1) ||| BitVec.ofNat 31 (b2n (r.getLsbD 30 ^^ r.getLsbD 27))

/-- The register n bits on. -/
def prbsAfter : Nat → BitVec 31 → BitVec 31
  | 0, r => r
  | n + 1, r => prbsAfter n (prbsStep r)

/-- n bits of the sequence from a register, as a number whose bit 0 is the first. -/
def prbsBits : Nat → BitVec 31 → Nat
  | 0, _ => 0
  | n + 1, r => b2n (r.getLsbD 30 ^^ r.getLsbD 27) + 2 * prbsBits n (prbsStep r)

/-- What scrambles the word of a cycle on a physical wavelength: 32 bits of the sequence from the seed agreed in training. -/
def Port.scramble (x : Port) (p : PortId) (k cycle : Nat) : Word :=
  BitVec.ofNat 32 (prbsBits 32 (prbsAfter (32 * cycle) (Config.scramblerSeed p.val k x.seedAt)))

/-- Bits [32w + 31:32w] of a flit. -/
def slotWord (bs : List Byte) (w : Nat) : Word := BitVec.ofNat 32 (uN bs (4 * w) 4)

/-- A flit as light: the physical wavelengths that a slot uses, each with its scrambled word (R296). -/
def Port.lightOf (x : Port) (p : PortId) (slot cycle : Nat) (bs : List Byte) : List (Nat × Word) :=
  (List.range 4).filterMap fun w => (physical x.txUse (4 * slot + w)).map fun k => (k, slotWord bs w ^^^ x.scramble p k cycle)

/-- The light of what a port sends; other sends have none. -/
def State.lightSent (s : State) : Tx → List (Nat × Word)
  | .flit p bs slot cycle => (s.ports[p]).lightOf p slot cycle bs
  | _ => []

/-- A fibre's received power, signed Q8.8 dBm, is light: at or above −14 dBm, not below −18 dBm, and between them as before
(R317). -/
def lightAt (was : Bool) (pwr : BitVec 16) : Bool :=
  if -14 * 256 ≤ pwr.toInt then true else if pwr.toInt < -18 * 256 then false else was

end Sys2Proof.Machine
end

