-- ==== Sys2Proof/Machine/Walk.lean ====
section
/-! DEFINITION. Machine/Walk.lean: the enumeration walk, draining and leaving (R326 to R328, R330, R331). -/

namespace Sys2Proof.Machine

/-- SW events. -/
def swEvent (w : Word) (s : State) : State := postEvent .swarm w s

/-- This station is the root (R326). -/
def State.isRoot (s : State) : Bool := !s.boot.straps.rootN

/-- Change the swarm state. -/
def updSw (f : SwarmSt → SwarmSt) (s : State) : State := { s with swarm := f s.swarm }

/-- Ports in visiting order after an arrival port (R327). -/
def visitOrder (p : PortId) : List PortId := [p + 1, p + 2, p + 3]

/-- The partners of this station's ports (R314, R328). -/
def State.myPartners (s : State) : List Partner :=
  s.ports.toList.map fun x =>
    if x.st == .active && x.partnerV && !x.self then some (⟨x.partner.toNat, x.partner.isLt⟩, ⟨x.pport.toNat, x.pport.isLt⟩) else none

-- the checks of the root (R328, Table 14.1)

/-- Stations that a list of partners names. -/
def partnerStns (ps : List Partner) : List Nat := ps.filterMap fun p => p.map fun x => x.1.val

/-- The stations that station a of n is joined to under a topology. -/
def SwarmSt.wanted (w : SwarmSt) (n a : Nat) : List Nat :=
  match w.topo.toNat with
  | 0 => (if a = 0 then [] else [a - 1]) ++ (if a + 1 < n then [a + 1] else [])
  | 1 => [(a + 1) % n, (a + n - 1) % n]
  | _ =>
    let (x, y) := w.dims
    let (ax, ay) := (a % x, a / x)
    [ay * x + (ax + 1) % x, ay * x + (ax + x - 1) % x, (ay + 1) % y * x + ax, (ay + y - 1) % y * x + ax]

/-- The dimensions of a torus are in their range, with one station for each place. -/
def SwarmSt.dimsOk (w : SwarmSt) (n : Nat) : Bool :=
  w.topo != 2 || (decide (2 ≤ w.dims.1) && decide (2 ≤ w.dims.2) && w.dims.1 * w.dims.2 == n)

/-- The declared topology holds of the stations and their partners. -/
def SwarmSt.topoOk (w : SwarmSt) (ls : List (StnId × List Partner)) : Bool :=
  let n := ls.length
  w.dimsOk n && ls.all fun x =>
    let want := (w.wanted n x.1.val).filter (· != x.1.val)
    let got := partnerStns x.2
    decide (x.1.val < n) && want.all got.contains && got.all want.contains

-- the walk

/-- A walk fails at the root (R328). -/
def walkFails (e : BitVec 4) (s : State) : State :=
  swEvent 2 (updSw (fun w => { w with
    walk := none, drain := false, drained := 0, err := e, st := if w.members != 0 then .member else .alone }) s)

/-- A swarm map comes into force on this station (R328): ports between members are admitted. -/
def mapInstall (m : SwarmMap) (s : State) : State :=
  let s := updSw (fun w => { w with
    members := m.members, partners := m.partners, mapGen := m.gen, st := .member, walk := none, drain := false, drainOwed := false
    drained := 0 }) s
  let admitted := fun (x : Port) =>
    if x.st == .active && x.partnerV && !x.self && m.members.getLsbD x.partner.toNat then { x with admitted := true } else x
  let s := { s with ports := s.ports.map admitted }
  swEvent 1 { s with lostJobs := [] }

/-- Send the map, to the nearest stations first, so that a station that passes it on holds it. -/
def sendMaps (m : SwarmMap) : List Nat → State → State
  | [], s => s
  | k :: r, s =>
    sendMaps m r (sendMgmt (.map m) (s.peers.filter fun a => ((s.swarm.route s.stn.val a.val).map List.length).getD 0 == k) s)

/-- Every LINKS message is in: the topology is checked, and the map is made (R328). -/
def walkEnds (w : Walk) (s : State) : State :=
  let ls := (s.stn, s.myPartners) :: w.links
  if !s.swarm.topoOk ls then walkFails 3 s
  else
    let mem := stnsMask (ls.map (·.1.val))
    let m : SwarmMap := { members := mem, partners := ls, gen := s.swarm.mapGen + 1 }
    sendMaps m (List.range 64) (mapInstall m (updSw (fun w => { w with err := 0 }) s))

/-- Every station of the walk has sent LINKS. -/
def Walk.linked (w : Walk) : Bool := w.list.all fun a => w.links.any fun x => x.1.val == a

/-- The token is back at the root (R327, R328): the stations found are checked, then LINKS are awaited. -/
def tokenHome (w : Walk) (s : State) : State :=
  if w.list.any fun a => decide (64 ≤ a) then walkFails 1 s
  else if w.twoRoot then walkFails 5 s
  else if (0 :: w.list).eraseDups.length ≠ w.list.length + 1 then walkFails 2 s
  else
    let w := { w with phase := .links, left := [] }
    let s := updSw (fun x => { x with walk := some w }) s
    if w.linked then walkEnds w s else s

/-- The station visits its next port that is ACTIVE and not SELF; with none left it returns the token (R327). -/
def visitNext (s : State) : State :=
  match s.swarm.walk with
  | none => s
  | some w =>
    match w.left.dropWhile fun p => (s.ports[p]).st != .active || (s.ports[p]).self with
    | p :: r =>
      sendWalk p s.stn (.token (w.value + 1) w.twoRoot w.list) (updSw (fun x => { x with walk := some { w with left := r, value := w.value + 1 } }) s)
    | [] =>
      if s.isRoot then tokenHome { w with left := [] } s
      else
        let s := updSw (fun x => { x with walk := some { w with phase := .links, left := [] } }) s
        sendWalk w.arrival s.stn (.links s.myPartners) (sendWalk w.arrival s.stn (.tokenRet w.value w.twoRoot w.list) s)

/-- The root starts the walk proper; its address is 0 and port 0 its arrival port (R326, R327). -/
def walkStart (s : State) : State :=
  visitNext (updSw (fun w => { w with
    addr := some 0, st := .walking, walk := some { phase := .token, arrival := 0, left := visitOrder 0 } }) s)

-- draining (R330, R331)

/-- A swarm job runs, or has been accepted, on this station. -/
def State.swarmBusy (s : State) : Bool := s.jobs.any fun j => s.isSwarmJob j && (!j.isHome || j.st != .queued)

/-- A draining station has no swarm job left: it leaves (R331). -/
def leaveNow (s : State) : State :=
  let t := sendMgmt .leave s.peers s
  let close := fun (x : Port) => { x with admitted := false }
  let t := { t with ports := t.ports.map close, lostJobs := [] }
  updSw (fun w => { w with
    st := .alone, members := 0, partners := [], addr := if s.boot.straps.stnMode then none else w.addr }) t

/-- A drain has come to its end: the walk begins at the root, DRAINED is answered, or the station leaves. -/
def drainStep (s : State) : State :=
  if s.swarmBusy then s
  else if s.swarm.st == .draining then leaveNow s
  else if s.swarm.drainOwed then sendMsg 0 s.stn 0 .drained (updSw (fun w => { w with drainOwed := false }) s)
  else match s.swarm.walk with
  | some w => if w.phase == .draining && s.isRoot && s.peers.all (fun a => s.swarm.drained.getLsbD a.val) then walkStart s else s
  | none => s

end Sys2Proof.Machine
end

