-- ==== Sys2Proof/Machine/Sched.lean ====
section
/-! DEFINITION. Machine/Sched.lean: job windows (R186, R219, R220), the order of programs on a hive (R253, R254, R418),
stops (R208), and how a job completes (R249 to R252, R260, R334). -/

namespace Sys2Proof.Machine

-- windows

/-- SUP_CS_QUOTA of a colony in bytes (R219). -/
def State.quota (s : State) (c : Nat) : Nat :=
  match colOf? c with
  | none => 0
  | some c => min (s.co c).csQuota.toNat 1536 * 1024

/-- X of R220 in KiB: the CS_KIB of partition 0x40. -/
def State.expressX (s : State) : Nat := ((s.wax.img.part? 0x40).map (·.csKib)).getD 0

/-- The window size Q of a partition (R219). -/
def State.winSize (s : State) (part : Nat) : Nat :=
  if part = 0x40 then min (s.expressX * 1024) (s.quota (s.wax.img.colonyOf 0x40)) else s.quota part

/-- The byte of the comb store at which a partition's window starts (R219, R220). -/
def State.winBase (s : State) (part : Nat) : Nat := if part = 0x40 then (1536 - s.expressX) * 1024 else 0

/-- Comb store byte of a window offset after the reduction of R186. -/
def State.winAddr (s : State) (part off : Nat) : Nat := s.winBase part + off % s.winSize part

/-- Read n window bytes of a hive. -/
def State.winRead (s : State) (part : Nat) (h : HiveId) (off n : Nat) : List Byte :=
  memReadWrap (s.hv h).cs (s.winBase part) (s.winSize part) off n

/-- Some word of a window range is uncorrectable (R235). -/
def State.winUe (s : State) (part : Nat) (h : HiveId) (off n : Nat) : Bool :=
  (s.hv h).csUe.any fun w => (List.range n).any fun i => s.winAddr part (off + i) / 8 == w

/-- The model loaded for a partition. -/
def State.model? (s : State) (part : Nat) : Option Model := s.models.find? fun m => m.part.val == part

/-- The program region of a hive in its partition's window: first byte and length (R214). -/
def State.progRegion (s : State) (part : Nat) (home : HiveId) : Option (Nat × Nat) :=
  match s.model? part with
  | none => none
  | some m => (m.dir.find? fun d => d.hive == home).map fun d => (d.csOff, 8 * d.nInstr)

/-- A window offset lies in the program region. -/
def inRegion (r : Option (Nat × Nat)) (off : Nat) : Bool :=
  match r with
  | none => false
  | some (a, n) => decide (a ≤ off) && decide (off < a + n)

/-- Note once per job that a write into a program region was discarded (R187). -/
def progWrErr (slot : Nat) (s : State) : State :=
  match s.job? slot with
  | none => s
  | some j => if j.progWr then s else colErr j.col 4 (updJob slot (fun j => { j with progWr := true }) s)

/-- Write bytes to a window of a hive: each reduced by R186, those of the program region discarded (R187); a byte
written clears the uncorrectable mark of its word (R235). -/
def winWriteGo (s : State) (part : Nat) (reg : Option (Nat × Nat)) : Hive → Nat → List Byte → Hive
  | hv, _, [] => hv
  | hv, off, b :: r =>
    if inRegion reg (off % s.winSize part) then winWriteGo s part reg hv (off + 1) r
    else
      let a := s.winAddr part off
      winWriteGo s part reg { hv with cs := memWrite hv.cs a b, csUe := hv.csUe.filter (fun w => w != a / 8) } (off + 1) r

/-- Write bytes to the window of a job on hive h, whose program region is that of the logical hive `home`. -/
def winWrite (slot part : Nat) (h home : HiveId) (off : Nat) (bs : List Byte) (s : State) : State :=
  let reg := s.progRegion part home
  let t := updHive h (fun hv => winWriteGo s part reg hv off bs) s
  if (List.range bs.length).any (fun i => inRegion reg ((off + i) % s.winSize part)) then progWrErr slot t else t

-- hive state

/-- The hive belongs to the express partition of the wax in force. -/
def State.isExpressHive (s : State) (h : HiveId) : Bool := s.wax.img.owner? h.val == some 0x40

/-- A gate of the hive is in force. -/
def Hive.gated (hv : Hive) : Bool := hv.clkOff || hv.pwrOff

/-- An inspection runs on the host of a logical hive. -/
def State.inspected (s : State) (h : HiveId) : Bool :=
  s.rpr.insp.any fun i => i.row == h.val / 12 && i.pcol == s.rpr.pcol.getD h.val 0

/-- The program is paused with its context and window on the hive. -/
def Prog.held (p : Prog) : Bool := p.ctx != .fresh && p.win.isNone && !p.sealed

/-- HIV_STAT.STATE (spec/04). -/
def State.hiveState (s : State) (h : HiveId) : Nat :=
  let hv := s.hv h
  if hv.barren then 4
  else if hv.gated then 3
  else if s.inspected h || hv.run.isSome then 1
  else if hv.wait.any Prog.held then 2
  else 0

/-- The hive is IDLE. -/
def State.idleHive (s : State) (h : HiveId) : Bool := s.hiveState h == 0

-- charge (R413)

/-- Hives in state RUN. -/
def State.runHives (s : State) : Nat := (allHives.filter fun h => s.hiveState h == 1).length

/-- The charge in force in tenths of a watt (Table 18.2). -/
def State.charge (s : State) : Nat :=
  (if s.pwr.stage == 6 then 120 else 480) +
  (if s.pwr.stage == 0 && (List.finRange 8).any (fun b => (s.phx.bank[b]).en) then 240 else 0) + 32 * s.runHives

/-- The backup budget in tenths of a watt (R414). -/
def State.budget (s : State) : Nat := s.pwr.bkup.toNat * 40

/-- A class of work is shed in the stage in force (Table 18.3). -/
def State.classShed (s : State) (cls : Nat) : Bool := decide (cls + 2 ≤ s.pwr.stage)

/-- The charge lets one more hive run (R418). -/
def State.chargeAdmits (s : State) : Bool := s.pwr.stage == 0 || decide (s.charge + 32 ≤ s.budget)

-- the order of programs on a hive

/-- Program a goes before program b (R253). -/
def Prog.before (a b : Prog) : Bool := decide (b.cls < a.cls) || (a.cls == b.cls && decide (a.order < b.order))

/-- The first of the programs that may run, in the order of R253. -/
def firstProg (ok : Prog → Bool) : List Prog → Option Prog
  | [] => none
  | p :: r =>
    match firstProg ok r with
    | none => if ok p then some p else none
    | some q => if ok p && !(q.before p) then some p else some q

/-- A waiting program may be chosen: its input is in place, nobody holds it, its class is not shed. -/
def State.mayRun (s : State) (p : Prog) : Bool :=
  !p.needInput && p.paused.isNone && !s.classShed p.cls && ((s.job? p.slot).map fun j => j.ending.isNone).getD false

/-- An express request runs. -/
def State.xpRuns (s : State) : Bool := s.jobs.any fun i => i.isExpress && (i.st == .running || i.st == .stopping)

/-- The hive can take a program: no gate is in force or waits for it (R92). -/
def State.freeHive (s : State) (h : HiveId) : Bool :=
  (s.hv h).run.isNone && !(s.hv h).gated && !(s.hv h).clkWait && !(s.hv h).pwrWait && !(s.hv h).barren && !s.inspected h &&
  !(s.rpr.retire.any fun r => r.moving.contains h)

/-- Remove a program from a waiting list. -/
def dropProg (l : List Prog) (slot : Nat) (home : HiveId) : List Prog :=
  l.filter fun p => !(p.slot == slot && p.home == home)

/-- Ask for a stop of what runs on a hive (R208). -/
def askStop (h : HiveId) (w : StopWhy) (s : State) : State :=
  if (s.hv h).run.isSome then updHive h (fun hv => { hv with stops := hv.stops ++ [w] }) s else s

/-- Abandon a periodic or PF0 inspection of a hive for which a program is ready (R443). -/
def abandonInsp (h : HiveId) (s : State) : State :=
  let hit := fun (i : Insp) => i.row == h.val / 12 && i.pcol == s.rpr.pcol.getD h.val 0 && (i.why == .periodic || i.why == .pf0)
  match s.rpr.insp.find? hit with
  | none => s
  | some i => { s with rpr := { s.rpr with
      insp := s.rpr.insp.filter (fun x => !hit x), inspRes := 3, inspResTarget := BitVec.ofNat 7 i.target, inspCause := 0,
      inspGo := if i.why == .pf0 then false else s.rpr.inspGo } }

/-- Start or preempt on a hive after something changed (R253, R254, R443): a free hive starts its first fresh program; a
running program of a lower class gets a stop request. A saved program is restored by its own row (R211). -/
def schedule (h : HiveId) (s0 : State) : State :=
  let first := fun (s : State) => firstProg s.mayRun (s.hv h).wait
  let s := if (first s0).isSome then abandonInsp h s0 else s0
  match first s with
  | none => s
  | some p =>
    if s.freeHive h then
      if p.ctx == .fresh && s.chargeAdmits then
        updHive h (fun hv => { hv with
          run := some { p with ovs := if h.val < 12 then {} else { reqV := true } }, wait := dropProg hv.wait p.slot p.home, stops := [] }) s
      else s
    else
      match (s.hv h).run with
      | some q =>
        let w : StopWhy := if q.lent then .reclaim else .preempt
        if q.cls < p.cls && !((s.hv h).stops.contains w) then askStop h w s else s
      | none => s

/-- `schedule` on several hives. -/
def scheduleAll : List HiveId → State → State
  | [], s => s
  | h :: r, s => scheduleAll r (schedule h s)

/-- Reclaim every lent hive (R257, R471). -/
def reclaimLent : List HiveId → State → State
  | [], s => s
  | h :: r, s =>
    match (s.hv h).run with
    | some p => reclaimLent r (if p.lent && !(s.hv h).stops.contains .reclaim then askStop h .reclaim s else s)
    | none => reclaimLent r s

/-- No lent program runs. -/
def State.noneLent (s : State) : Bool :=
  allHives.all fun h => match (s.hv h).run with | some p => !p.lent | none => true

-- completion records

/-- Number of a completion code (Table 0.6). -/
def Code.num : Code → Nat
  | .ok => 0 | .okDegraded => 1 | .doesNotFit => 0x10 | .waxMismatch => 0x11 | .seedUnavailable => 0x12
  | .swarmLost => 0x30 | .linkTimeout => 0x31 | .sealedAbort => 0x40 | .rngFail => 0x41 | .powerShed => 0x50
  | .hiveFault => 0x60 | .cancelled => 0x70 | .internal => 0x7F

/-- TB_QUAL of Table 17.2. -/
def TbState.qual : TbState → BitVec 2
  | .free => 0 | .holdover => 1 | .locked => 2 | .acquire => 3

/-- The 32 bytes of a completion record (Table 11.3). -/
def CplRec.bytes (r : CplRec) (phase express : Bool) : List Byte :=
  leBytes 2 r.tag.toNat ++ [BitVec.ofNat 8 r.code.num,
    BitVec.ofNat 8 (b2n phase + 2 * b2n express + 4 * r.qual.toNat + 16 * b2n r.result.isSome)] ++
  leBytes 4 r.user.toNat ++ leBytes 8 r.detail.toNat ++ leBytes 4 r.sec.toNat ++ leBytes 4 r.sub.toNat ++
  leBytes 7 ((r.result.map (·.1.toNat)).getD 0) ++ leBytes 1 ((r.result.map (·.2.toNat)).getD 0)

/-- The record of a job as formed now. -/
def mkRec (s : State) (j : Job) (e : Ending) (res : Option (BitVec 56 × Byte)) : CplRec := {
  tag := j.tag, code := e.code, detail := e.detail, user := j.d.user, qual := s.tb.st.qual, sec := s.tb.sec
  sub := BitVec.ofNat 32 s.tb.sub, result := res, noirq := j.d.noirq, slot := j.slot }

/-- Ring size of the completion queue. -/
def VfRegs.cqSize (r : VfRegs) : Nat := 2 ^ r.cqLog2.toNat

/-- The completion queue is full (R251). -/
def VfRegs.cqFull (r : VfRegs) : Bool := (r.cqTail + 1) % r.cqSize == r.cqHead % r.cqSize

/-- Take a job out of the job table: its slot is free (R238), and nothing under way for it acts any more (R524). -/
def dropJob (slot : Nat) (s : State) : State :=
  { s with
    jobs := s.jobs.filter fun j => j.slot != slot, mesh := s.mesh.filter fun m => m.slot != slot
    arrivals := s.arrivals.filter fun a => a.slot != slot
    swarm := { s.swarm with ckpts := s.swarm.ckpts.filter fun c => c.slot != slot }
    host := { s.host with reads := s.host.reads.filter fun x => match x.2 with
      | .input n _ => n != slot
      | _ => true } }

/-- DETAIL bytes 8 and 9 and USER of a record, as a COMPLETE glass record carries them. -/
def completeTail (r : CplRec) : List Byte :=
  leBytes 2 r.detail.toNat ++ [0, 0] ++ leBytes 4 r.user.toNat

/-- Moderation of VF vector 0 after a record (R252). -/
def moderate (c : ColId) (r : CplRec) (s : State) : State :=
  if r.noirq then s
  else
    let n := (s.co c).r.modPend + 1
    let lim := if (s.co c).r.modCnt = 0 then 1 else (s.co c).r.modCnt.toNat
    if lim ≤ n then raise (.vf c) 0 (updVf c (fun v => { v with modPend := 0 }) s)
    else updVf c (fun v => { v with modPend := n }) s

/-- Write a record at CQ_TAIL and free its slot (R251). -/
def writeRec (c : ColId) (r : CplRec) (s : State) : State :=
  let v := (s.co c).r
  let s := cellarWrite (.vf c) .record (alignDown v.cqBase.toNat 12 + 32 * v.cqTail) (r.bytes v.cqPhase false) s
  let wrap := v.cqTail + 1 == v.cqSize
  let s := updVf c (fun x => { x with cqTail := if wrap then 0 else v.cqTail + 1, cqPhase := if wrap then !v.cqPhase else v.cqPhase }) s
  let s := cntCol c 7 1 s
  let s := if r.code == .okDegraded then cntCol c 9 1 s else s
  let s := glassJob 5 c r.tag r.code.num (completeTail r) s
  moderate c r (dropJob r.slot s)

/-- Hand a record to the completion queue: it waits while the queue is full or Bus Master Enable is 0, unless the colony is in
reset (R251, R266, R276). -/
def putRec (c : ColId) (r : CplRec) (s : State) : State :=
  let v := (s.co c).r
  if (v.cqFull || !v.waiting.isEmpty || !(s.fn (.vf c)).bme) && !(s.co c).resetBusy then
    updJob r.slot (fun j => { j with st := .ended }) (updVf c (fun x => { x with waiting := x.waiting ++ [r] }) s)
  else writeRec c r s

/-- Write an express record to XP_CPL, flip its PHASE, free the slot and raise VF vector 1 (R260). -/
def writeXpRec (c : ColId) (cpl : DWord) (r : CplRec) (s : State) : State :=
  let s := cellarWrite (.vf c) .xpRecord (alignDown cpl.toNat 5) (r.bytes (s.co c).r.xphase true) s
  let s := updVf c (fun v => { v with xphase := !v.xphase }) s
  let s := cntCol c 8 1 s
  let s := if r.code == .okDegraded then cntCol c 9 1 s else s
  let s := glassJob 5 c r.tag r.code.num (completeTail r) s
  raise (.vf c) 1 (dropJob r.slot s)

/-- Hand over an express record: it waits while Bus Master Enable is 0, unless the colony is in reset (R260, R266, R276). -/
def putXpRec (c : ColId) (cpl : DWord) (r : CplRec) (s : State) : State :=
  if (s.fn (.vf c)).bme || (s.co c).resetBusy then writeXpRec c cpl r s
  else updJob r.slot (fun j => { j with st := .ended }) (updVf c (fun x => { x with xpHeld := some (cpl, r) }) s)

/-- Write the express record that waits. -/
def releaseXp (c : ColId) (s : State) : State :=
  match (s.co c).r.xpHeld with
  | none => s
  | some (cpl, r) => writeXpRec c cpl r (updVf c (fun x => { x with xpHeld := none }) s)

/-- Write records that wait while the queue has space (R251). -/
def releaseRecs (c : ColId) : List CplRec → State → State
  | [], s => updVf c (fun x => { x with waiting := [] }) s
  | r :: t, s =>
    if (s.co c).r.cqFull then updVf c (fun x => { x with waiting := r :: t }) s else releaseRecs c t (writeRec c r s)

/-- A new value into the idle buffer of a result register, which becomes the active one (R261). -/
def ResReg.put (x : ResReg) (v : BitVec 56) : ResReg :=
  let cur := if x.useB then x.b else x.a
  let nw : ResBuf := { res := v, seq := cur.seq + 1 }
  if x.useB then { x with a := nw, useB := false } else { x with b := nw, useB := true }

/-- The active buffer of a result register. -/
def ResReg.active (x : ResReg) : ResBuf := if x.useB then x.b else x.a

-- completing a job

/-- The status of a job whose programs all ended (R231, Table 11.4). -/
def Job.okEnding (j : Job) : Ending :=
  if j.degr = 0 then { code := .ok } else { code := .okDegraded, detail := j.degr.setWidth 64 }

/-- The hive whose comb store holds the window of a job for logical hive `home`: the express hive of lent work (R256), the hive
to which its work went (R92, R391), and else that hive. -/
def Job.winHive (j : Job) (home : HiveId) : HiveId :=
  match j.lentAt with
  | some (h, x) => if x = home then h else ((j.movedAt.find? fun m => m.1 == home).map (·.2)).getD home
  | none => ((j.movedAt.find? fun m => m.1 == home).map (·.2)).getD home

/-- The hive whose window holds the job's output. -/
def Job.outAt? (j : Job) : Option HiveId := (hiveOf? j.d.outHive).map j.winHive

/-- SCRATCH ranges of a hive in the model of a partition (R384). -/
def State.scratchOf (s : State) (part : Nat) (h : HiveId) : List (Nat × Nat) :=
  match s.model? part with
  | none => []
  | some m => (m.ents.filter fun e => e.hive == h && e.kind == .scratch).map fun e => (e.csOff, e.len)

/-- Zero the SCRATCH ranges of a sealed job's hives (R387). -/
def zeroScratch (j : Job) : List HiveId → State → State
  | [], s => s
  | h :: r, s =>
    let part := j.part.val
    zeroScratch j r ((s.scratchOf part h).foldl (fun t x =>
      updHive (j.winHive h) (fun hv => { hv with cs := memZero hv.cs (s.winBase part + x.1) x.2 }) t) s)

/-- Remove every program of a job from the hives, and free those that ran it (R263, R341). -/
def dropPrograms (slot : Nat) (s : State) : State :=
  { s with hives := s.hives.map fun hv => { hv with
      run := match hv.run with | some p => if p.slot == slot then none else some p | none => none
      halted := match hv.run with | some p => if p.slot == slot then false else hv.halted | none => hv.halted
      late := match hv.run with | some p => if p.slot == slot then [] else hv.late | none => hv.late
      stops := match hv.run with | some p => if p.slot == slot then [] else hv.stops | none => hv.stops
      hints := match hv.run with | some p => if p.slot == slot then [] else hv.hints | none => hv.hints
      wait := hv.wait.filter fun p => p.slot != slot } }

/-- The result of a job with its SEQ, and the result registers updated (R249, R260, R261). -/
def takeResult (j : Job) (out : List Byte) (s : State) : Option (BitVec 56 × Byte) × State :=
  let v : BitVec 56 := BitVec.ofNat 56 (leNat (out.take 7))
  if out.length < 8 then (none, s)
  else if j.isExpress then
    let x := (s.co j.col).r.xres.put v
    (some (v, x.active.seq), updVf j.col (fun r => { r with xres := x }) s)
  else if j.d.rreg then
    let x := (s.co j.col).r.res.put v
    (some (v, x.active.seq), updVf j.col (fun r => { r with res := x }) s)
  else (none, s)

/-- A hive fault is declared: HIV_FAULT records the first cause and tag, HIV_EVT.FAULT raises vector 4 (R90). -/
def faultNote (h : HiveId) (cause : Nat) (slot : Nat) (s : State) : State :=
  let s := if anyBit (s.hv h).evt 4 then s
    else updHive h (fun hv => { hv with faultCause := BitVec.ofNat 4 cause, faultTag := s.tagOf slot }) s
  postEvent (.hive h) 4 s

/-- Write a job's output: in writes that cross no 4 KiB boundary and carry no more than Max_Payload_Size (R234). -/
def outWrite (c : ColId) (k : TxKind) (addr : Nat) (bs : List Byte) (s : State) : State :=
  (splitWrites s.maxPayload bs.length addr bs).foldl (fun t w => cellarWrite (.vf c) k w.1 w.2 t) s

/-- Write the record of a home job. -/
def putJobRec (j : Job) (r : CplRec) (s : State) : State :=
  match j.kind with
  | .express _ _ cpl => putXpRec j.col cpl r s
  | _ => putRec j.col r s

/-- A colony reset ends when no job of the colony is in flight (R266): the registers of the VF BAR0 and the shadows of the
VF go back to reset, and for an FLR or a VF disable its configuration space; writes that wait for Bus Master Enable still
wait. -/
def endReset (c : ColId) (s : State) : State :=
  let x := s.co c
  if x.resetBusy && !(s.jobs.any fun j => j.isHome && j.col == c) then
    let s := updCol c (fun x => { x with r := {}, resetBusy := false, flr := false }) s
    let s := updFn (.vf c) (fun f => if x.flr then { FnSt.vfReset with held := f.held } else { f with msix := FnSt.vfReset.msix, pba := 0 }) s
    { s with shadows := tabSet none s.shadows (c.val + 1) none }
  else s

/-- A job completes now (R249, R250, R260, R334): output, result register, record, in this order; a job of another home
station reports DONE instead. Its programs are gone and its hives free. -/
def completeJob (slot : Nat) (s : State) : State :=
  match s.job? slot with
  | none => s
  | some j =>
    if j.st == .ended then s
    else
    let hs := ((s.model? j.part.val).map fun m => m.dir.map (·.hive)).getD []
    let s0 := s
    let s := dropPrograms slot s
    let s := if j.sealed then zeroScratch j hs s else s
    let s := { s with guard := { s.guard with saves := s.guard.saves.filter (fun x => x.slot != slot) } }
    if !j.isHome then
      let m : SwMsg := match j.ending with
        | none => .done
        | some e => if j.stopSent then .done else .reject e.code.num e.detail
      drainStep (scheduleAll allHives (dropJob slot (sendSw (s.homeOf j) j m s)))
    else
      let ue := match j.outAt? with
        | some h => s0.winUe j.part.val h j.d.outOff j.d.outLen
        | none => false
      let s := match j.outAt?, j.ending with
        | some h, none => if ue && j.d.outLen != 0 then faultNote h 3 slot s else s
        | _, _ => s
      let e := match j.ending with
        | some e => e
        | none => if ue && j.d.outLen != 0 then { code := .hiveFault, detail := BitVec.ofNat 64 (j.d.outHive + 256 * 3) } else j.okEnding
      let s := if j.repeats = 0 || e.code == .swarmLost then s else postEvent .swarm 8 s
      if e.code == .ok || e.code == .okDegraded then
        let out := match j.outAt? with
          | some h => s0.winRead j.part.val h j.d.outOff j.d.outLen
          | none => []
        let s := outWrite j.col (if j.isExpress then .xpOutput else .output) j.d.outAddr.toNat out s
        let (res, s) := takeResult j out s
        drainStep (endReset j.col (scheduleAll allHives (putJobRec j (mkRec s j e res) s)))
      else drainStep (endReset j.col (scheduleAll allHives (putJobRec j (mkRec s j e none) s)))

/-- Some hive still runs a program of the job. -/
def State.jobRuns (s : State) (slot : Nat) : Bool :=
  allHives.any fun h => match (s.hv h).run with | some p => p.slot == slot | none => false

/-- Hives that run a program of the job. -/
def State.hivesRunning (s : State) (slot : Nat) : List HiveId :=
  allHives.filter fun h => match (s.hv h).run with | some p => p.slot == slot | none => false

/-- Ask for a stop on several hives; a halted program's stop is reached at once by its own row (R212). -/
def askStops (w : StopWhy) : List HiveId → State → State
  | [], s => s
  | h :: r, s => askStops w r (askStop h w s)

/-- Every other station of the span is done (R334, R337). -/
def State.othersDone (s : State) (j : Job) : Bool := !j.isHome || (s.others j).all fun a => j.done.getLsbD a.val

/-- The home station orders the other stations of a started span to stop (R337). -/
def stopOthers (j : Job) (reason : Nat) (s : State) : State :=
  if j.isHome && j.st != .queued && !j.stopSent && !(s.others j).isEmpty then
    sendSwAll j (.stop reason) (s.others j) (updJob j.slot (fun j => { j with stopSent := true }) s)
  else s

/-- Reason of Table 11.4 that a STOP carries: that of a CANCELLED ending. -/
def Ending.reason (e : Ending) : Nat := if e.code == .cancelled then e.detail.toNat % 256 else 0

/-- End a job with a cause (R13, R263, R337): a queued job completes at once; a running one when its last stop is reached,
on every station. -/
def endJob (slot : Nat) (e : Ending) (w : StopWhy) (s : State) : State :=
  match s.job? slot with
  | none => s
  | some j =>
    if j.st == .ended then s
    else
      let s := stopOthers j e.reason (updJob slot (Job.endWith e) s)
      if s.jobRuns slot || (j.st != .queued && !s.othersDone j) then
        let s := { s with hives := s.hives.map fun hv => { hv with wait := hv.wait.filter fun p => p.slot != slot } }
        askStops w (s.hivesRunning slot) (updJob slot (fun j => { j with st := .stopping }) s)
      else completeJob slot s

/-- A job that is being stopped completes when its last stop is reached. -/
def finishStop (slot : Nat) (s : State) : State :=
  match s.job? slot with
  | none => s
  | some j => if j.st == .stopping && !s.jobRuns slot && s.othersDone j then completeJob slot s else s

/-- End a job at once, without waiting for a yield point (R94, R341, R393, R421, R465). -/
def killJob (slot : Nat) (e : Ending) (s : State) : State :=
  match s.job? slot with
  | none => s
  | some j =>
    if j.st == .ended then s else completeJob slot (stopOthers j e.reason (updJob slot (Job.endWith e) s))

/-- Declare HIVE_FAULT for a job (R90). -/
def hiveFault (h : HiveId) (cause : Nat) (slot : Nat) (s : State) : State :=
  endJob slot { code := .hiveFault, detail := BitVec.ofNat 64 (h.val + 256 * cause) } (.cancel 0) (faultNote h cause slot s)

/-- Slots of the jobs of the table, in order. -/
def State.slots (s : State) : List Nat := s.jobs.map (·.slot)

/-- Apply an operation to several slots. -/
def onSlots (f : Nat → State → State) : List Nat → State → State
  | [], s => s
  | n :: r, s => onSlots f r (f n s)

/-- Running jobs of a partition (R238). -/
def State.runningOf (s : State) (part : Nat) : List Job :=
  s.jobs.filter fun j => j.part.val == part && (j.st == .running || j.st == .stopping)

end Sys2Proof.Machine
end

