-- ==== Sys2Proof/Machine/Gates.lean ====
section
/-! DEFINITION. Machine/Gates.lean: copies from the supers master copy into a hive (R228), scrubs and hive resets (R389,
R464), gates and claims of hives (R91 to R95). -/

namespace Sys2Proof.Machine

-- uncorrectable words of the supers (R236)

/-- Size of the supers in bytes (R221). -/
def supBytes : Nat := 2 ^ 35

/-- Size of the system region (R222). -/
def sysBytes : Nat := 0x4000000

/-- SUP_EVT. -/
def supEvent (w : Word) (s : State) : State := postEvent .sup w s

/-- Uncorrectable 64-bit words that a range meets. -/
def State.ueIn (s : State) (a n : Nat) : List Nat := s.sup.ue.filter fun w => overlaps w 8 a n

/-- One request meets uncorrectable words (R236): the lowest is recorded, all are queued for repair. -/
def noteUe (ws : List Nat) (s : State) : State :=
  match ws with
  | [] => s
  | w :: r =>
    let low := r.foldl min w
    supEvent 1 { s with sup := { s.sup with
      ueAddr := BitVec.ofNat 35 low, ppr := (s.sup.ppr ++ ws).eraseDups, ue := (s.sup.ue ++ ws).eraseDups } }

/-- The job for which a read met an uncorrectable word ends with INTERNAL, source 1 (R236). -/
def ueEnds (slot : Nat) (s : State) : State := endJob slot { code := .internal, detail := 1 } (.cancel 0) s

-- copies

/-- First byte of a colony's supers allocation (R223). -/
def State.caAddr (s : State) (c : Nat) : Nat := match colOf? c with | some c => (s.co c).caBase.toNat * 2 ^ 20 | none => 0

/-- Bytes of a colony's supers allocation (R223). -/
def State.caBytes (s : State) (c : Nat) : Nat := match colOf? c with | some c => (s.co c).caSize.toNat * 2 ^ 20 | none => 0

/-- Copy n bytes of the supers to the comb store of a hive; uncorrectable words that the read meets are noted (R236). -/
def copyIn (h : HiveId) (dst src n : Nat) (s : State) : State :=
  noteUe (s.ueIn src n) (updHive h (fun hv => { hv with
    cs := memWriteN hv.cs dst (memReadN s.sup.mem src n)
    csUe := hv.csUe.filter fun w => decide (w < dst / 8) || decide ((dst + n) / 8 ≤ w) }) s)

/-- The supered layers of a hive under a model's plan. -/
def Model.supered (m : Model) (home : HiveId) : List Nat :=
  ((m.plans.find? fun p => p.hive == home).map (·.layers)).getD []

/-- An entry is copied at the load: FIXED always, WEIGHTS when resident (R228). -/
def Model.copied (m : Model) (home : HiveId) (e : MdlEnt) : Bool :=
  e.hive == home && (e.kind == .fixed || (e.kind == .weights && !(m.supered home).contains e.layer))

/-- Copy the program, FIXED and resident WEIGHTS ranges of logical hive `home` of a model to the window of its partition on
a hive (R228). -/
def copyModel (m : Model) (home h : HiveId) (s : State) : State :=
  if (m.plans.find? fun p => p.hive == home).any fun p => p.plan == .nofit then s
  else
    let part := m.part.val
    let b := s.winBase part
    let s := match m.dir.find? fun d => d.hive == home with
      | some d => copyIn h (b + d.csOff) (m.image + d.imgOff) (8 * d.nInstr) s
      | none => s
    (m.ents.filter (m.copied home)).foldl
      (fun t e => copyIn h (b + e.csOff) (t.caAddr (t.wax.img.colonyOf part) + e.src) e.len t) s

/-- Supers ranges that the copies of a hive's part of a model read (R228). -/
def Model.srcRanges (s : State) (m : Model) (home : HiveId) : List (Nat × Nat) :=
  if (m.plans.find? fun p => p.hive == home).any fun p => p.plan == .nofit then []
  else
    (((m.dir.find? fun d => d.hive == home).map fun d => (m.image + d.imgOff, 8 * d.nInstr)).toList) ++
    (m.ents.filter (m.copied home)).map fun e => (s.caAddr (s.wax.img.colonyOf m.part.val) + e.src, e.len)

/-- The model whose ranges the windows of a partition hold: that of a load which has made its copies (R228), else the one in
force. -/
def State.windowModel? (s : State) (part : Nat) : Option Model :=
  ((s.mld.result.bind (·.model)).filter fun m => m.part.val == part).or (s.model? part)

/-- Copy the ranges of the model of a partition (R228, R391, R464). -/
def loadRanges (part : Nat) (home h : HiveId) (s : State) : State :=
  match s.windowModel? part with
  | none => s
  | some m => copyModel m home h s

/-- The copies of `loadRanges` meet an uncorrectable word. -/
def State.rangesUe (s : State) (part : Nat) (home : HiveId) : Bool :=
  ((s.windowModel? part).map fun m => (m.srcRanges s home).any fun x => !(s.ueIn x.1 x.2).isEmpty).getD false

/-- End the job on whose behalf copies met an uncorrectable word (R236). -/
def endOnUe (bad : Bool) (slot : Nat) (s : State) : State := if bad then ueEnds slot s else s

/-- Load the ranges of the partition that owns a hive. -/
def reloadHive (h : HiveId) (s : State) : State :=
  match s.wax.img.owner? h.val with
  | none => s
  | some p => loadRanges p h h s

/-- `reloadHive` on several hives. -/
def reloadAll : List HiveId → State → State
  | [], s => s
  | h :: r, s => reloadAll r (reloadHive h s)

-- scrubs and hive reset

/-- Zero every comb store row and clear both honey contexts (R389 step 4). -/
def scrubHive (h : HiveId) (s : State) : State :=
  updHive h (fun hv => { hv with cs := [], csUe := [], hny := Vector.replicate 2 {} }) s

/-- `scrubHive` and `reloadHive` on several hives. -/
def scrubAll : List HiveId → State → State
  | [], s => s
  | h :: r, s => scrubAll r (reloadHive h (scrubHive h s))

/-- The contents that a hive reset clears (R464), with the HIV registers other than HIV_ID (Table 20.2); the gates stay as
HIV_CTL shows them. -/
def hiveReset (h : HiveId) (s : State) : State :=
  reloadHive h (updHive h (fun hv => { hv with
    cs := [], csUe := [], hny := Vector.replicate 2 {}, run := none, late := [], hints := [], hinted := 0, stops := [], halted := false
    evt := 0, faultCause := 0, faultTag := 0, halt := false, step := false, psIdx := 0, actIdx := 0, uncorr := 0 }) s)

-- claims

/-- The colony partition that owns a hive is sealed. -/
def State.sealedHive (s : State) (h : HiveId) : Bool :=
  match s.wax.img.owner? h.val with
  | some p => if hp : p < 64 then s.isSealed ⟨p, hp⟩ else false
  | none => false

/-- Hives that the wax in force gives to a partition. -/
def State.hivesOwned (s : State) (p : Nat) : List HiveId := allHives.filter fun h => s.wax.img.owner? h.val == some p

-- gates

/-- Put gates in force. -/
def gateNow (h : HiveId) (clk pwr : Bool) (s : State) : State :=
  updHive h (fun hv => { hv with
    clkOff := hv.clkOff || clk, pwrOff := hv.pwrOff || pwr, pwrSince := hv.pwrSince || pwr
    clkWait := hv.clkWait && !clk, pwrWait := hv.pwrWait && !pwr, clkDefer := hv.clkDefer && !clk, pwrDefer := hv.pwrDefer && !pwr }) s

/-- The hive holds work: it runs, or a paused context lies there (R92). -/
def Hive.holdsWork (hv : Hive) : Bool := hv.run.isSome || hv.wait.any Prog.held

/-- Execute the gates that waited or were deferred, those whose bit still reads 1 (R93). -/
def runGates (h : HiveId) (s : State) : State :=
  let hv := s.hv h
  let clk := (hv.clkWait || hv.clkDefer) && hv.clkGate
  let pwr := (hv.pwrWait || hv.pwrDefer) && hv.pwrGate
  updHive h (fun hv => { hv with clkWait := false, pwrWait := false, clkDefer := false, pwrDefer := false }) (gateNow h clk pwr s)

/-- Release the claim of a hive; a deferred gate then executes (R92, R93). -/
def unclaim (h : HiveId) (s : State) : State :=
  let t := updHive h (fun hv => { hv with claimed := false, deferring := false }) s
  if (s.hv h).clkDefer || (s.hv h).pwrDefer then runGates h t else t

/-- A paused program leaves its hive with its context and its window contents (R92). -/
def leaveHive (s : State) (h : HiveId) (p : Prog) : Prog :=
  if p.held then
    let part := ((s.job? p.slot).map (·.part.val)).getD 0
    let base := s.winBase part
    let size := s.winSize part
    { p with ctx := .supers, win := some (((s.hv h).cs.filter fun e => decide (base ≤ e.1) && decide (e.1 < base + size)).map
        fun e => (e.1 - base, e.2)) }
  else p

/-- Every paused context leaves the hive (R92). -/
def leaveAll (h : HiveId) (s : State) : State :=
  updHive h (fun hv => { hv with wait := hv.wait.map (leaveHive s h) }) s

/-- A gate request without FORCE on a hive outside the express partition (R92). -/
def gateRequest (h : HiveId) (clk pwr : Bool) (s : State) : State :=
  let hv := s.hv h
  if hv.claimed then
    updHive h (fun x => { x with clkDefer := x.clkDefer || clk, pwrDefer := x.pwrDefer || pwr, deferring := true }) s
  else if hv.holdsWork then
    let s := updHive h (fun x => { x with clkWait := x.clkWait || clk, pwrWait := x.pwrWait || pwr }) (leaveAll h s)
    if hv.run.isSome && !hv.stops.contains .gate then askStop h .gate s else s
  else gateNow h clk pwr s

/-- The jobs with work on a hive. -/
def State.workOn (s : State) (h : HiveId) : List Nat :=
  ((match (s.hv h).run with | some p => [p.slot] | none => []) ++
    ((s.hv h).wait.filter Prog.held).map (·.slot)).eraseDups

/-- Hives on which a job runs or lies paused. -/
def State.hivesWith (s : State) (slot : Nat) : List HiveId := allHives.filter fun h => (s.workOn h).contains slot

/-- Abort a sealed job because of a hive (R393). -/
def abortSealed (h : HiveId) (slot : Nat) (s : State) : State :=
  let others := (s.hivesWith slot).filter (· != h)
  postEvent .seal 2 (scrubAll others
    (killJob slot { code := .sealedAbort, detail := BitVec.ofNat 64 h.val } s))

/-- A forced gate ends a job with work on the hive (R94). -/
def forceJob (h : HiveId) (slot : Nat) (s : State) : State :=
  match s.job? slot with
  | none => s
  | some j => if j.sealed then abortSealed h slot s else killJob slot { code := .cancelled, detail := 3 } s

/-- A forced gate (R94): the hive stops at once. -/
def gateForce (h : HiveId) (clk pwr : Bool) (s : State) : State :=
  gateNow h clk pwr (onSlots (forceJob h) (s.workOn h) (gateNow h clk pwr s))

/-- An ungated hive of a sealed colony is claimed again and scrubbed before any work (R391). -/
def reclaimSealed (h : HiveId) (s : State) : State :=
  if s.sealedHive h then
    reloadHive h (scrubHive h (updHive h (fun hv => { hv with claimed := true }) s))
  else s

/-- Clear gates: a request that waits is withdrawn (R93), a gate in force ends (R95), and PWR_GATE powers the hive up with
the clearing of R464. -/
def gateClear (h : HiveId) (clk pwr : Bool) (s : State) : State :=
  let hv := s.hv h
  let s := updHive h (fun x => { x with
    clkWait := x.clkWait && !clk, pwrWait := x.pwrWait && !pwr, clkDefer := x.clkDefer && !clk, pwrDefer := x.pwrDefer && !pwr
    clkOff := x.clkOff && !clk, pwrOff := x.pwrOff && !pwr }) s
  let s := if pwr && hv.pwrOff then hiveReset h s else s
  if (hv.clkOff || hv.pwrOff) && !(s.hv h).clkOff && !(s.hv h).pwrOff then
    schedule h (reclaimSealed h (updHive h (fun x => { x with pwrSince := false }) s))
  else s

/-- A write of HIV_CTL (R92 to R95). -/
def hivCtl (h : HiveId) (clk pwr force : Bool) (s : State) : State :=
  let hv := s.hv h
  if s.isExpressHive h && (clk || pwr) then postEvent (.hive h) 1 s
  else
    let s := updHive h (fun x => { x with clkGate := clk, pwrGate := pwr, force := force }) s
    let s := gateClear h (!clk && (hv.clkGate || hv.clkOff)) (!pwr && (hv.pwrGate || hv.pwrOff)) s
    let needC := clk && !(s.hv h).clkOff
    let needP := pwr && !(s.hv h).pwrOff
    if !(needC || needP) then s
    else if force then gateForce h needC needP s
    else gateRequest h needC needP s

/-- HIV_CLK_GATE (R92): 1 is written to CLK_GATE, PWR_GATE keeps its value. -/
def execHivClkGate (h : HiveId) (s : State) : Host.Outcome State Fault Refusal :=
  .next (hivCtl h true (s.hv h).pwrGate false s)

/-- HIV_PWR_GATE (R92): 1 is written to PWR_GATE, CLK_GATE keeps its value. -/
def execHivPwrGate (h : HiveId) (s : State) : Host.Outcome State Fault Refusal :=
  .next (hivCtl h (s.hv h).clkGate true false s)

/-- HIV_FORCE_GATE (R94): a gate write with FORCE. -/
def execHivForceGate (h : HiveId) (clk pwr : Bool) (s : State) : Host.Outcome State Fault Refusal :=
  .next (hivCtl h ((s.hv h).clkGate || clk) ((s.hv h).pwrGate || pwr) true s)

/-- HIV_UNGATE (R95): the named gates are written 0. -/
def execHivUngate (h : HiveId) (clk pwr : Bool) (s : State) : Host.Outcome State Fault Refusal :=
  .next (hivCtl h ((s.hv h).clkGate && !clk) ((s.hv h).pwrGate && !pwr) false s)

/-- DEFERRED_GATE_EXECUTE (R93): the claim has been released, or every context has left the hive. -/
def execDeferredGateExecute (h : HiveId) (s : State) : Host.Outcome State Fault Refusal :=
  let hv := s.hv h
  if hv.claimed then .next s
  else if (hv.clkWait || hv.pwrWait || hv.clkDefer || hv.pwrDefer) && !hv.holdsWork then .next (runGates h s)
  else .next s

end Sys2Proof.Machine
end

