-- ==== Sys2Proof/Machine/Ovs.lean ====
section
/-! DEFINITION. Machine/Ovs.lean: ceilings, targets and rails, storms, and the compute die's temperature (spec/06). -/

namespace Sys2Proof.Machine

/-- The lower of two level codes. -/
def minLvl (a b : BitVec 2) : BitVec 2 := if a.toNat ≤ b.toNat then a else b

/-- OVS_RCTL.CEIL as it reads: 0 in row 0. -/
def State.rowCtl (s : State) (r : RowId) : BitVec 2 := if r.val = 0 then 0 else (s.ovs.row[r]).ceil

/-- The wax ceiling of a row. -/
def State.waxCeil (s : State) (r : RowId) : BitVec 2 := BitVec.ofNat 2 (min 3 (s.wax.img.waxCeil r.val))

/-- OVS_RSTAT.CEIL_EFF (R125). -/
def State.ceilEff (s : State) (r : RowId) : BitVec 2 :=
  if s.ovs.nominal || s.ovs.hot then 0 else minLvl (s.waxCeil r) (minLvl (s.rowCtl r) (s.ovs.row[r]).stormCeil)

/-- The hives of a row. -/
def hivesOfRow (r : RowId) : List HiveId := allHives.filter fun h => h.val / 12 == r.val

/-- The requests of a row's hives, as a function of what each program asks for (R128); an inspection in the row runs at OVS0
(R444; log entry 84). -/
def State.rowMin (s : State) (r : RowId) (f : HiveId → OvsReq → BitVec 2) : BitVec 2 :=
  if s.rpr.insp.any fun i => i.row == r.val then 0 else (hivesOfRow r).foldl (fun c h => match (s.hv h).run with
    | some p => if p.ovs.reqV then minLvl c (f h p.ovs) else c
    | none => c) (s.ceilEff r)

/-- The row's target, OVS_RSTAT.LEVEL (R128). -/
def State.target (s : State) (r : RowId) : BitVec 2 := s.rowMin r fun _ o => o.req

/-- Cycles until the pending request of a hive's program comes into force (R127). -/
def State.leadOf (s : State) (h : HiveId) : Nat :=
  (((s.hv h).late.find? fun x => x.kind == .request).map (·.left)).getD 0

/-- The row's target for the cycle T cycles from now: the requests that will be in force then (R128). -/
def State.targetIn (s : State) (r : RowId) (t : Nat) : BitVec 2 :=
  s.rowMin r fun h o => if o.pendV && decide (s.leadOf h ≤ t) then o.pend else o.req

/-- The leads of the pending requests of a row. -/
def State.leads (s : State) (r : RowId) : List Nat :=
  (hivesOfRow r).filterMap fun h => match (s.hv h).run with
    | some p => if p.ovs.reqV && p.ovs.pendV then some (s.leadOf h) else none
    | none => none

/-- Cycles of a rail's movement from one level to another (R123). -/
def slewCycles (a b : BitVec 2) : Nat := 2400 * (if a.toNat ≤ b.toNat then b.toNat - a.toNat else a.toNat - b.toNat)

/-- The level to which a pending request makes the rail rise now: the lowest target of the cycles for which the rail has to
start by now (R128). -/
def State.raiseDue (s : State) (r : RowId) : Option (BitVec 2) :=
  let lvl := (s.ovs.row[r]).level
  (((s.leads r).filter fun t => decide ((s.targetIn r t).toNat < lvl.toNat) && decide (t ≤ slewCycles (s.targetIn r t) lvl)).map
    (s.targetIn r)).foldl (fun o l => match o with | some m => some (minLvl m l) | none => some l) none

/-- Move a rail to a level; `up` tells of a movement upward after a storm. -/
def railTo (r : RowId) (l : BitVec 2) (up : Bool) (s : State) : State :=
  updRow r (fun x => { x with level := l, slew := true, stormUp := up }) s

/-- The rail rises to a level; a movement upward after a storm stays one (R135). -/
def railUp (r : RowId) (l : BitVec 2) (storm : Bool) (s : State) : State :=
  let x := s.ovs.row[r]
  railTo r l (storm || (x.slew && x.stormUp)) s

/-- A tighter ceiling raises the rail at once (R128). -/
def raiseRail (r : RowId) (storm : Bool) (s : State) : State :=
  if (s.target r).toNat < (s.ovs.row[r]).level.toNat then railUp r (s.target r) storm s else s

/-- `raiseRail` for several rows. -/
def raiseRails : List RowId → State → State
  | [], s => s
  | r :: t, s => raiseRails t (raiseRail r false s)

/-- Every row. -/
def allRows : List RowId := List.finRange 8

/-- Post a storm in a row (R134 to R136). -/
def postStorm (r : RowId) (s : State) : State :=
  let k := s.target r
  let x := s.ovs.row[r]
  let s := updRow r (fun x => { x with storms := x.storms + 1 }) s
  if k = 0 then postEvent (.ovs r) 3 s
  else
    let s := postEvent (.ovs r) 1 s
    if x.slew && x.stormUp then updRow r (fun x => { x with hold := true }) s
    else raiseRail r true (updRow r (fun x => { x with stormCeil := k - 1, hold := true }) s)

/-- OVS_REQUEST_IN_FORCE (R127): the pending request of the program on a hive comes into force. -/
def execOvsRequestInForce (h : HiveId) (s : State) : Host.Outcome State Fault Refusal :=
  .next (updHive h (fun hv => { hv with
    late := hv.late.filter (·.kind != .request)
    run := hv.run.map fun p => if p.ovs.pendV then { p with ovs := { p.ovs with req := p.ovs.pend, pendV := false } } else p }) s)

/-- OVS_RAIL_SLEW_START (R128): the rail starts toward its target, or early toward the one that a pending raise brings; `late`
tells that the start time of a raise had passed. -/
def execOvsRailSlewStart (r : RowId) (late : Bool) (s : State) : Host.Outcome State Fault Refusal :=
  let lvl := (s.ovs.row[r]).level
  let up := fun (l : BitVec 2) => let t := railUp r l false s
    Host.Outcome.next (if late then postEvent (.ovs r) 4 t else t)
  if (s.target r).toNat < lvl.toNat then up (s.target r)
  else match s.raiseDue r with
  | some l => up l
  | none => .next (if lvl.toNat < (s.target r).toNat then railTo r (s.target r) false s else s)

/-- Millivolts of a level (Table 6.1). -/
def levelMv (l : BitVec 2) : Nat := 750 - 40 * l.toNat

/-- The measured voltage of a settled rail: within 10 mV of its level, which of these values is not stated (R123; log
entry 11). -/
def State.settledMv (s : State) (l : BitVec 2) (i : Nat) : BitVec 16 :=
  BitVec.ofNat 16 (levelMv l - 10 + (Config.freeValue (s.freeCtr + i)).toNat % 21)

/-- OVS_RAIL_SETTLED (R123). -/
def execOvsRailSettled (r : RowId) (s : State) : Host.Outcome State Fault Refusal :=
  .next (if (s.ovs.row[r]).slew then
    (updRow r (fun x => { x with slew := false, stormUp := false, volt := s.settledMv x.level 0 }) s).tickFree else s)

/-- OVS_CEILING_WRITE (R125, R128): a row's ceiling, ignored in row 0, or NOMINAL. -/
def execOvsCeilingWrite (t : CeilTgt) (s : State) : Host.Outcome State Fault Refusal :=
  match t with
  | .row r c => .next (if r.val = 0 then s else raiseRail r false (updRow r (fun x => { x with ceil := c }) s))
  | .nominal on => .next (raiseRails allRows { s with ovs := { s.ovs with nominal := on } })

/-- A sample of the compute die's temperature, signed Q8.8 (CAP_TEMP). -/
def putTj (tj : BitVec 16) (s : State) : State :=
  { s with boot := { s.boot with tj := tj, peak := if s.boot.peak.toInt < tj.toInt then tj else s.boot.peak } }

/-- COMPUTE_TEMP_THRESHOLD (R125, R507): above 100 C every ceiling is OVS0, until the die falls below 95 C. -/
def execComputeTempThreshold (tj : BitVec 16) (s : State) : Host.Outcome State Fault Refusal :=
  let s := putTj tj s
  let hot := if decide (25600 < tj.toInt) then true else if decide (tj.toInt < 24320) then false else s.ovs.hot
  .next (latchAlert (raiseRails allRows { s with ovs := { s.ovs with hot := hot } }))

/-- OVS_STORM_HOLD_END (R135): the storm ceiling rises by one code, and a new hold starts unless it reached 0x3. -/
def execOvsStormHoldEnd (r : RowId) (s : State) : Host.Outcome State Fault Refusal :=
  .next (updRow r (fun x =>
    if x.hold then
      let c := if x.stormCeil = 3 then 3 else x.stormCeil + 1
      { x with stormCeil := c, hold := c != 3 }
    else x) s)

end Sys2Proof.Machine
end

