-- ==== Sys2Proof/Machine/RepairOps.lean ====
section
/-! DEFINITION. Machine/RepairOps.lean: the repair map and its log, hosts of logical hives, retirement and barren hives,
and the start of inspections (spec/19). -/

namespace Sys2Proof.Machine

/-- RPR_EVT. -/
def rprEvent (w : Word) (s : State) : State := postEvent .rpr w s

/-- The bytes of a map entry (Table 19.2). -/
def entBytes (e : MapEnt) : List Byte := [e.ty, e.org, e.b2, e.b3, e.b4, e.b5, e.b6, e.b7]

/-- What an entry names, its origin aside. -/
def entSame (a b : MapEnt) : Bool :=
  a.ty == b.ty && a.b2 == b.b2 && a.b3 == b.b3 && a.b4 == b.b4 && a.b5 == b.b5 && a.b6 == b.b6 && a.b7 == b.b7

/-- The repair map in force (R431): a field entry that repeats a factory entry, whose origin is always another, adds nothing. -/
def RprSt.map (r : RprSt) : List MapEnt := r.factory ++ r.field.filter fun e => !r.factory.any (entSame e ·)

/-- The entry names a cell, a lane or a comb store row that a physical hive has, with its zero bytes (Table 19.2). -/
def entElement (e : MapEnt) : Bool :=
  decide (e.b2.toNat < 8) && decide (e.b3.toNat < 13) &&
  match e.ty.toNat with
  | 2 => decide (e.b4.toNat < 8) && decide (e.b5.toNat < 66) && e.b6 == 0 && e.b7 == 0
  | 3 => decide (e.b4.toNat < 8) && decide (e.b5.toNat < 66) && decide (e.b6.toNat + 256 * e.b7.toNat < 264)
  | 4 => decide (e.b4.toNat + 256 * e.b5.toNat < 1536) && e.b6 == 0 && e.b7 == 0
  | _ => false

/-- MAP_FULL (RPR_STAT). -/
def RprSt.full (r : RprSt) : Bool := decide (4096 ≤ r.field.length)

/-- The sector that the next record takes is M1: M0 holds the record in force. -/
def RprSt.nextM1 (r : RprSt) : Bool := r.mapSrc == 1

/-- Start writing the field entries when changes wait and no write runs (R433). -/
def kickMap (r : RprSt) : RprSt :=
  if r.dirty && !r.wrBusy then
    let r := { r with wrBusy := true, dirty := false, writing := r.field.take 4096, logWriting := r.logPend, logPend := [] }
    if r.nextM1 then { r with m1 := none } else { r with m0 := none }
  else r

/-- Add a field entry to the map in force; one that it holds already changes nothing, but each CSROW entry takes a spare row
of its own, a second one of the same row too (R437). -/
def addEnt (e : MapEnt) (s : State) : State :=
  if e.ty != 4 && s.rpr.map.any (entSame e ·) then s
  else
    let was := s.rpr.full
    let s := { s with rpr := { s.rpr with field := s.rpr.field ++ [e], dirty := true } }
    if s.rpr.full && !was then rprEvent 32 s else s

/-- The 16 bytes of a log entry (R454). -/
def logBytes (s : State) (code org : Byte) (b : List Byte) : List Byte :=
  leBytes 4 s.tb.sec.toNat ++ leBytes 4 s.tb.sub ++ [code, org] ++ (b ++ List.replicate 6 0).take 6

/-- Write an entry into the log ring. -/
def logPut (bs : List Byte) (r : RprSt) : RprSt :=
  { r with log := (r.log.filter fun e => e.1 != r.logHead.toNat) ++ [(r.logHead.toNat, bs)], logHead := r.logHead + 1 }

/-- A log entry that explains no map entry is written at once. -/
def logNow (code org : Byte) (b : List Byte) (s : State) : State :=
  { s with rpr := logPut (logBytes s code org b) s.rpr }

/-- A log entry that goes with the next map record (log entry 33). -/
def logWith (code org : Byte) (b : List Byte) (s : State) : State :=
  { s with rpr := { s.rpr with logPend := s.rpr.logPend ++ [logBytes s code org b], dirty := true } }

/-- Log code of a map entry type (Table 19.5). -/
def logCode (ty : Byte) : Byte :=
  match ty.toNat with
  | 1 => 1 | 2 => 3 | 3 => 4 | 4 => 5 | 5 => 6 | _ => 2

/-- Add an entry and log it. -/
def addLogged (e : MapEnt) (s : State) : State := logWith (logCode e.ty) e.org ((entBytes e).drop 2) (addEnt e s)

/-- `addLogged` for several entries. -/
def addAll : List MapEnt → State → State
  | [], s => s
  | e :: r, s => addAll r (addLogged e s)

/-- Start the record write that the changes call for. -/
def saveMap (s : State) : State := { s with rpr := kickMap s.rpr }

-- hosts

/-- The physical column that the first HIVE entry of a row retires (R435). -/
def retiredCol (m : List MapEnt) (row : Nat) : Option Nat :=
  (m.find? fun e => e.ty == 1 && e.b2.toNat == row).map (·.b3.toNat)

/-- Physical column of a logical column under a map (R435). -/
def hostCol (m : List MapEnt) (row c : Nat) : Nat :=
  match retiredCol m row with
  | some x => if c < x then c else c + 1
  | none => c

/-- The physical column of every logical hive. -/
def hostCols (m : List MapEnt) : List Nat := (List.range 96).map fun h => hostCol m (h / 12) (h % 12)

/-- A row has a free spare (RPR_CAP.SPARE_FREE). -/
def State.spareFree (s : State) (row : Nat) : Bool := (retiredCol s.rpr.map row).isNone

/-- RPR_CAP. -/
def State.rprCap (s : State) : Word :=
  mkWord ((List.range 8).map (fun r => (r, 1, b2n (s.spareFree r))) ++ [(8, 7, (allHives.filter fun h => !(s.hv h).barren).length)])

/-- The logical hive that a physical column of a row hosts. -/
def State.hosted (s : State) (row pcol : Nat) : Option HiveId :=
  allHives.find? fun h => h.val / 12 == row && s.rpr.pcol.getD h.val 0 == pcol

/-- Spare rows of comb store that a physical hive has used (R437). -/
def State.rowsUsed (s : State) (row pcol : Nat) : Nat :=
  (s.rpr.map.filter fun e => e.ty == 4 && e.b2.toNat == row && e.b3.toNat == pcol).length

/-- CELL entries of a comb. -/
def cellsOf (m : List MapEnt) (e : MapEnt) : Nat :=
  (m.filter fun x => x.ty == 2 && x.b2 == e.b2 && x.b3 == e.b3 && x.b4 == e.b4).length

/-- LANE entries of a cell. -/
def lanesOf (m : List MapEnt) (e : MapEnt) : Nat :=
  (m.filter fun x => x.ty == 3 && x.b2 == e.b2 && x.b3 == e.b3 && x.b4 == e.b4 && x.b5 == e.b5).length

/-- The CELL entry that a ninth LANE entry of a cell adds (R436). -/
def cellFor (e : MapEnt) : MapEnt := { ty := 2, org := e.org, b2 := e.b2, b3 := e.b3, b4 := e.b4, b5 := e.b5 }

/-- Findings with the CELL entries that they add. -/
def withCells (m : List MapEnt) : List MapEnt → List MapEnt
  | [] => []
  | e :: r =>
    let m1 := if m.any (entSame e ·) then m else m ++ [e]
    if e.ty == 3 && decide (9 ≤ lanesOf m1 e) && !m1.any (entSame (cellFor e) ·) then
      e :: cellFor e :: withCells (m1 ++ [cellFor e]) r
    else e :: withCells m1 r

/-- Some comb would hold a third CELL entry (R436). -/
def thirdCell (m es : List MapEnt) : Bool :=
  let all := es.foldl (fun a e => if a.any (entSame e ·) then a else a ++ [e]) m
  es.any fun e => e.ty == 2 && decide (3 ≤ cellsOf all e)

-- failures

/-- A hive becomes barren (R450). -/
def makeBarren (h : HiveId) (org : Byte) (s : State) : State :=
  let s := addLogged { ty := 6, org := org, b2 := BitVec.ofNat 8 h.val, b3 := 0 } s
  let work := s.workOn h
  let s := updHive h (fun hv => { hv with barren := true }) s
  saveMap (onSlots (hiveFault h 1) work (rprEvent 2 s))

/-- Mark the jobs with work on a failed hive as run on a spare (R448). -/
def markSpare (slot : Nat) (s : State) : State := updJob slot (fun j => { j with degr := j.degr ||| 2 }) s

/-- Ask the hives whose host moves for a stop (R447, R449). -/
def retireStops : List HiveId → State → State
  | [], s => s
  | h :: r, s =>
    match (s.hv h).run with
    | some p => retireStops r (askStop h (if ((s.job? p.slot).map (·.sealed)).getD false then .seal else .retire) s)
    | none => retireStops r s

/-- Retire the host of a physical column while its row has a free spare (R447). -/
def startRetire (row pcol cause : Nat) (org : Byte) (s : State) : State :=
  let s := addLogged { ty := 1, org := org, b2 := BitVec.ofNat 8 row, b3 := BitVec.ofNat 8 pcol } s
  if pcol = 12 then saveMap (rprEvent 1 s)
  else
    let moving := allHives.filter fun h => h.val / 12 == row && decide (pcol ≤ h.val % 12)
    match hiveOf? (row * 12 + pcol) with
    | none => s
    | some h =>
      let s := onSlots markSpare (s.workOn h) s
      saveMap (retireStops moving { s with rpr := { s.rpr with
        retire := s.rpr.retire ++ [{ row := row, pcol := pcol, hive := h.val, cause := cause, org := org, moving := moving }] } })

/-- A physical hive fails (R447, R450, R451). -/
def hiveFails (row pcol cause : Nat) (org : Byte) (s : State) : State :=
  let hive := (s.hosted row pcol).map (·.val)
  if s.rpr.retire.any fun r => r.row == row then
    { s with rpr := { s.rpr with failQ := s.rpr.failQ ++
      [{ row := row, pcol := pcol, hive := hive.getD 96, cause := cause, org := org, moving := [] }] } }
  else if s.spareFree row then startRetire row pcol cause org s
  else match s.hosted row pcol with
    | some h => if (s.hv h).barren then s else makeBarren h org s
    | none => s

-- inspections

/-- TARGET code of a physical hive. -/
def State.inspCode (s : State) (row pcol : Nat) : Nat :=
  match s.hosted row pcol with
  | some h => h.val
  | none => 0x60 + row

/-- A physical hive can be inspected: it hosts a logical hive that is idle (so neither gated nor barren) and does not move, or
it is a free spare. -/
def State.canInspect (s : State) (row pcol : Nat) : Bool :=
  !(s.rpr.insp.any fun i => i.row == row) && !(s.rpr.retire.any fun r => r.row == row) &&
  match s.hosted row pcol with
  | some h => s.idleHive h
  | none => decide (pcol = 12) && s.spareFree row

/-- The next hive of the round of periodic inspections in a row: the first from its place on that can be inspected (R442). -/
def State.nextInsp (s : State) (row : Nat) : Option Nat :=
  ((List.range 13).map fun k => (s.rpr.inspNext.getD row 0 + k) % 13).find? (s.canInspect row)

/-- An inspection begins; it runs at OVS0, so the rail of its row rises when it has to (R444). -/
def beginInsp (i : Insp) (s : State) : State :=
  let s := { s with rpr := { s.rpr with insp := s.rpr.insp ++ [i] } }
  if h : i.row < 8 then raiseRail ⟨i.row, h⟩ false s else s

/-- Start an inspection of a physical hive. -/
def startInsp (row pcol : Nat) (why : InspWhy) (held : Option HiveId) (s : State) : State :=
  beginInsp { target := s.inspCode row pcol, row := row, pcol := pcol, why := why, held := held } s

/-- The charge and the stage let a persistent-slab or rows-exhausted inspection start (R442). -/
def State.inspAdmits (s : State) : Bool := decide (s.pwr.stage ≤ 5) && s.chargeAdmits

/-- A persistent-slab or rows-exhausted inspection may start: the charge and the stage admit it, no other one runs in the row,
and the hive is neither gated nor does it run a program. -/
def State.inspStarts (s : State) (row pcol : Nat) : Bool :=
  s.inspAdmits && !(s.rpr.insp.any fun i => i.row == row) &&
  match s.hosted row pcol with
  | some h => (s.hv h).run.isNone && !(s.hv h).gated
  | none => true

/-- A persistent-slab or rows-exhausted inspection of the host of a logical hive, now or when it may start. -/
def wantInsp (h : HiveId) (why : InspWhy) (s : State) : State :=
  let row := h.val / 12
  let pcol := s.rpr.pcol.getD h.val 0
  if (s.rpr.insp ++ s.rpr.inspWait).any fun i => i.row == row && i.pcol == pcol && i.why == why then s
  else if s.inspStarts row pcol then startInsp row pcol why (some h) s
  else { s with rpr := { s.rpr with inspWait := s.rpr.inspWait ++
    [{ target := h.val, row := row, pcol := pcol, why := why, held := some h }] } }

/-- Start the inspections that wait and may start, in their order. -/
def startEach : List Insp → State → State
  | [], s => s
  | i :: r, s =>
    startEach r (if s.inspStarts i.row i.pcol then startInsp i.row i.pcol i.why i.held s
      else { s with rpr := { s.rpr with inspWait := s.rpr.inspWait ++ [i] } })

/-- Start what waits. -/
def startWaiting (s : State) : State :=
  if s.rpr.inspWait.isEmpty then s else startEach s.rpr.inspWait { s with rpr := { s.rpr with inspWait := [] } }

/-- End an inspection with a result, unless it is PF0's while none runs: RPR_INSP_STAT. -/
def inspResult (res cause target : Nat) (s : State) : State :=
  { s with rpr := { s.rpr with inspRes := BitVec.ofNat 3 res, inspCause := BitVec.ofNat 4 cause, inspResTarget := BitVec.ofNat 7 target } }

/-- Row and physical column of a PF0 target. -/
def State.inspPlace (s : State) (t : Nat) : Nat × Nat := if t < 96 then (t / 12, s.rpr.pcol.getD t 0) else (t - 0x60, 12)

/-- A PF0 inspection that GO asks for starts in stage 0, or is skipped (R442, Table 19.3). -/
def startPf0 (s : State) : State :=
  if s.rpr.inspGo && s.pwr.stage == 0 && !(s.rpr.insp.any fun i => i.why == .pf0) then
    let t := s.rpr.inspTarget.toNat
    let p := s.inspPlace t
    if s.canInspect p.1 p.2 && (decide (t < 96) || s.spareFree p.1) then
      beginInsp { target := t, row := p.1, pcol := p.2, why := .pf0 } s
    else inspResult 4 0 t { s with rpr := { s.rpr with inspGo := false } }
  else s

/-- A program that the queen held for a reason is free again. -/
def releaseFrom (w : StopWhy) (p : Prog) : Prog := if p.paused == some w then { p with paused := none } else p

end Sys2Proof.Machine
end

