-- ==== Sys2Proof/Machine/Arbiter.lean ====
section
/-! DEFINITION. Machine/Arbiter.lean: the transmit arbiter of the PCI Express link (R285, R289, R290; log entry 79). -/

namespace Sys2Proof.Machine

/-- Where a TLP stands with the arbiter (R289): express requests, the traffic of a colony (or of PF0, number 64), a forager
channel. -/
inductive Lane
  | express
  | host (i : Nat)
  | forager (k : Nat)
  deriving DecidableEq, Repr

/-- The number of a function among the host lanes. -/
def Fn.lane : Fn → Nat
  | .pf0 => 64
  | .vf c => c.val

/-- The lane of what is sent on the link; none for what leaves on another way. -/
def Tx.lane : Tx → Option Lane
  | .write fn k _ _ _ => match k with
    | .xpOutput | .xpRecord => some .express
    | .foragerData c | .foragerPoisoned c | .foragerStatus c => some (.forager c.val)
    | .output | .record => some (.host (Fn.lane fn))
  | .read fn key _ _ => match key with
    | .forDesc c | .forData c => some (.forager c.val)
    | .entry .. | .input .. => some (.host (Fn.lane fn))
  | .msix fn v _ _ => match fn with
    | .vf c => some (if v = 1 then .express else .host c.val)
    | .pf0 => some (.host 64)
  | _ => none

/-- A read request. -/
def Tx.isRead : Tx → Bool
  | .read .. => true
  | _ => false

/-- Requests without a completion that the part may have outstanding (R290). -/
def State.maxOutstanding (s : State) : Nat := if s.host.pf0.tag10 then 768 else 256

/-- Outstanding non-posted requests: reads transmitted and not yet completed. -/
def State.outstanding (s : State) : Nat := (s.host.reads.filter fun x => s.wired.contains x.1).length

/-- TLPs that wait, oldest first, each with its place and lane; reads wait while as many as R290 allows are outstanding. -/
def State.txWaiting (s : State) : List (Nat × Lane) :=
  (s.tx.reverse.zipIdx).filterMap fun x =>
    if x.2 < s.txFloor || s.wired.contains x.2 || (x.1.isRead && decide (s.maxOutstanding ≤ s.outstanding)) then none
    else x.1.lane.map fun l => (x.2, l)

/-- Lanes of the TLPs already transmitted, newest first. -/
def State.laneLog (s : State) : List Lane := s.wired.filterMap fun i => (s.tx.reverse[i]?).bind Tx.lane

/-- The turn of number i in a round of m whose last turn was that of `last`. -/
def turnOf (m : Nat) (last : Option Nat) (i : Nat) : Nat :=
  match last with
  | none => i
  | some n => (i + m - n % m - 1) % m

/-- The place of a waiting TLP in the choice of the arbiter (R289): express, then the colonies in turn, then the channels in
turn; the smallest goes first. -/
def State.arbRank (s : State) : Lane → Nat
  | .express => 0
  | .host i => 1 + turnOf 65 (s.laneLog.findSome? fun l => match l with | .host n => some n | _ => none) i
  | .forager k => 66 + turnOf 16 (s.laneLog.findSome? fun l => match l with | .forager n => some n | _ => none) k

/-- The earliest of the waiting TLPs whose rank is least. -/
def firstRank (rank : Lane → Nat) : List (Nat × Lane) → Option (Nat × Nat)
  | [] => none
  | (i, l) :: r =>
    match firstRank rank r with
    | none => some (i, rank l)
    | some (k, n) => if n < rank l then some (k, n) else some (i, rank l)

/-- The arbiter chooses at a TLP boundary (R289): one TLP leaves while the link is up. -/
def arbitrate (s : State) : State :=
  if !s.host.link.up then s
  else match firstRank s.arbRank s.txWaiting with
  | none => s
  | some (i, _) => { s with wired := i :: s.wired }

/-- The arbiter sends what waits, n TLPs at most. -/
def transmitN : Nat → State → State
  | 0, s => s
  | n + 1, s => transmitN n (arbitrate s)

/-- What waits is transmitted before the part itself takes the link down (R421, R465). -/
def transmitAll (s : State) : State := transmitN s.txWaiting.length s

end Sys2Proof.Machine
end

