-- ==== Sys2Proof/Machine/Waits.lean ====
section
/-! DEFINITION. Machine/Waits.lean: who waits for the expander, and the end of THROTTLED (R353 to R356). -/

namespace Sys2Proof.Machine

/-- Change the entropy part of the Guard. -/
def updEn (f : EntropySt → EntropySt) (s : State) : State := { s with guard := { s.guard with en := f s.guard.en } }

/-- The key manager waits for random bits: a SEAL or DRK_PROG whose bits have not been drawn (R372, R383). -/
def State.keyWaits (s : State) : Bool :=
  s.guard.busy && s.guard.drawn.isNone && s.guard.verdict.isNone && (s.guard.op = 1 || s.guard.op = 6)

/-- IVs that the cipher engine needs: one for each sealed program that a claimed hive holds stopped (R389). -/
def State.ivsWanted (s : State) : Nat :=
  ((allHives.filter fun h => (s.hv h).claimed).map fun h => ((s.hv h).wait.filter fun p => p.paused == some .seal).length).sum

/-- The cipher engine waits for an IV: a deferral whose hive has stopped holds sealed work (R389). -/
def State.cipherWaits (s : State) : Bool := decide (s.guard.en.ivs.length < s.ivsWanted)

/-- A hardware seed is asked for and none is on the wire for it (R50, R61). -/
def State.seedWaits (s : State) (k : Consumer) : Bool :=
  (match k with
    | .job n => ((s.job? n.val).map fun j => j.seedPend && j.st == .queued).getD false
    | .sp c => (s.co c).r.sp.busy
    | _ => false) && !(s.guard.en.wire.any fun x => x.1 == k)

/-- Some hardware seed is asked for. -/
def State.anySeed (s : State) : Bool :=
  (s.jobs.any fun j => if h : j.slot < 1024 then s.seedWaits (.job ⟨j.slot, h⟩) else false) ||
  (List.finRange 64).any fun c => s.seedWaits (.sp c)

/-- Leave THROTTLED when no request of the three prior consumers waits (R355). -/
def unthrottle (s : State) : State :=
  if s.guard.en.throttled && !s.keyWaits && !s.cipherWaits && !s.anySeed then updEn (fun e => { e with throttled := false }) s
  else s

end Sys2Proof.Machine
end

