-- ==== Sys2Proof/Machine/Idle.lean ====
section
/-! DEFINITION. Machine/Idle.lean: cycles that pass for a hive, and what one cycle without a command does (R396, R397,
R476, R481; log entry 1). -/

namespace Sys2Proof.Machine

/-- Counts on their way after n cycles more: those that remain (R83). -/
def ageLate (n : Nat) (l : List Landing) : List Landing :=
  (l.map fun x => { x with left := x.left - n }).filter fun x => x.left != 0

/-- n cycles pass for the program that runs on a hive, `wait` of them wait cycles (R476, R481). -/
def hiveCycles (h : HiveId) (n wait : Nat) (s : State) : State :=
  match (s.hv h).run with
  | none => s
  | some p =>
    let s := updHive h (fun hv => { hv with
      late := ageLate n hv.late, run := some { p with tr := { p.tr with cyc := p.tr.cyc + n, wait := p.tr.wait + wait } } }) s
    let s := cntHive h 0 n s
    let s := if p.lent then cntHive h 1 n s else s
    match s.job? p.slot with
    | none => s
    | some j =>
      let s := cntCol j.col 0 n s
      if p.lent then cntCol j.col 6 n s else s

/-- Change the program that runs on a hive. -/
def updRun (h : HiveId) (f : Prog → Prog) (s : State) : State := updHive h (fun hv => { hv with run := hv.run.map f }) s

/-- Bytes 16 to 30 of a STEP record (Table 22.3). -/
def stepTail (p : Prog) : List Byte :=
  leBytes 3 p.pc.toNat ++ [p.layer] ++ leBytes 2 p.tr.cyc ++ leBytes 2 p.tr.wait ++ leBytes 4 p.tr.slabs ++ leBytes 2 p.tr.replays ++
  [BitVec.ofNat 8 (min p.tr.tol 255)]

/-- The STEP record of a yield point that ends a step with at least one cycle that is no wait cycle, or of a program's end
(R481). -/
def stepRecord (h : HiveId) (code : Nat) (s : State) : State :=
  match (s.hv h).run with
  | none => s
  | some p =>
    if p.tr.wait < p.tr.cyc || code == 4 then updRun h (fun p => { p with tr := {} }) (glassHive 1 h p.slot code (stepTail p) s) else s

/-- The dancer passes or stops at a yield point: a new dance step begins (R134, R206 to R208). -/
def yieldPoint (h : HiveId) (code : Nat) (s : State) : State :=
  updRun h (fun p => { p with stepCycles := 0, stN := 0, stP := 0 }) (stepRecord h code s)

/-- A unit of c cycles is issued; a yield point falls before it where the step would pass 432 cycles (R207). -/
def spendUnit (h : HiveId) (c : Nat) (s : State) : State :=
  let due := match (s.hv h).run with
    | some p => decide (432 < p.stepCycles + c)
    | none => false
  let s := if due then yieldPoint h 2 s else s
  updRun h (fun p => { p with stepCycles := p.stepCycles + c }) (hiveCycles h c 0 s)

/-- w wait cycles pass for one program, all of them one yield point (R206). -/
def waitFor (h : HiveId) (w : Nat) (s : State) : State := if w = 0 then s else hiveCycles h w w (yieldPoint h 0 s)

/-- The program that runs on a hive has a comb that waits for the rail (R137): it stands inside a pass. -/
def State.combHeld (s : State) (h : HiveId) : Bool :=
  match (s.hv h).run with
  | some p => p.stuck
  | none => false

/-- One cycle passes for every program that runs: a wait cycle, which is a yield point (R206), but for one whose comb waits
for its rail (R138). -/
def waitCycles : List HiveId → State → State
  | [], s => s
  | h :: r, s => waitCycles r (if s.combHeld h then hiveCycles h 1 0 s else hiveCycles h 1 1 (yieldPoint h 0 s))

/-- Counts of a second. -/
def tbSecond : Nat := 1500000000

/-- Corrections a second that the slew asks for: holds while the timebase is ahead, skips while it is behind (R397). -/
def TbSt.slewRate (t : TbSt) : Int := if t.slew = 0 then 0 else if 0 < t.slew then -150000 else 150000

/-- The slew one cycle on: a count of it is gone for each correction that it has asked for (R397, R400). -/
def slewCycle (t : TbSt) : TbSt :=
  if t.slew = 0 then t
  else if t.slewPhase + 150000 < tbSecond then { t with slewPhase := t.slewPhase + 150000 }
  else { t with slewPhase := t.slewPhase + 150000 - tbSecond, slew := t.slew - (if 0 < t.slew then 1 else -1) }

/-- TB_SUB one cycle on (R397): it advances by 1, by 2 in the cycle of a skip and not in that of a hold. Trim and slew ask for
corrections a second, which are spread evenly: one is due whenever 1,500,000,000 parts have built up (log entry 82). The
rollover is a row of its own. -/
def tbCycle (t : TbSt) : TbSt :=
  if tbSecond ≤ t.sub + 1 then t
  else
    let p := t.phase + t.ftrim + t.slewRate
    let t := slewCycle t
    if p ≤ -(tbSecond : Int) then { t with phase := p + tbSecond }
    else if (tbSecond : Int) ≤ p ∧ t.sub + 2 < tbSecond then { t with phase := p - tbSecond, sub := t.sub + 2 }
    else { t with phase := p, sub := t.sub + 1 }

/-- What was detected in a cycle is not of the next one (R13, R321). -/
def cycleOver (s : State) : State :=
  { s with
    jobs := s.jobs.map fun j => { j with endNow := false }
    ports := s.ports.map fun p => { p with lossNow := false } }

/-- One cycle in which no command comes: the timebase counts, the transmit arbiter sends a TLP, and every running program
waits. -/
def idleCycle (s : State) : State :=
  let s := unthrottle (arbitrate (cycleOver { s with tb := tbCycle s.tb }))
  if allHives.all (fun h => (s.hv h).run.isNone) then s else waitCycles allHives s

end Sys2Proof.Machine
end

