-- ==== Sys2Proof/Machine/Entropy.lean ====
section
/-! DEFINITION. Machine/Entropy.lean: the health test, the expander and its consumers, the software port, raw-sample mode
and the test pattern (spec/15). -/

namespace Sys2Proof.Machine

/-- Ones among the low n bits of a number. -/
def popN : Nat → Nat → Nat
  | 0, _ => 0
  | n + 1, v => v % 2 + popN n (v / 2)

/-- Ones of a pair's window. -/
def winOnes (b : BitVec 4096) : Nat := popN 4096 b.toNat

/-- A_{k,p}: indices at which bit i and bit (i + k) mod 4,096 agree (R348). -/
def winAgree (b : BitVec 4096) (k : Nat) : Nat := 4096 - winOnes (b ^^^ b.rotateRight k)

/-- A signed Q1.15 estimate, saturating. -/
def estQ (v : Int) : BitVec 16 := BitVec.ofNat 16 (toField (satS v 16) 16)

/-- GRD_HT_BIAS before saturation (R348). -/
def biasOf (bits : List (BitVec 4096)) : Int := 2 * (((bits.map winOnes).sum : Nat) - 8192 : Int)

/-- GRD_HT_CORRk before saturation (R348). -/
def corrOf (bits : List (BitVec 4096)) (k : Nat) : Int :=
  2 * (bits.map fun b => (2 * (winAgree b k : Int) - 4096)).sum

-- conditioners (R345)

/-- Conditioned bits: how many, and bit i the i-th. -/
abbrev Bits := Nat × Nat

/-- Bits followed by further bits. -/
def Bits.join (a b : Bits) : Bits := (a.1 + b.1, a.2 + 2 ^ a.1 * b.2)

/-- What the conditioner makes of one raw pair b₂ₘ, b₂ₘ₊₁: XOR, or von Neumann (R345). -/
def condPair (vn : Bool) (a b : Bool) : Bits := if vn then (if a == b then (0, 0) else (1, b2n a)) else (1, b2n (a ^^ b))

/-- Conditioned bits of the first m of 2^k raw pairs, which stand as bits from the lowest. -/
def condBits (vn : Bool) : Nat → Nat → Nat → Bits
  | 0, m, v => if m = 0 then (0, 0) else condPair vn (v.testBit 0) (v.testBit 1)
  | k + 1, m, v =>
    if m = 0 then (0, 0)
    else (condBits vn k (min m (2 ^ k)) (v % 2 ^ (2 ^ (k + 1)))).join (condBits vn k (m - 2 ^ k) (v / 2 ^ (2 ^ (k + 1))))

/-- Raw samples of a pair under the test pattern from sample i on: bit (i + 8p) mod 32 of the pattern (R365). -/
def patBits (pat : Word) (p i n : Nat) : Nat :=
  let w := (pat.rotateRight ((i + 8 * p) % 32)).toNat
  w * ((2 ^ (32 * (n / 32 + 1)) - 1) / (2 ^ 32 - 1)) % 2 ^ n

/-- n raw bits reach a pair's conditioner, whose bits join the window in progress. -/
def PairSt.take (vn : Bool) (n v : Nat) (x : PairSt) : PairSt :=
  let (m, r) := match x.odd with
    | some b => (n + 1, b2n b + 2 * v)
    | none => (n, v)
  let c := Bits.join (x.n, x.bits) (condBits vn (Nat.log2 m + 1) (m / 2) r)
  { x with n := c.1, bits := c.2, samples := x.samples + n, odd := if m % 2 = 1 then some (r.testBit (m - 1)) else none }

-- runs of equal bits (R349)

/-- Equal runs of a stretch of bits: its length, first and last bit, the runs at its two ends, and the longest. -/
structure Runs where
  len : Nat := 0
  first : Bool := false
  last : Bool := false
  pre : Nat := 0
  suf : Nat := 0
  best : Nat := 0
  deriving DecidableEq, Repr

/-- A stretch followed by another. -/
def Runs.join (a b : Runs) : Runs :=
  if a.len = 0 then b
  else if b.len = 0 then a
  else
    let eq := a.last == b.first
    { len := a.len + b.len, first := a.first, last := b.last
      pre := if a.pre = a.len && eq then a.len + b.pre else a.pre
      suf := if b.suf = b.len && eq then b.len + a.suf else b.suf
      best := max (max a.best b.best) (if eq then a.suf + b.pre else 0) }

/-- The runs of one bit. -/
def Runs.one (b : Bool) : Runs := { len := 1, first := b, last := b, pre := 1, suf := 1, best := 1 }

/-- The runs of the first m of 2^k bits. -/
def runsOf : Nat → Nat → Nat → Runs
  | 0, m, v => if m = 0 then {} else Runs.one (v.testBit 0)
  | k + 1, m, v => if m = 0 then {} else (runsOf k (min m (2 ^ k)) (v % 2 ^ (2 ^ k))).join (runsOf k (m - 2 ^ k) (v / 2 ^ (2 ^ k)))

/-- The runs of a pair's first m bits of the window in progress, with the run that reaches into it. -/
def PairSt.runs (x : PairSt) (m : Nat) : Runs :=
  Runs.join { len := x.run, first := x.last, last := x.last, pre := x.run, suf := x.run, best := 0 } (runsOf 12 (min m 4096) x.bits)

/-- The pair has delivered 64 consecutive equal bits among the first m of the window (R349). -/
def PairSt.stuck (x : PairSt) (m : Nat) : Bool := decide (64 ≤ (x.runs m).best)

/-- The pair after a window of m of its bits: later bits begin the next window (R347). -/
def PairSt.after (x : PairSt) (m : Nat) : PairSt :=
  let r := x.runs m
  { x with n := x.n - m, bits := x.bits / 2 ^ m, run := r.suf, last := r.last }

/-- The reasons of Table 15.1 as bits BIAS, CORR1 to CORR4, STUCK, STARVED. -/
def winReasons (bits : List (BitVec 4096)) (stuck : Bool) : BitVec 7 :=
  BitVec.ofNat 7 (b2n (decide (983 < (biasOf bits).natAbs)) +
    ((List.range 4).map fun k => 2 ^ (k + 1) * b2n (decide (1638 < (corrOf bits (k + 1)).natAbs))).sum +
    32 * b2n stuck)

/-- The 16,384 bits of a window in rotation over the pairs, as bytes (R351). -/
def winBits (bits : List (BitVec 4096)) : List Byte :=
  (List.range 2048).map fun i =>
    BitVec.ofNat 8 (((List.range 8).map fun j =>
      2 ^ (7 - j) * b2n ((bits.getD (j % 4) 0).getLsbD (2 * i + j / 4))).sum)

/-- The 16 blocks of 1,024 bits (R351). -/
def winBlocks (bits : List (BitVec 4096)) : List (List Byte) := chunksOf 128 16 (winBits bits)

/-- End a queued job with SEED_UNAVAILABLE (R51, R359). -/
def seedLost (slot : Nat) (s : State) : State := endJob slot { code := .seedUnavailable } (.cancel 0) s

/-- Refuse the HWKEY request of a colony (R61, R359). -/
def spRefuse (c : ColId) (s : State) : State :=
  if (s.co c).r.sp.busy then
    updVf c (fun r => { r with sp := { r.sp with busy := false, stat := setBit r.sp.stat 2 } }) s
  else s

/-- `spRefuse` for several colonies. -/
def spRefuseAll : List ColId → State → State
  | [], s => s
  | c :: r, s => spRefuseAll r (spRefuse c s)

/-- The test trips (R358, R359): the expander halts and is zeroized, waiting seeds are lost. -/
def trip (s : State) : State :=
  let waiting := (s.jobs.filter fun j => j.seedPend).map (·.slot)
  let s := updEn (fun e => { e with
    drbg := {}, calls := 0, blocks := [], port := [], portReq := true, wire := [], ivs := [], dead := true, ready := false, throttled := false }) s
  let s := postEvent .grd 1 s
  latchAlert (spRefuseAll (List.finRange 64) (onSlots seedLost waiting s))

/-- A window closes with a failure (R349, R350). -/
def winFail (reasons : BitVec 7) (s : State) : State :=
  let run := if s.guard.en.run = 2 then 2 else s.guard.en.run + 1
  let s := updEn (fun e => { e with lastFail := true, reasons := reasons, run := run, passes := 0, win := e.win + 1 }) s
  let s := postEvent .grd 2 s
  if run = 2 && !s.guard.en.dead then trip s else s

/-- Instantiate the expander from two blocks (R352, R353). -/
def instantiate (e : EntropySt) : EntropySt :=
  match e.blocks with
  | a :: b :: r => { e with
      drbg := drbgInstantiate a b (leBytes 8 Config.dsn.toNat), blocks := r, startup := false, ready := true
      needReseed := false, calls := 0 }
  | _ => e

/-- A window closes and passes (R350, R351, R352). -/
def winPass (bits : List (BitVec 4096)) (s : State) : State :=
  updEn (fun e =>
    let e := { e with lastFail := false, reasons := 0, run := 0, win := e.win + 1, passes := e.passes + 1
                      blocks := if e.dead then [] else winBlocks bits }
    if e.startup && decide (2 ≤ e.passes) && !e.dead && !e.raw then instantiate e else e) s

/-- Raw samples reach the pairs: those of the command, or those of the test pattern (R365). -/
def EntropySt.sample (raw : List (Nat × Nat)) (e : EntropySt) : Vector PairSt 4 :=
  Vector.ofFn fun p =>
    let x := e.pairs[p]
    let (n, v) := raw.getD p.val (0, 0)
    x.take e.cond n (if e.tp then patBits e.tpPat p.val x.samples n else v)

/-- The window's bits of the four pairs. -/
def EntropySt.window (e : EntropySt) : List (BitVec 4096) := e.pairs.toList.map fun x => BitVec.ofNat 4096 x.bits

/-- Every pair has delivered its 4,096 bits of the window (R347). -/
def EntropySt.full (e : EntropySt) : Bool := e.pairs.toList.all fun x => decide (4096 ≤ x.n)

/-- A window closes: its estimates are written, it passes or fails, and the next window begins (R347 to R350). -/
def closeWindow (s : State) : State :=
  let e := s.guard.en
  let bits := e.window
  let stuck := e.pairs.toList.any fun x => x.stuck 4096
  let s := updEn (fun e => { e with
    bias := estQ (biasOf bits), corr := Vector.ofFn fun k => estQ (corrOf bits (k.val + 1)), pairs := e.pairs.map fun x => x.after 4096 }) s
  let r := winReasons bits stuck
  if r = 0 then winPass bits s else winFail r s

/-- HT_WINDOW_CLOSE (R345, R347 to R352, R358): raw bits of the four pairs, for each how many and bit i the i-th, pass the
conditioners; the window closes when the slowest pair has delivered its 4,096th bit. -/
def execHtWindowClose (ns bits : List Nat) (s : State) : Host.Outcome State Fault Refusal :=
  let s := updEn (fun e => { e with pairs := e.sample (ns.zip bits) }) s
  .next (if s.guard.en.full then closeWindow s else s)

/-- HT_STARVED (R349): the window fails at that moment, with STUCK where a run of its bits gives that reason too, and the next
window begins. Its estimates keep their values: no window closed with 4,096 bits of every pair (DEDUCED, log entry 13). -/
def execHtStarved (_pair : Fin 4) (s : State) : Host.Outcome State Fault Refusal :=
  let stuck := s.guard.en.pairs.toList.any fun x => x.stuck x.n
  let s := updEn (fun e => { e with pairs := e.pairs.map fun x => x.after x.n }) s
  .next (winFail (BitVec.ofNat 7 (64 + 32 * b2n stuck)) s)

-- the expander

/-- The expander can serve a call: it is instantiated and not halted, not raw, no reseed is owed (R346, R354, R364). -/
def EntropySt.serves (e : EntropySt) : Bool :=
  e.ready && !e.dead && !e.startup && !e.raw && !e.needReseed &&
  decide (e.calls.toNat < if e.throttled then 2 ^ 16 else 2 ^ 20)

/-- A reseed is due or owed (R346, R354, R355). -/
def EntropySt.reseedDue (e : EntropySt) : Bool := e.needReseed || decide (2 ^ 16 ≤ e.calls.toNat)

/-- One reseed from a stored block (R353, R354); at the stretch limit THROTTLED follows. -/
def reseed (s : State) : State :=
  match s.guard.en.blocks with
  | [] => s
  | b :: r =>
    let limit := s.guard.en.calls.toNat = 2 ^ 20 && !s.guard.en.throttled
    let s := updEn (fun e => { e with
      drbg := drbgReseed e.drbg b, blocks := r, calls := 0, rseed := satInc e.rseed, needReseed := false }) s
    if limit then postEvent .grd 4 (updEn (fun e => { e with throttled := true }) s) else s

/-- At the stretch limit the expander reseeds, if it holds a block, before any further call (R354). -/
def throttle (s : State) : State := if s.guard.en.calls.toNat = 2 ^ 20 then reseed s else s

/-- One generate call of n bytes (R353). -/
def genCall (n : Nat) (s : State) : List Byte × State :=
  let (o, d) := drbgGenerate s.guard.en.drbg n
  (o, throttle (updEn (fun e => { e with drbg := d, calls := e.calls + 1 }) s))

/-- End raw-sample mode: the FIFO, the window and the blocks go, and a reseed is owed (R364). -/
def rawStop (s : State) : State :=
  updEn (fun e => { e with raw := false, rawReq := false, rawAsk := false, fifo := [], blocks := [], pairs := Vector.replicate 4 {}, needReseed := e.needReseed || !e.dead }) s

/-- The Guard revokes raw-sample mode (R364). -/
def rawRevoke (s : State) : State :=
  if s.guard.en.raw then postEvent .grd 16 (rawStop s) else s

/-- The place of a consumer in Table 15.2. -/
def Consumer.place : Consumer → Fin 4
  | .keyManager => 0
  | .cipher => 1
  | .job _ | .sp _ => 2
  | .port => 3

/-- The expander delivers to the port: its buffer is empty and it is not the THROTTLED state (R355, R356). -/
def EntropySt.portWaits (e : EntropySt) : Bool := e.portReq && e.port.isEmpty && !e.throttled

/-- A consumer of a place waits; with the test pattern only the port is served (R365). -/
def State.placeWaits (s : State) (i : Fin 4) : Bool :=
  let open_ := !s.guard.en.tp
  match i with
  | 0 => open_ && s.keyWaits
  | 1 => open_ && s.cipherWaits
  | 2 => open_ && s.anySeed
  | 3 => s.guard.en.portWaits

/-- The order in which waiting consumers are served: in THROTTLED strict priority, else round-robin from the one served last
(R354, R355). -/
def EntropySt.order (e : EntropySt) : List (Fin 4) :=
  if e.throttled then [0, 1, 2] else [e.turn + 1, e.turn + 2, e.turn + 3, e.turn]

/-- The consumer whose turn it is. -/
def State.nextPlace (s : State) : Option (Fin 4) := s.guard.en.order.find? s.placeWaits

/-- A consumer may be served now: the expander serves, the request waits, and it is its turn. -/
def State.maySend (s : State) (k : Consumer) : Bool :=
  s.guard.en.serves && s.nextPlace == some (Consumer.place k) &&
  match k with
  | .job _ | .sp _ => s.seedWaits k
  | _ => true

/-- A request of a place has been served. -/
def served (k : Consumer) (s : State) : State := unthrottle (updEn (fun e => { e with turn := Consumer.place k }) s)

/-- GENERATE_CALL (R353 to R355, R364): one consumer request is served by one call. A request of the key manager or the cipher
engine has revoked raw-sample mode. -/
def execGenerateCall (k : Consumer) (s : State) : Host.Outcome State Fault Refusal :=
  let s := if (k == .keyManager && s.keyWaits) || (k == .cipher && s.cipherWaits) then rawRevoke s else s
  if !s.maySend k then .next s
  else match k with
  | .keyManager =>
    let (o, t) := genCall 32 s
    .next (served k { t with guard := { t.guard with drawn := some o } })
  | .cipher =>
    let (o, t) := genCall 12 s
    .next (served k (updEn (fun e => { e with ivs := e.ivs ++ [o] }) t))
  | .job _ | .sp _ =>
    let (o, t) := genCall 8 s
    .next (served k (updEn (fun e => { e with wire := e.wire ++ [(k, BitVec.ofNat 64 (leNat o))] }) t))
  | .port =>
    let (o, t) := genCall 16 s
    .next (served k (updEn (fun e => { e with port := bytesToWords o, portReq := false }) t))

/-- No request of any consumer waits. -/
def State.noneWaits (s : State) : Bool := !s.keyWaits && !s.cipherWaits && !s.anySeed && !s.guard.en.portWaits

/-- DRBG_RESEED (R346, R354, R355, R364): the expander reseeds when a reseed is owed, or is due and no request waits, or at
the limit; the THROTTLED state ends when nobody of the three prior consumers waits. -/
def execDrbgReseed (s : State) : Host.Outcome State Fault Refusal :=
  let e := s.guard.en
  if e.ready && !e.dead && !e.raw && e.reseedDue && !e.blocks.isEmpty &&
     (e.needReseed || e.throttled || s.noneWaits || decide (2 ^ 20 ≤ e.calls.toNat)) then
    .next (unthrottle (reseed s))
  else .next (unthrottle s)

-- the software port

/-- GRD_RNG_STAT (spec/15). -/
def EntropySt.rngStat (e : EntropySt) : Word :=
  mkWord [(0, 3, e.port.length), (3, 1, b2n e.noData), (4, 1, b2n e.notReady)]

/-- Read the software port (R356, R357): the oldest word, or 0 with a status bit. -/
def portRead (s : State) : Word × State :=
  match s.guard.en.port with
  | w :: r =>
    if s.guard.en.raw || s.guard.en.throttled then (0, updEn (fun e => { e with notReady := true }) s)
    else (w, updEn (fun e => { e with port := r, portReq := e.portReq || r.isEmpty }) s)
  | [] =>
    if s.guard.en.dead then (0, updEn (fun e => { e with noData := true }) s)
    else (0, updEn (fun e => { e with notReady := true, portReq := true }) s)

-- raw-sample mode

/-- RAW_REQ (R362): REQ is set and the Guard will answer. -/
def execRawReq (s : State) : Host.Outcome State Fault Refusal :=
  .next (if s.guard.en.rawReq then s else updEn (fun e => { e with rawReq := true, rawAsk := true }) s)

/-- RAW_ANSWER (R362): refused while a colony is sealed or a key request waits, else granted. -/
def execRawAnswer (s : State) : Host.Outcome State Fault Refusal :=
  if !s.guard.en.rawAsk then .next s
  else if s.guard.seals != 0 || s.keyWaits || s.cipherWaits then
    .next (postEvent .grd 8 (updEn (fun e => { e with rawReq := false, rawAsk := false }) s))
  else .next (updEn (fun e => { e with raw := true, rawAsk := false, fifoAt := 0 }) s)

/-- RAW_END (R364): PF0 writes 0 to REQ. -/
def execRawEnd (s : State) : Host.Outcome State Fault Refusal :=
  .next (if s.guard.en.raw then rawStop s else updEn (fun e => { e with rawReq := false, rawAsk := false }) s)

/-- Samples that a word of the FIFO takes of each pair that it names: 32 of one, or 8 of each of the four. -/
def EntropySt.wordSamples (e : EntropySt) : Nat := if e.sel = 4 then 8 else 32

/-- The word of 32 raw bits, the first in bit 0: those of the pair that SEL names, or of all four in the rotation of R344
(R363). -/
def EntropySt.rawWord (raw : List Word) (e : EntropySt) : Word :=
  let of := fun (p : Nat) => if e.tp then BitVec.ofNat 32 (patBits e.tpPat p e.fifoAt 32) else raw.getD p 0
  if e.sel = 4 then BitVec.ofNat 32 (((List.range 32).map fun i => 2 ^ i * b2n ((of (i % 4)).getLsbD (i / 4))).sum)
  else of e.sel.toNat

/-- RAW_FIFO_WORD (R363): `raw` gives the next raw bits of each pair, the first in bit 0; a full FIFO drops the word. -/
def execRawFifoWord (raw : List Word) (s : State) : Host.Outcome State Fault Refusal :=
  let e := s.guard.en
  if !e.raw then .next s
  else
    let t := updEn (fun e => { e with fifoAt := e.fifoAt + e.wordSamples }) s
    if e.fifo.length < 1024 then .next (updEn (fun x => { x with fifo := x.fifo ++ [e.rawWord raw] }) t)
    else .next (updEn (fun e => { e with ovf := true }) t)

/-- Read the raw FIFO (R363). -/
def rawRead (s : State) : Word × State :=
  match s.guard.en.fifo with
  | w :: r => (w, updEn (fun e => { e with fifo := r }) s)
  | [] => (0, updEn (fun e => { e with empty := true }) s)

-- configuration

/-- COND (R346): a change switches the conditioner and discards the window and the blocks; FIELD_SEALED locks it. -/
def execCond (v : Bool) (s : State) : Host.Outcome State Fault Refusal :=
  if s.guard.locked || s.guard.en.cond == v then .next s
  else .next (updEn (fun e => { e with cond := v, pairs := Vector.replicate 4 {}, blocks := [], needReseed := true }) s)

/-- The test pattern is turned on or off: window and blocks are discarded, and the start-up phase restarts (R365). -/
def tpTurn (v : Bool) (e : EntropySt) : EntropySt :=
  { e with
    tp := v, pairs := Vector.replicate 4 {}, fifoAt := 0, blocks := [], startup := true, ready := false, passes := 0, drbg := {}, calls := 0 }

/-- TEST_PATTERN_EN (R365): acts in FACTORY only. -/
def execTestPatternEn (v : Bool) (s : State) : Host.Outcome State Fault Refusal :=
  .next (if s.guard.lc != 1 || s.guard.en.tp == v then s else updEn (tpTurn v) s)

end Sys2Proof.Machine
end

