-- ==== Sys2Proof/Machine/Route.lean ====
section
/-! DEFINITION. Machine/Route.lean: routes of the swarm map in force and their healing (Table 14.1, R329, R332, R340). -/

namespace Sys2Proof.Machine

/-- A station is on the air: it holds a place in the map. -/
def State.inSwarm (s : State) : Bool := s.swarm.st == .member || s.swarm.st == .draining

/-- The first station of a job's span that no route reaches (R329). -/
def State.unreached (s : State) (j : Job) : Option StnId :=
  (s.others j).find? fun a => !s.inSwarm || !s.swarm.has a.val || (s.swarm.route s.stn.val a.val).isNone

/-- The reach of a span (R332). -/
def State.reachOf (s : State) (span : DWord) : DWord :=
  let st := maskStns (span ||| BitVec.ofNat 64 (2 ^ s.stn.val))
  stnsMask (st ++ st.flatMap fun a => st.flatMap fun b => (s.swarm.route a b).getD [])

/-- The station that plays the part of a station in a job (R342). -/
def Job.actor (j : Job) (a : Nat) : Nat :=
  match j.role with
  | some (old, new) => if a = old then new else a
  | none => a

end Sys2Proof.Machine
end

