-- ==== Sys2Proof/Machine/Guard.lean ====
section
/-! DEFINITION. Machine/Guard.lean: the Guard reset, the Guard commands, sealed colonies, deferrals and resumes
(spec/15 R361, spec/16). -/

namespace Sys2Proof.Machine

-- key records

/-- GRD_KEY_STAT word of the root key in force. -/
def GuardSt.key (g : GuardSt) : Option (BitVec 256) := if g.keysValid then g.drk else none

/-- The CMAC of a key record under the key record key. -/
def recMac (d : BitVec 256) (bs : List Byte) : BitVec 128 := cmac (kdf d labKrec) bs

/-- R376: a record is valid. -/
def KeyRec.valid (g : GuardSt) (r : KeyRec) : Bool :=
  match g.key with
  | none => false
  | some d => r.complete && r.cmac == recMac d r.bytes

/-- The record in force of the two sectors (R377): B only when it is valid and newer than a valid A. -/
def GuardSt.pick (g : GuardSt) : Option Bool :=
  let a := g.recA.filter (KeyRec.valid g)
  let b := g.recB.filter (KeyRec.valid g)
  match a, b with
  | none, none => none
  | some _, none => some false
  | none, some _ => some true
  | some x, some y => some (decide (x.gen < y.gen))

/-- The key record in force. -/
def GuardSt.rec? (g : GuardSt) : Option KeyRec :=
  match g.inForce with
  | none => none
  | some b => if b then g.recB else g.recA

/-- Bytes of a block all 0 in [a, a+n). -/
def zeros (bs : List Byte) (a n : Nat) : Bool := ((bs.drop a).take n).all (· == 0)

/-- R376, R382: MAGIC, reserved fields and the index of each entry. -/
def keyBlockOk (bs : List Byte) : Bool :=
  bs.take 4 == [0x53, 0x4B, 0x4B, 0x52] && decide (u8 bs 8 < 2) && zeros bs 9 7 && zeros bs 944 16 &&
  (List.range 8).all fun k =>
    let o := 112 + 104 * k
    u8 bs o == k && decide (u8 bs (o + 1) < 2) && zeros bs (o + 2) 6

/-- The owner key of a record's bytes. -/
def ownerOf (bs : List Byte) : Option PubKey := if u8 bs 8 % 2 = 1 then some { x := uN bs 16 48, y := uN bs 64 48 } else none

/-- The valid wax keys of a record's bytes. -/
def waxKeysOf (bs : List Byte) : List (Nat × PubKey) :=
  ((List.range 8).filter fun k => u8 bs (113 + 104 * k) % 2 = 1).map fun k =>
    (k, { x := uN bs (120 + 104 * k) 48, y := uN bs (168 + 104 * k) 48 })

/-- The record that a block becomes at a generation (R378, R382). -/
def mkKeyRec (d : BitVec 256) (blk : List Byte) (gen : Nat) : KeyRec :=
  let bs := blk.take 4 ++ leBytes 4 gen ++ (blk.drop 8).take 952
  { gen := gen, owner := ownerOf bs, wax := waxKeysOf bs, bytes := bs, cmac := recMac d bs }

/-- An entry of the key log with its CMAC (R378); the manual gives no layout, so the bytes are opaque. -/
def mkLog (d : BitVec 256) (done : Bool) (gen : Nat) : KeyLogEnt :=
  { done := done, gen := gen, cmac := cmac (kdf d labLogk) (Config.argBytes 256 (b2n done) [gen]) }

/-- GEN in force, 0 without a record. -/
def GuardSt.gen (g : GuardSt) : Nat := (g.rec?.map (·.gen)).getD 0

/-- The sector that the next record takes: the one that does not hold the record in force; A without one. -/
def GuardSt.nextB (g : GuardSt) : Bool := g.inForce == some false

/-- Steps 1 and 2 of R378: the intent entry, and the other sector erased. -/
def keyStart (g : GuardSt) : GuardSt :=
  match g.key with
  | none => g
  | some d =>
    let g := { g with log := g.log ++ [mkLog d false (g.gen + 1)] }
    if g.nextB then { g with recB := none } else { g with recA := none }

/-- Steps 3 to 5 of R378: the record is whole and in force, and the done entry stands. -/
def keyFinish (blk : List Byte) (g : GuardSt) : GuardSt :=
  match g.key with
  | none => g
  | some d =>
    let r := mkKeyRec d blk (g.gen + 1)
    let log := g.log ++ [mkLog d true (g.gen + 1)]
    if g.nextB then { g with recB := some r, inForce := some true, log := log }
    else { g with recA := some r, inForce := some false, log := log }

/-- R379: the log holds an intent that neither a done entry nor a valid record answers. -/
def GuardSt.lostUpdate (g : GuardSt) : Bool :=
  g.log.any fun e => !e.done && !(g.log.any fun f => f.done && f.gen == e.gen) &&
    !([g.recA, g.recB].any fun r => match r with
      | some r => r.gen == e.gen && r.valid g
      | none => false)

-- claims of commands (R373, R381)

/-- Claim the cipher engine. -/
def ceClaim (g : GuardSt) : GuardSt := { g with ceClaimed := true, ceGated := false }

/-- End the claim of the cipher engine; a gate asked for takes effect. -/
def ceRelease (g : GuardSt) : GuardSt := { g with ceClaimed := false, ceDefer := false, ceGated := g.ceGate }

/-- The wax controller uses the engine: the HASH and the signature of its checks, the read-back of a slot, the CMAC of a
commit record (Table 16.2, R152, R160, R165). -/
def State.waxUsesCe (s : State) : Bool := s.wax.st == .checking || s.wax.st == .writing || s.wax.st == .committing

/-- The claim follows the need of the engine (R373): a Guard command or the wax controller holds it, and it ends with the
last of them. -/
def ceFollow (s : State) : State :=
  if s.guard.busy || s.waxUsesCe then { s with guard := ceClaim s.guard }
  else if s.guard.ceClaimed then { s with guard := ceRelease s.guard }
  else s

/-- The supers address of the argument block. -/
def State.cmdSrc (s : State) : Nat := alignDown (s.guard.src.toNat % 2 ^ 35) 6

/-- The argument block of KEY_UPDATE. -/
def State.keyBlock (s : State) : List Byte := memReadN s.sup.mem s.cmdSrc 1056

/-- The first refusal of a list. -/
def firstRefusal : List (Bool × Byte) → Option Byte
  | [] => none
  | (b, r) :: t => if b then some r else firstRefusal t

/-- R382: the owner's signature over the block verifies. -/
def State.keyAuth (s : State) (blk : List Byte) : Bool :=
  match s.guard.rec?.bind (·.owner) with
  | none => false
  | some q => ecdsaVerify (q.x, q.y) (sha384 (blk.take 4 ++ [0, 0, 0, 0] ++ (blk.drop 8).take 952)) (uN blk 960 48) (uN blk 1008 48)

/-- KEY_UPDATE is accepted (R382; log entry 16). -/
def State.keyVerdict (s : State) : Option Byte :=
  let a := s.cmdSrc
  firstRefusal
    [(!s.guard.keysValid, 2),
     (decide (a < 0x4000000) || decide (0x800000000 < a + 1056) || s.sup.ue.any (fun w => decide (a ≤ w + 7) && decide (w < a + 1056)), 3),
     (s.guard.lc == 3 && !s.keyAuth s.keyBlock, 4), (!keyBlockOk s.keyBlock, 3)]

/-- The argument block of a KEY_UPDATE is read through the claimed channel and checked (R381, R382); an accepted update appends
its intent and erases the other sector (R378). Uncorrectable words of the block are noted (R236). -/
def keyRead (s : State) : State :=
  let g := s.guard
  if g.op != 3 || g.verdict.isSome || !g.blk.isEmpty then s
  else
    let a := s.cmdSrc
    let read := g.keysValid && decide (sysBytes ≤ a) && decide (a + 1056 ≤ supBytes)
    let g := { g with verdict := s.keyVerdict, blk := s.keyBlock }
    noteUe (if read then s.ueIn a 1056 else []) { s with guard := if g.verdict.isNone then keyStart g else g }

/-- Claim the command's forager channel unless a descriptor is in progress there (R381). -/
def claimChannel (s : State) : State :=
  let k : ChanId := ⟨s.guard.ch.toNat, s.guard.ch.isLt⟩
  if s.guard.busy && (s.host.forager[k]).cur.isNone then keyRead (updFor k (fun f => { f with claimed := true }) s) else s

/-- Release the command's channel; a deferred gate takes effect (R286). -/
def releaseChannel (s : State) : State :=
  updFor ⟨s.guard.ch.toNat, s.guard.ch.isLt⟩ (fun f =>
    { f with claimed := false, claimDefer := false, gated := if f.claimDefer then f.gate else f.gated }) s

/-- A GRD_CMD write starts a command (R381): busy answers BUSY; otherwise the engine and the channel are claimed, the
acceptance checks give their verdict, and a request for random bits revokes raw-sample mode (R364). -/
def startCmd (op : Byte) (col : BitVec 6) (verdict : Option Byte) (s : State) : State :=
  if s.guard.busy then { s with guard := { s.guard with result := 1 } }
  else
    let s := { s with guard := ceClaim { s.guard with
      busy := true, op := op, col := col, verdict := verdict, drawn := none, blk := [], ch := s.guard.fch } }
    claimChannel (if s.keyWaits then rawRevoke s else s)

/-- Some job of the colony is in flight (R238). -/
def State.colBusy (s : State) (c : ColId) : Bool := s.jobs.any fun j => j.col == c

/-- Largest total of SCRATCH bytes on one hive of a partition (R385). -/
def State.scratchMax (s : State) (part : Nat) : Nat :=
  (allHives.map fun h => ((s.scratchOf part h).map (·.2)).sum).foldl max 0

/-- SEAL is accepted (R375, R385, Table 16.4); a sealed colony answers ARG (log entry 16). -/
def State.sealVerdict (s : State) (c : ColId) : Option Byte :=
  firstRefusal
    [(!s.guard.keysValid || s.guard.lc == 1, 2), (s.colBusy c || (s.model? c.val).isNone, 8),
     (s.wax.none_ || (s.wax.img.part? c.val).isNone || ((s.co c).span &&& ~~~(BitVec.ofNat 64 (2 ^ s.stn.val))) != 0 ||
       decide (262144 < s.scratchMax c.val) || s.isSealed c, 3)]

/-- SEAL (R385). -/
def execSeal (c : ColId) (s : State) : Host.Outcome State Fault Refusal :=
  .next (startCmd 1 (BitVec.ofNat 6 c.val) (s.sealVerdict c) s)

/-- UNSEAL (R388). -/
def execUnseal (c : ColId) (s : State) : Host.Outcome State Fault Refusal :=
  .next (startCmd 2 (BitVec.ofNat 6 c.val)
    (firstRefusal [(!s.guard.keysValid || s.guard.lc == 1, 2), (!s.isSealed c, 3), (s.colBusy c, 8)]) s)

/-- KEY_UPDATE (R381, R382): the block is checked as soon as the channel is the Guard's. -/
def execKeyUpdate (s : State) : Host.Outcome State Fault Refusal := .next (startCmd 3 0 none s)

/-- LC_OPEN (R374, Table 16.4). -/
def execLcOpen (s : State) : Host.Outcome State Fault Refusal :=
  .next (startCmd 4 0 (firstRefusal [(!s.guard.keysValid || s.guard.lc != 1, 2)]) s)

/-- LC_SEAL (R375, R181). -/
def execLcSeal (s : State) : Host.Outcome State Fault Refusal :=
  .next (startCmd 5 0 (firstRefusal
    [(!s.guard.keysValid || s.guard.lc != 2, 2), (s.wax.st != .idle, 7),
     (match s.guard.rec? with | some r => r.owner.isNone || r.wax.isEmpty | none => true, 9)]) s)

/-- DRK_PROG (R383). -/
def execDrkProg (s : State) : Host.Outcome State Fault Refusal :=
  .next (startCmd 6 0 (firstRefusal [(s.guard.lc != 1 || !s.guard.drkBlank, 2)]) s)

-- sealing

/-- Claim every ungated hive of a partition. -/
def claimHives : List HiveId → State → State
  | [], s => s
  | h :: r, s => claimHives r (if (s.hv h).gated then s else updHive h (fun hv => { hv with claimed := true }) s)

/-- Release the claims of several hives. -/
def unclaimAll : List HiveId → State → State
  | [], s => s
  | h :: r, s => unclaimAll r (unclaim h s)

/-- The effect of SEAL (R385): key, claims, seal bit, raw-sample mode revoked; the hives are reloaded (log entry 14). -/
def sealColony (c : ColId) (key : List Byte) (s : State) : State :=
  let hs := s.hivesOwned c.val
  let s := claimHives hs s
  rawRevoke (reloadAll (hs.filter fun h => (s.hv h).claimed) { s with guard := { s.guard with
    seals := s.guard.seals ||| BitVec.ofNat 64 (2 ^ c.val)
    sealKeys := (s.guard.sealKeys.filter fun k => k.1 != c.val) ++ [(c.val, key)] } })

/-- Clear the seal, the key and the save sets of a colony. -/
def dropSeal (c : ColId) (s : State) : State :=
  { s with guard := { s.guard with
      seals := s.guard.seals &&& ~~~(BitVec.ofNat 64 (2 ^ c.val))
      sealKeys := s.guard.sealKeys.filter fun k => k.1 != c.val
      saves := s.guard.saves.filter fun x => ((s.job? x.slot).map (·.col)) != some c && (s.job? x.slot).isSome } }

/-- The sealing of a colony ends (R388). -/
def unsealColony (c : ColId) (s : State) : State :=
  let hs := s.hivesOwned c.val
  postEvent .seal 8 (unclaimAll hs (scrubAll hs (dropSeal c s)))

/-- End the sealing of several colonies, those that are sealed. -/
def unsealAll : List ColId → State → State
  | [], s => s
  | c :: r, s => unsealAll r (if s.isSealed c then unsealColony c s else s)

/-- A command ends with a result (R381). -/
def endCmd (r : Byte) (s : State) : State :=
  releaseChannel (ceFollow { s with guard := { s.guard with busy := false, result := r, verdict := none, drawn := none, blk := [] } })

/-- The expander is halted when a key is to be drawn (R383, R385). -/
def genFail (s : State) : State := raise .pf0 0 (endCmd 5 { s with guard := { s.guard with genFail := true } })

/-- The effect of DRK_PROG (R383). -/
def drkBurn (bits : List Byte) (ok : Bool) (g : GuardSt) : GuardSt :=
  if ok then { g with drk := some (BitVec.ofNat 256 (beNat bits)), drkBlank := false, keysValid := true }
  else { g with drk := none, drkBlank := false, keysValid := false }

/-- The running command reaches its end; `ok` tells that the brood store or the fuses took what was written. -/
def finishCmd (ok : Bool) (s : State) : State :=
  let g := s.guard
  match g.verdict with
  | some r => endCmd r s
  | none =>
    match g.op.toNat with
    | 1 =>
      match g.drawn with
      | some key => endCmd 0 (sealColony ⟨g.col.toNat, g.col.isLt⟩ key s)
      | none => if g.en.dead then genFail s else s
    | 2 => endCmd 0 (unsealColony ⟨g.col.toNat, g.col.isLt⟩ s)
    | 3 => if ok then endCmd 0 { s with guard := keyFinish g.blk g } else endCmd 6 s
    | 4 => endCmd 0 { s with guard := { g with lc := 2, en := if g.en.tp then tpTurn false g.en else g.en } }
    | 5 => endCmd 0 { s with guard := { g with lc := 3, locked := true } }
    | _ =>
      match g.drawn with
      | some bits => endCmd (if ok then 0 else 10) { s with guard := drkBurn bits ok g }
      | none => if g.en.dead then genFail s else s

/-- GUARD_COMMAND_DONE (R381): a running command that holds its channel ends. A command that draws from the expander waits
until it has drawn or the expander is halted. -/
def execGuardCommandDone (flashOk : Bool) (s : State) : Host.Outcome State Fault Refusal :=
  let k : ChanId := ⟨s.guard.ch.toNat, s.guard.ch.isLt⟩
  if !s.guard.busy then .next s
  else
    let s := claimChannel s
    .next (if (s.host.forager[k]).claimed then unthrottle (finishCmd flashOk s) else s)

/-- CE_GATE (R373). -/
def execCeGate (v : Bool) (s : State) : Host.Outcome State Fault Refusal :=
  .next { s with guard :=
    if s.guard.ceClaimed then { s.guard with ceGate := v, ceDefer := true } else { s.guard with ceGate := v, ceGated := v } }

-- deferrals (R389 to R392)

/-- Sealed programs whose context lies on the hive. -/
def State.sealedHeld (s : State) (h : HiveId) : List Prog :=
  (s.hv h).wait.filter fun p => p.held && ((s.job? p.slot).map (·.sealed)).getD false

/-- The IV of a save: one that the expander has delivered, else that of a call made now, one call for one request (R353). -/
def takeIv (s : State) : List Byte × State :=
  match s.guard.en.ivs with
  | iv :: r => (iv, updEn (fun e => { e with ivs := r }) s)
  | [] =>
    let (o, t) := genCall 12 s
    (o, updEn (fun e => { e with turn := 1 }) t)

/-- Calls that the expander may still make before it must reseed (R354, R355). -/
def EntropySt.callsLeft (e : EntropySt) : Nat := (if e.throttled then 2 ^ 16 else 2 ^ 20) - e.calls.toNat

/-- The IVs of n saves are there, or the cipher engine, which asks for them, is served now (R354, R355, R365). -/
def State.ivsReady (s : State) (n : Nat) : Bool :=
  let e := s.guard.en
  decide (n ≤ e.ivs.length) ||
  (e.serves && !e.tp && (e.order.find? fun i => i == 1 || s.placeWaits i) == some 1 &&
    (!e.blocks.isEmpty || decide (n ≤ e.ivs.length + e.callsLeft)))

/-- Save one sealed program of a hive (R389 steps 2 and 3), or end its job when the expander is halted (R392). -/
def saveOne (h : HiveId) (p : Prog) (s : State) : State :=
  if s.guard.en.dead then
    postEvent .seal 16 (endJob p.slot { code := .rngFail } (.cancel 0) (updHive h (fun hv => { hv with wait := dropProg hv.wait p.slot p.home }) s))
  else
    let (iv, s) := takeIv s
    let part := ((s.job? p.slot).map (·.part.val)).getD 0
    let n := tabGet 0 s.guard.saveCnt p.slot + 1
    let set : SaveSet := { slot := p.slot, hive := p.home, cnt := n, iv := iv, prog := { p with paused := none }
                           scratch := (s.scratchOf part p.home).map fun x => (x.1, s.winRead part h x.1 x.2) }
    let stub : Prog := { slot := p.slot, home := p.home, order := p.order, cls := p.cls, ctx := .supers, sealed := true }
    updHive h (fun hv => { hv with wait := hv.wait.map fun q => if q.slot == p.slot && q.home == p.home then stub else q })
      { s with guard := { s.guard with saves := s.guard.saves ++ [set], saveCnt := tabSet 0 s.guard.saveCnt p.slot n } }

/-- Save several sealed programs. -/
def saveAll (h : HiveId) : List Prog → State → State
  | [], s => s
  | p :: r, s => saveAll h r (saveOne h p s)

/-- SEALED_DEFERRAL (R389; R417 without a gate): with the stop reached, the sealed work is saved, the hive is scrubbed, the claim is released and
the deferred gate executes. -/
def execSealedDeferral (h : HiveId) (s : State) : Host.Outcome State Fault Refusal :=
  let hv := s.hv h
  if !hv.claimed || !(hv.clkDefer || hv.pwrDefer || hv.deferring || hv.wait.any fun p => p.paused == some .seal) then .next s
  else if hv.run.isSome then .next (if hv.stops.contains .seal then s else askStop h .seal s)
  else
    let held := (s.sealedHeld h).length
    let s := if s.guard.en.ivs.length < held then rawRevoke s else s
    if !s.ivsReady held && !s.guard.en.dead then .next s
    else
    let s := { s with guard := ceClaim s.guard }
    let s := saveAll h (s.sealedHeld h) s
    let s := unclaim h (scrubHive h s)
    let s := { s with guard := { s.guard with sealCnt := satInc s.guard.sealCnt } }
    let s := postEvent .seal 1 s
    .next (unthrottle (ceFollow s))

/-- The stub of a sealed program waits somewhere. -/
def State.sealedStub (s : State) (slot : Nat) : Option (HiveId × Prog) :=
  allHives.findSome? fun h => ((s.hv h).wait.find? fun p => p.sealed && p.slot == slot).map fun p => (h, p)

-- Guard reset (R361, R370, R377, R379)

/-- A write that a KEY_UPDATE had started completes (R458). -/
def keyCompletes (s : State) : State :=
  if s.guard.busy && s.guard.op == 3 && s.guard.verdict.isNone && !s.guard.blk.isEmpty then
    { s with guard := keyFinish s.guard.blk s.guard }
  else s

/-- Every sealed job in flight, queued or running, completes with SEALED_ABORT (R361); the manual names no hive (log entry 19). -/
def abortSealedJob (slot : Nat) (s : State) : State :=
  killJob slot { code := .sealedAbort, detail := (s.free 8).setWidth 64 } s.tickFree

/-- Hives under a claim outside any running seal. -/
def releaseAllClaims (s : State) : State := unclaimAll (allHives.filter fun h => (s.hv h).claimed) s

/-- The GRD window and the entropy path at their reset values, the fuses and records read (R352, R361, R370, R377). -/
def guardClear (drkOk : Bool) (g : GuardSt) : GuardSt :=
  let g := { g with
    en := {}, keysValid := drkOk && g.drk.isSome, drkBlank := g.drk.isNone && g.drkBlank, locked := g.lc == 3
    zeroize := false, busy := false, op := 0, col := 0, result := 0, src := 0, verdict := none, drawn := none, blk := []
    updateLost := false, genFail := false, seals := 0, sealKeys := [], sealEvt := 0, sealCnt := 0, fch := 0xF, ch := 0xF
    ceGate := false, ceGated := false, ceClaimed := false, ceDefer := false, saves := [], saveCnt := [] }
  let g := { g with inForce := g.pick }
  { g with updateLost := g.lostUpdate }

/-- A Guard reset. -/
def guardReset (drkOk : Bool) (s : State) : State :=
  let sealed := (List.finRange 64).filter s.isSealed
  let s := keyCompletes s
  let s := onSlots abortSealedJob ((s.jobs.filter fun j => j.sealed || (j.isHome && j.part.val != 0x40 && s.isSealed j.col)).map (·.slot)) s
  let s := unsealAll sealed s
  let s := if s.guard.busy then releaseChannel s else s
  let s := releaseAllClaims { s with guard := guardClear drkOk s.guard }
  let s := if sealed.isEmpty then s else postEvent .seal 8 s
  let s := if s.guard.updateLost then raise .pf0 0 s else s
  latchAlert (ceFollow s)

/-- GRST (R361): PF0 writes 1 to GRD_RST.GRST; `drkOk` tells that the fuse code of the root key verifies (R370). -/
def execGrst (drkOk : Bool) (s : State) : Host.Outcome State Fault Refusal := .next (guardReset drkOk s)

end Sys2Proof.Machine
end

