-- ==== Sys2Proof/Machine/Phx.lean ====
section
/-! DEFINITION. Machine/Phx.lean: calibration, lock and loss of lock of the photonic banks (spec/05 R113 to R121). -/

namespace Sys2Proof.Machine

/-- The extractor is shed (R416): every bank is in SHED. -/
def State.phxShed (s : State) : Bool := s.pwr.stage != 0

/-- Put an enabled bank into calibration (R113), unless shedding keeps it (R426); a thermal hold keeps it OFF until its end
(R116). -/
def startCal (b : BankId) (s : State) : State :=
  if s.phxShed then s
  else if s.phx.tempHold then updBank b (fun x => { x with st := .off, relocking := false, thermal := true }) s
  else updBank b (fun x => { x with st := .cal, relocking := false, thermal := false }) s

/-- `startCal` for every enabled bank of a list that is OFF. -/
def startCals : List BankId → State → State
  | [], s => s
  | b :: r, s =>
    let x := s.phx.bank[b]
    startCals r (if x.en && x.st == .off then startCal b s else s)

/-- Every bank. -/
def allBanks : List BankId := List.finRange 8

/-- PHX_ENABLE (R113): EN changes from 0 to 1 and calibration starts. -/
def execPhxEnable (b : BankId) (s : State) : Host.Outcome State Fault Refusal :=
  if (s.phx.bank[b]).en then .next s else .next (startCal b (updBank b (fun x => { x with en := true }) s))

/-- The channels that a calibration retired enter the map with origin 0x4 (R438). -/
def chanEnts (b : BankId) (bad : List Nat) (s : State) : State :=
  if bad.isEmpty then s
  else saveMap (rprEvent 64 (addAll (bad.map fun c =>
    { ty := 5, org := 4, b2 := BitVec.ofNat 8 b.val, b3 := BitVec.ofNat 8 c }) s))

/-- Physical channels of a bank (R96). -/
def bankChans : Nat := 72

/-- The physical channels that host logical wavelengths 0 to 63: those not retired, in increasing order (R97). -/
def Bank.placed (x : Bank) : List Nat := ((List.range bankChans).filter fun c => !x.retired.contains c).take 64

/-- The channels that a calibration finds bad and can retire: channels of the bank that are not retired, each once (R97, R438). -/
def Bank.newBad (x : Bank) (bad : List Nat) : List Nat := bad.eraseDups.filter fun c => decide (c < bankChans) && !x.retired.contains c

/-- A calibration fails (R113). -/
def calFail (b : BankId) (bad : List Nat) (line : Bool) (s : State) : State :=
  let s := if line then { s with phx := { s.phx with laserOk := false } } else s
  let n := 8 - (s.phx.bank[b]).spares
  postEvent (.phx b) 2 (chanEnts b (bad.take n) (updBank b (fun x => { x with
    st := .off, wasShed := false, calValid := false, spares := min 8 (x.spares + bad.length), retired := x.retired ++ bad.take n }) s))

/-- PHX_CAL_DONE (R113): at most 8 spares exist for failed rings. -/
def execPhxCalDone (b : BankId) (r : CalRes) (s : State) : Host.Outcome State Fault Refusal :=
  let x := s.phx.bank[b]
  if x.st != .cal then .next s
  else match r with
    | .fail bad line => .next (calFail b (x.newBad bad) line s)
    | .ok ents bad temp =>
      let bad := x.newBad bad
      if 8 < x.spares + bad.length then .next (calFail b bad false s)
      else
        let s := updBank b (fun x => { x with
          st := .acquiring, calValid := true, calStale := false, tCal := temp, spares := x.spares + bad.length
          retired := x.retired ++ bad
          ents := Vector.ofFn fun i => match ents[i.val]? with
            | some (g, o) => { gain := g, offs := o }
            | none => x.ents[i] }) s
        .next (chanEnts b bad { s with phx := { s.phx with laserOk := true } })

/-- Work that waited for a shed bank may resume (R120). -/
def unpauseShed : List HiveId → State → State
  | [], s => s
  | h :: r, s => unpauseShed r (schedule h (updHive h (fun hv => { hv with wait := hv.wait.map (releaseFrom .shed) }) s))

/-- PHX_LOCKED (R112, R120): 64 samples within 3 pm. -/
def execPhxLocked (b : BankId) (s : State) : Host.Outcome State Fault Refusal :=
  .next (if (s.phx.bank[b]).st == .acquiring then
    unpauseShed (allHives.filter fun h => h.val / 12 == b.val) (updBank b (fun x => { x with st := .locked, relocking := false, wasShed := false }) s)
    else s)

/-- PHX_RELOCK_TIMEOUT (R119). -/
def execPhxRelockTimeout (b : BankId) (s : State) : Host.Outcome State Fault Refusal :=
  let x := s.phx.bank[b]
  .next (if x.st == .acquiring && x.relocking then
    postEvent (.phx b) 4 (updBank b (fun x => { x with st := .unlocked, relocking := false }) s) else s)

/-- A temperature in Q8.8 is more than 10 C from a whole one. -/
def farFrom (temp : BitVec 16) (t : BitVec 8) : Bool := decide (2560 < (temp.toInt - 256 * t.toInt).natAbs)

/-- PHX_CAL_STALE (R114). -/
def execPhxCalStale (b : BankId) (temp : BitVec 16) (s : State) : Host.Outcome State Fault Refusal :=
  let x := s.phx.bank[b]
  let s := { s with phx := { s.phx with temp := temp } }
  .next (if x.calValid && !x.calStale && farFrom temp x.tCal then
    postEvent (.phx b) 32 (updBank b (fun x => { x with calStale := true }) s) else s)

/-- `startCal` for every bank of a list that the thermal hold kept. -/
def endHold : List BankId → State → State
  | [], s => s
  | b :: r, s =>
    let x := s.phx.bank[b]
    endHold r (if x.en && x.thermal && x.st == .off then startCal b s else s)

/-- PHX_TEMP_HOLD_END (R116): below 80 C the hold ends and the banks that it kept OFF calibrate. -/
def execPhxTempHoldEnd (temp : BitVec 16) (s : State) : Host.Outcome State Fault Refusal :=
  if s.phx.tempHold && decide (temp.toInt < 20480) then
    .next (latchAlert (endHold allBanks { s with phx := { s.phx with temp := temp, tempHold := false } }))
  else .next { s with phx := { s.phx with temp := temp } }

/-- PHX_BCAL_DATA_WRITE (R121). -/
def execPhxBcalDataWrite (b : BankId) (v : Word) (s : State) : Host.Outcome State Fault Refusal :=
  let x := s.phx.bank[b]
  .next (if x.st == .off then
    updBank b (fun x => { x with ents := putAt x.ents x.calIdx.toFin { gain := v.setWidth 16, offs := (v >>> 16).setWidth 12 } }) s
  else postEvent (.phx b) 16 s)

end Sys2Proof.Machine
end

