-- ==== Sys2Proof/Machine/WaxCheck.lean ====
section
/-! DEFINITION. Machine/WaxCheck.lean: the legality checks of wax images in the order of Table 7.14 (R157), with the
places of Table 7.16 (R521). Log entry 10 lists the readings of places that no single row states. -/

namespace Sys2Proof.Machine

/-- A failure: code, section type, record index, byte offset (WAX_CHK_STAT, WAX_CHK_OFFS). -/
abbrev WaxFail := Byte × Nat × Nat × Nat

/-- What the checks compare an image with. -/
structure CkEnv where
  /-- Lifecycle is FIELD_SEALED (R153). -/
  sealed : Bool
  /-- The record check of R179 stands in for UNSIGNED and SIGNATURE. -/
  recordCheck : Bool
  /-- Valid wax public keys by KEY_ID. -/
  keys : List (Nat × (Nat × Nat))
  /-- The image in force; its version reads 0 when there is none (R154). -/
  cur : WaxImg
  /-- Barren logical hives. -/
  barren : List Nat

/-- The first failure of a list of (fails, place). -/
def firstFail {α : Type} : List (Bool × α) → Option α
  | [] => none
  | (b, a) :: r => if b then some a else firstFail r

/-- Some byte of [off, off+n) is not 0. -/
def nonZero (bs : List Byte) (off n : Nat) : Bool := ((bs.drop off).take n).any fun b => b != 0

/-- The failure of a record at byte offset `o`. -/
def recFail (code : Byte) (r : RecRef) (o : Nat) : WaxFail := (code, r.sec, r.idx, o)

/-- The first failing record of a row of checks. -/
def perRec (code : Byte) (rs : List RecRef) (f : RecRef → List (Bool × Nat)) : Option WaxFail :=
  rs.findSome? fun r => (firstFail (f r)).map (recFail code r)

/-- Rows 1 to 4: header. -/
def ckHeader (bs : List Byte) : Option WaxFail :=
  let len := uN bs 12 4
  let flags := uN bs 6 2
  let full := !flags.testBit 0
  let at_ (code : Byte) (o : Nat) : WaxFail := (code, 0, 0xFFFF, o)
  firstFail <|
    [(decide (bs.take 4 ≠ [0x53, 0x4B, 0x57, 0x58]), at_ 0x01 0),
     (decide (uN bs 4 2 ≠ 3), at_ 0x02 4),
     (decide (len % 8 ≠ 0) || decide (len < 128) || decide (len > 25165824) || decide (len ≠ bs.length), at_ 0x03 12),
     (decide (flags / 4 ≠ 0), at_ 0x04 6),
     (decide (uN bs 8 4 = 0), at_ 0x04 8),
     (full && decide (uN bs 16 4 ≠ 0), at_ 0x04 16),
     ((full && decide (u8 bs 20 ≠ 0)) || decide (u8 bs 20 > 0x40), at_ 0x04 20)] ++
    ([21, 22, 23, 26, 27, 28, 29, 30, 31].map fun i => (u8 bs i != 0, at_ 0x04 i))

/-- The size that a section's COUNT and records give it (row 5). -/
def secExpect (bs : List Byte) (s : SecHdr) : Nat :=
  if s.ty = 2 then 8 + partBytes bs s.count (s.off + 8) else 8 + (recSize s.ty).getD 0 * s.count

/-- The first fault of one section header (row 5), in field order. -/
def ckSecHdr (bs : List Byte) (signed : Bool) (prev : Nat) (s : SecHdr) : Option WaxFail :=
  let at_ (o : Nat) : WaxFail := (0x05, s.ty % 256, 0xFFFF, o)
  let known := s.ty == 2 || (recSize s.ty).isSome
  firstFail
    [(!known || decide (s.ty ≤ prev) || (s.ty == 0xF && !signed), at_ s.off),
     ((s.ty == 1 || s.ty == 0xE || s.ty == 0xF) && s.count != 1, at_ (s.off + 2)),
     (s.size % 8 != 0 || s.size != secExpect bs s || decide (s.off + s.size > bs.length), at_ (s.off + 4))]

/-- Row 5 over the sections in order; a tail beyond NSEC sections that is no section ends them before LENGTH. -/
def ckSecs (bs : List Byte) (signed : Bool) (nsec : Nat) : Nat → Nat → List SecHdr → Option WaxFail
  | _, _, [] => none
  | k, prev, s :: r =>
    match ckSecHdr bs signed prev s with
    | some f => if k ≥ nsec then some (0x05, 0, 0xFFFF, 12) else some f
    | none => ckSecs bs signed nsec (k + 1) s.ty r

/-- Rows 5 and 6: sections; inside row 5 the order of the faults is log entry 75. -/
def ckSections (bs : List Byte) : Option WaxFail :=
  let signed := (uN bs 6 2).testBit 1
  let nsec := uN bs 24 2
  let ss := imgSecs bs
  let has (t : Nat) : Bool := ss.any fun s => s.ty == t
  (ckSecs bs signed nsec 0 0 ss).or <| firstFail
    [(decide (ss.length ≠ nsec), (0x05, 0, 0xFFFF, 24)),
     (signed && !has 0xF, (0x05, 0, 0xFFFF, 6)),
     (!has 1, (0x06, 1, 0xFFFF, 0)), (!has 2, (0x06, 2, 0xFFFF, 0)),
     (!has 3, (0x06, 3, 0xFFFF, 0)), (!has 0xE, (0x06, 0xE, 0xFFFF, 0))]

/-- Offset of the CRC section (row 6 makes it present). -/
def crcOff (bs : List Byte) : Nat :=
  match (imgSecs bs).find? fun s => s.ty == 0xE with
  | some s => s.off
  | none => 0

/-- Rows 7 to 11: integrity, signature and part. -/
def ckIntegrity (env : CkEnv) (bs : List Byte) : Option WaxFail :=
  let co := crcOff bs
  let body := (bs.drop 80).take (co - 80)
  let signed := (uN bs 6 2).testBit 1
  let so := co + 16
  let key := (env.keys.find? fun k => k.1 == u8 bs (so + 8)).map (·.2)
  let g := 88
  firstFail
    [(decide (BitVec.ofNat 32 (uN bs (co + 8) 4) ≠ crc32 body), (0x07, 0xE, 0, co + 8)),
     (decide ((bs.drop 32).take 48 ≠ sha384 ((bs.drop 80).take (co + 16 - 80))), (0x08, 0, 0xFFFF, 32)),
     (!env.recordCheck && !signed && env.sealed, (0x09, 0, 0xFFFF, 6)),
     (!env.recordCheck && signed && key.isNone, (0x0A, 0xF, 0, so + 8)),
     (!env.recordCheck && signed &&
        !(match key with
          | some q => ecdsaVerify q (sha384 (bs.take 80)) (uN bs (so + 16) 48) (uN bs (so + 64) 48)
          | none => false), (0x0A, 0xF, 0, so + 16)),
     (decide (uN bs g 2 ≠ 0x4B96), (0x0B, 1, 0, g)),
     (decide (u8 bs (g + 2) ≠ 0) && decide (u8 bs (g + 2) ≠ 0x31), (0x0B, 1, 0, g + 2))]

/-- A PID value that is a reserved encoding (R143). -/
def pidReserved (p : Nat) : Bool := decide (0x41 ≤ p) && decide (p ≤ 0xFE)

/-- Row 12, RESERVED (R142, R521), in field order. -/
def reservedOf (bs : List Byte) (r : RecRef) : List (Bool × Nat) :=
  let o := r.off
  let nz (k n : Nat) : Bool × Nat := (nonZero bs (o + k) n, o + k)
  let pid (k : Nat) : Bool × Nat := (pidReserved (u8 bs (o + k)), o + k)
  match r.kind with
  | .glob => [nz 7 1, nz 24 8]
  | .part => [pid 0, nz 3 1, nz 8 8]
  | .layer _ => [(decide (u8 bs (o + 1) / 32 ≠ 0) || natBits (u8 bs (o + 1)) 2 3 == 7, o + 1), nz 7 1, nz 20 4]
  | .hive => [pid 1, nz 3 5]
  | .route => [pid 2, nz 10 6]
  | .extract => [pid 0, (decide (u8 bs (o + 2) ≥ 8), o + 2), (decide (u8 bs (o + 3) ≥ 3), o + 3), nz 4 4]
  | .ovs =>
    let k := u8 bs o
    [(decide (k < 1) || decide (k > 3), o), (k != 1 && pidReserved (u8 bs (o + 1)), o + 1),
     (if k = 3 then decide (u8 bs (o + 3) > 1) else u8 bs (o + 3) != 0, o + 3), nz 4 4]
  | .express => [(u8 bs o != 0x40, o), nz 6 2, nz 16 8]
  | .seed => [pid 0, (u8 bs (o + 2) != 1 && u8 bs (o + 2) != 2, o + 2), nz 3 1, nz 7 1, nz 11 1, nz 12 4]
  | .crc => [nz 4 4]
  | .sig => [nz 1 7]

/-- A value outside [lo, hi]. -/
def outside (v lo hi : Nat) : Bool := decide (v < lo) || decide (v > hi)

/-- Row 13, RANGE, of one record (PID 0xFF of a partition record, and the ends of a ROUTE: log entry 75); `prev` is the HIVE number of the record before. -/
def rangeOf (bs : List Byte) (nPart nLayer : Nat) (prevHive : Option Nat) (r : RecRef) : List (Bool × Nat) :=
  let o := r.off
  match r.kind with
  | .glob => [(u8 bs (o + 3) != nPart, o + 3), (uN bs (o + 4) 2 != nLayer, o + 4)]
  | .part => [(u8 bs o == 0xFF, o), (u8 bs (o + 1) == 0, o + 1), (outside (u8 bs (o + 2)) 1 96, o + 2),
      (decide (uN bs (o + 4) 2 > 1536), o + 4), (decide (uN bs (o + 6) 2 > 32768), o + 6)]
  | .layer _ => [(outside (uN bs (o + 2) 2) 1 4096, o + 2), (uN bs (o + 4) 2 == 0, o + 4),
      (outside (u8 bs (o + 6)) 1 64, o + 6)]
  | .hive => [(decide (u8 bs o > 95) || (match prevHive with
      | some p => decide (u8 bs o ≤ p)
      | none => false), o)]
  | .route => [(decide (u8 bs o > 95), o), (decide (u8 bs (o + 1) > 95) || u8 bs (o + 1) == u8 bs o, o + 1),
      (outside (u8 bs (o + 3)) 1 24, o + 3)]
  | .ovs => [(u8 bs o == 1 && decide (u8 bs (o + 1) > 7), o + 1), (u8 bs o != 3 && decide (u8 bs (o + 2) > 3), o + 2)]
  | .express => [(decide (u8 bs (o + 1) > 63), o + 1), (outside (u8 bs (o + 2)) 1 8, o + 2),
      (outside (u8 bs (o + 3)) 1 16, o + 3), (outside (uN bs (o + 4) 2) 1 1800, o + 4)]
  | _ => []

/-- Row 13 over the records of a section, in order. -/
def ckRange (bs : List Byte) (nPart nLayer : Nat) : Option Nat → List RecRef → Option WaxFail
  | _, [] => none
  | prev, r :: rest =>
    match firstFail (rangeOf bs nPart nLayer prev r) with
    | some o => some (recFail 0x11 r o)
    | none => ckRange bs nPart nLayer (if r.kind == .hive then some (u8 bs r.off) else none) rest

/-- Row 13 for the COUNT of a section (Table 7.3; of a partial image: log entry 75). -/
def countBad (partialImg : Bool) (s : SecHdr) : Bool :=
  if s.ty = 2 then (if partialImg then s.count != 1 else outside s.count 1 65)
  else if s.ty = 3 then (if partialImg then outside s.count 1 96 else s.count != 96)
  else false

/-- Row 13 over the sections, in image order: the header of each, then its records (R157). -/
def ckRangeSecs (bs : List Byte) (nPart nLayer : Nat) (partialImg : Bool) (ss : List SecHdr) : Option WaxFail :=
  ss.findSome? fun s =>
    if countBad partialImg s then some (0x11, s.ty, 0xFFFF, s.off + 2) else ckRange bs nPart nLayer none (secRecs bs s)

/-- The key under which two records of one kind are duplicates (row 14). -/
def dupKey (bs : List Byte) (r : RecRef) : Option (List Nat) :=
  let o := r.off
  match r.kind with
  | .part => some [2, u8 bs o]
  | .layer p => some [0x12, p, u8 bs o]
  | .route => some [4, u8 bs o, u8 bs (o + 1)]
  | .extract => some [5, u8 bs o, u8 bs (o + 1)]
  | .ovs => some (if u8 bs o = 3 then [6, 3, u8 bs (o + 1), u8 bs (o + 2)] else [6, u8 bs o, u8 bs (o + 1)])
  | .express => some [7]
  | .seed => some [8, u8 bs o, u8 bs (o + 1), u8 bs (o + 2)]
  | _ => none

/-- Row 14, DUPLICATE. -/
def ckDup (bs : List Byte) : List (List Nat) → List RecRef → Option WaxFail
  | _, [] => none
  | seen, r :: rest =>
    match dupKey bs r with
    | none => ckDup bs seen rest
    | some k => if seen.contains k then some (recFail 0x12 r r.off) else ckDup bs (k :: seen) rest

/-- Row 15, DANGLING (an EXPRESS record without partition 0x40 is of row 22: log entry 75): (PID offset, LAYER offset) of the record when it names them. -/
def danglingOf (bs : List Byte) (w : WaxImg) (only : Option Nat) (r : RecRef) : List (Bool × Nat) :=
  let o := r.off
  let badP (p : Nat) : Bool := (w.part? p).isNone || (match only with
    | some q => p != q
    | none => false)
  let badL (p l : Nat) : Bool := (w.layer? p l).isNone
  match r.kind with
  | .part => [(badP (u8 bs o), o)]
  | .hive => [(u8 bs (o + 1) != 0xFF && badP (u8 bs (o + 1)), o + 1)]
  | .route => [(badP (u8 bs (o + 2)), o + 2)]
  | .extract => [(badP (u8 bs o), o), (badL (u8 bs o) (u8 bs (o + 1)), o + 1)]
  | .ovs => [(u8 bs o != 1 && badP (u8 bs (o + 1)), o + 1),
      (u8 bs o == 3 && badL (u8 bs (o + 1)) (u8 bs (o + 2)), o + 2)]
  | .seed => [(badP (u8 bs o), o), (badL (u8 bs o) (u8 bs (o + 1)), o + 1)]
  | _ => []

/-- Row 16, LIMIT: the first record beyond the limit of its kind. -/
def ckLimit (rs : List RecRef) : Option WaxFail :=
  let beyond (p : RecRef → Bool) (n : Nat) : Option RecRef := ((rs.filter p).drop n).head?
  let isLayer (r : RecRef) : Bool := match r.kind with
    | .layer _ => true
    | _ => false
  (((beyond isLayer 4096).or (beyond (fun r => r.kind == .route) 4096)).or (beyond (fun r => r.kind == .seed) 8192)).map
    fun r => recFail 0x14 r r.off

/-- Hives that a partition owns in the records of an image. -/
def WaxImg.hivesOf (w : WaxImg) (p : Nat) : List Nat := (w.hives.filter fun h => h.pid == p).map (·.hive)

/-- Row 17, OWNERSHIP. -/
def ownershipOf (bs : List Byte) (w : WaxImg) (r : RecRef) : List (Bool × Nat) :=
  let o := r.off
  match r.kind with
  | .part => [(u8 bs (o + 2) != (w.hivesOf (u8 bs o)).length, o + 2)]
  | .layer p => [((maskHives (readLayer bs p o).hmask).any fun h => !(w.hivesOf p).contains h, o + 8)]
  | .route => [(!(w.hivesOf (u8 bs (o + 2))).contains (u8 bs o), o),
      (!(w.hivesOf (u8 bs (o + 2))).contains (u8 bs (o + 1)), o + 1)]
  | _ => []

/-- Row 18, LAYER_SHAPE. -/
def shapeOf (bs : List Byte) (w : WaxImg) (r : RecRef) : List (Bool × Nat) :=
  match r.kind with
  | .layer p =>
    let l := readLayer bs p r.off
    let ps := passesOf l.nTerms (w.termsPerPass p l.layer)
    let hs := maskHives l.hmask
    [(decide (ps > 64), r.off + 2), (decide (l.span > ps), r.off + 6),
     (hs.isEmpty || decide (hs.length % l.span ≠ 0) || hs.any (fun h => w.combEn h == 0), r.off + 8)]
  | _ => []

/-- Row and column after one hop (Table 7.8), while inside the 8 x 12 array. -/
def hopFrom (h d : Nat) : Option Nat :=
  let row := h / 12
  let col := h % 12
  match d with
  | 0 => if row = 0 then none else some (h - 12)
  | 1 => if col = 11 then none else some (h + 1)
  | 2 => if row = 7 then none else some (h + 12)
  | _ => if col = 0 then none else some (h - 1)

/-- The hives of a route after its source, when it stays inside and visits none twice. -/
def routeWalk : Nat → Nat → Nat → List Nat → Option Nat
  | 0, _, h, _ => some h
  | n + 1, path, h, seen =>
    match hopFrom h (path % 4) with
    | none => none
    | some h' => if seen.contains h' then none else routeWalk n (path / 4) h' (h' :: seen)

/-- R147: the route of a ROUTE record is legal. -/
def routeLegal (r : RouteRec) : Bool :=
  routeWalk r.hops r.path.toNat r.src [r.src] == some r.dst && r.path.toNat / 4 ^ r.hops == 0

/-- Row 19, ROUTE_PATH. -/
def routeOf (bs : List Byte) (r : RecRef) : List (Bool × Nat) :=
  match r.kind with
  | .route =>
    [(!routeLegal { src := u8 bs r.off, dst := u8 bs (r.off + 1), pid := 0, hops := u8 bs (r.off + 3)
                    path := BitVec.ofNat 48 (uN bs (r.off + 4) 6) }, r.off + 4)]
  | _ => []

/-- Row 20, EXTRACT. -/
def extractOf (bs : List Byte) (w : WaxImg) (r : RecRef) : List (Bool × Nat) :=
  let o := r.off
  match r.kind with
  | .glob => [(bs.getD (o + 6) 0 != w.banks, o + 6)]
  | .extract =>
    let f := u8 bs (o + 2)
    [(f.testBit 1 && !f.testBit 0, o + 2), (f.testBit 1 && u8 bs o == 0x40, o + 2),
     (f.testBit 2 && !f.testBit 1, o + 2), (u8 bs (o + 3) != 0 && !f.testBit 1, o + 3)]
  | _ => []

/-- Row 21, OVS_ROW0. -/
def ovsRow0Of (bs : List Byte) (r : RecRef) : List (Bool × Nat) :=
  match r.kind with
  | .ovs => [(u8 bs r.off == 1 && u8 bs (r.off + 1) == 0 && u8 bs (r.off + 2) != 0, r.off + 2)]
  | _ => []

/-- Row 22, EXPRESS. -/
def expressOf (bs : List Byte) (w : WaxImg) (r : RecRef) : List (Bool × Nat) :=
  match r.kind with
  | .part => [(u8 bs r.off == 0x40 && w.express.isNone, r.off)]
  | .hive => [(u8 bs (r.off + 1) == 0x40 && decide (u8 bs r.off ≥ 12), r.off)]
  | .express => [((w.part? 0x40).isNone, r.off), (u8 bs (r.off + 2) != (w.hivesOf 0x40).length, r.off + 2)]
  | _ => []

/-- Row 23, SEED_MISSING. -/
def seedMissingOf (bs : List Byte) (w : WaxImg) (r : RecRef) : List (Bool × Nat) :=
  match r.kind with
  | .layer p =>
    let l := readLayer bs p r.off
    [(l.randw && (w.seed? p l.layer true).isNone, r.off)]
  | .seed =>
    [(u8 bs (r.off + 2) == 2 && !(((w.layer? (u8 bs r.off) (u8 bs (r.off + 1))).map (·.randw)).getD false), r.off)]
  | _ => []

/-- The input stream id of an element of a layer (R48, R150, R195). -/
def inputSid (w : WaxImg) (p l e : Nat) : BitVec 24 :=
  match w.seed? p l false with
  | some r => r.sid e
  | none => BitVec.ofNat 24 ((w.colonyOf p % 64) * 2 ^ 18 + (l % 64) * 2 ^ 12 + e % 4096)

/-- The weight stream id of an element of a random x random layer (R150). -/
def weightSid (w : WaxImg) (p l e : Nat) : BitVec 24 :=
  match w.seed? p l true with
  | some r => r.sid e
  | none => 0

/-- Row 24, SEED_COLLISION (R42, R151). -/
def collisionOf (bs : List Byte) (w : WaxImg) (r : RecRef) : List (Bool × Nat) :=
  match r.kind with
  | .seed =>
    let p := u8 bs r.off
    let l := u8 bs (r.off + 1)
    let n := ((w.layer? p l).map (·.nTerms)).getD 0
    [(u8 bs (r.off + 2) == 2 && (List.range n).any (fun e => inputSid w p l e == weightSid w p l e), r.off + 4)]
  | _ => []

/-- Row 25, CAPACITY: the partition record with which the sum passes 32,768 MiB; `base` sums the partitions that stay. -/
def ckCapacity (bs : List Byte) : Nat → List RecRef → Option WaxFail
  | _, [] => none
  | sum, r :: rest =>
    match r.kind with
    | .part =>
      let s := sum + uN bs (r.off + 6) 2
      if s > 32768 then some (recFail 0x28 r (r.off + 6)) else ckCapacity bs s rest
    | _ => ckCapacity bs sum rest

/-- Row 26, PARTIAL_SCOPE (R154, R155). -/
def scopeOf (bs : List Byte) (cur : WaxImg) (pid : Nat) (r : RecRef) : List (Bool × Nat) :=
  let o := r.off
  match r.kind with
  | .hive => [(match cur.owner? (u8 bs o) with
      | some q => q != pid
      | none => false, o), (u8 bs (o + 1) != pid && u8 bs (o + 1) != 0xFF, o + 1)]
  | .ovs => [(u8 bs o == 1, o)]
  | .express => [(pid != 0x40, o)]
  | _ => []

/-- Row 27, BARREN. -/
def barrenOf (barren : List Nat) (bs : List Byte) (r : RecRef) : List (Bool × Nat) :=
  match r.kind with
  | .layer p => [((maskHives (readLayer bs p r.off).hmask).any barren.contains, r.off + 8)]
  | _ => []

/-- The barren and base-version checks, rows 27 and 28, which apply repeats (R159). -/
def ckApply (env : CkEnv) (bs : List Byte) : Option WaxFail :=
  let partialImg := (uN bs 6 2).testBit 0
  (perRec 0x30 (imgRecs bs) (barrenOf env.barren bs)).or
    (if partialImg && decide (BitVec.ofNat 32 (uN bs 16 4) ≠ env.cur.ver) then some (0x31, 0, 0xFFFF, 16) else none)

/-- The first failure among checks taken in order. -/
def firstOf : List (Option WaxFail) → Option WaxFail
  | [] => none
  | some f :: _ => some f
  | none :: r => firstOf r

/-- Rows 12 to 26 on an image whose header, sections and integrity passed. -/
def ckRecords (env : CkEnv) (bs : List Byte) (rs : List RecRef) (w : WaxImg) (partialImg : Bool) (pid : Nat) :
    Option WaxFail :=
  let isLayer (r : RecRef) : Bool := match r.kind with
    | .layer _ => true
    | _ => false
  let stay := if partialImg then ((env.cur.parts.filter fun p => p.pid != pid).map (·.supMib)).sum else 0
  firstOf
    [perRec 0x10 rs (reservedOf bs), ckRangeSecs bs w.parts.length (rs.filter isLayer).length partialImg (imgSecs bs),
     ckDup bs [] rs, perRec 0x13 rs (danglingOf bs w (if partialImg then some pid else none)), ckLimit rs,
     perRec 0x20 rs (ownershipOf bs w), perRec 0x21 rs (shapeOf bs w), perRec 0x22 rs (routeOf bs),
     perRec 0x23 rs (extractOf bs w), perRec 0x24 rs (ovsRow0Of bs), perRec 0x25 rs (expressOf bs w),
     perRec 0x26 rs (seedMissingOf bs w), perRec 0x27 rs (collisionOf bs w), ckCapacity bs stay rs,
     if partialImg then perRec 0x29 rs (scopeOf bs env.cur pid) else none]

/-- R157: the checks of Table 7.14 in order; none when all pass. -/
def checkWax (env : CkEnv) (bs : List Byte) : Option WaxFail :=
  match ckHeader bs with
  | some f => some f
  | none =>
    match ckSections bs with
    | some f => some f
    | none =>
      match ckIntegrity env bs with
      | some f => some f
      | none =>
        match ckRecords env bs (imgRecs bs) (parseWax bs) ((uN bs 6 2).testBit 0) (u8 bs 20) with
        | some f => some f
        | none => ckApply env bs

end Sys2Proof.Machine
end

