-- ==== Sys2Proof/Machine/Wax.lean ====
section
/-! DEFINITION. Machine/Wax.lean: the wax controller and its brood store (spec/08). -/

namespace Sys2Proof.Machine

/-- WAX_EVT. -/
def waxEvent (w : Word) (s : State) : State := postEvent .wax w s

/-- Change the wax state. -/
def updWax (f : WaxSt → WaxSt) (s : State) : State := { s with wax := f s.wax }

-- records

/-- Sector of the record in force: Y when true (R160). -/
def State.recY (s : State) : Option Bool :=
  let v := fun (r : CommitRec) => r.valid s.guard.key
  match s.wax.secX.filter v, s.wax.secY.filter v with
  | none, none => none
  | some _, none => some false
  | none, some _ => some true
  | some x, some y => some (decide (x.gen.toNat < y.gen.toNat))

/-- The commit record in force. -/
def State.rec? (s : State) : Option CommitRec :=
  match s.recY with
  | none => none
  | some b => if b then s.wax.secY else s.wax.secX

/-- Write a record to the sector that does not hold the record in force (R161). -/
def putCommit (r : CommitRec) (s : State) : State :=
  let r := { r with gen := ((s.rec?.map (fun (x : CommitRec) => x.gen)).getD 0) + 1, complete := true }
  let r := match s.guard.key with | some d => r.sign d | none => { r with cmac := 0 }
  if s.recY == some false then updWax (fun w => { w with secY := some r }) s else updWax (fun w => { w with secX := some r }) s

/-- The record of R165 and R173 that keeps the committed slot with PREV_VALID = 0. -/
def invalidate (s : State) : State :=
  match s.rec? with
  | none => s
  | some r => putCommit { r with prevValid := false, prevSigned := false, prevVer := 0, prevLen := 0, prevHash := List.replicate 48 0 } s

/-- The record that commits an image in a slot, with the committed one as previous. -/
def commitOf (s : State) (slotB signed : Bool) (bs : List Byte) : CommitRec :=
  let base : CommitRec := {
    gen := 0, curB := slotB, prevValid := false, curSigned := signed, prevSigned := false, curVer := BitVec.ofNat 32 (uN bs 8 4)
    prevVer := 0, curLen := uN bs 12 4, prevLen := 0, curHash := imgHash bs, prevHash := List.replicate 48 0, cmac := 0, complete := true }
  match s.rec? with
  | none => base
  | some r => { base with
      prevValid := true, prevSigned := r.curSigned, prevVer := r.curVer, prevLen := r.curLen, prevHash := r.curHash }

/-- The slot that does not hold the committed image: B when true. -/
def State.stagingB (s : State) : Bool := (s.rec?.map fun r => !r.curB).getD false

/-- Bytes of a slot. -/
def WaxSt.slot (w : WaxSt) (b : Bool) : List Byte := if b then w.slotB else w.slotA

/-- Write a slot. -/
def putSlot (b : Bool) (bs : List Byte) (w : WaxSt) : WaxSt := if b then { w with slotB := bs } else { w with slotA := bs }

-- checks

/-- The image in force, with version 0 and no record when there is none (R154). -/
def State.curImg (s : State) : WaxImg := if s.wax.none_ then {} else s.wax.img

/-- What the checks compare with. -/
def State.ckEnv (s : State) (recordCheck : Bool) : CkEnv := {
  sealed := s.guard.lc == 3, recordCheck := recordCheck
  keys := ((s.guard.rec?.map (·.wax)).getD []).map fun k => (k.1, (k.2.x, k.2.y))
  cur := s.curImg, barren := (allHives.filter fun h => (s.hv h).barren).map (·.val) }

/-- Report a check (R158); WAX_CHK_OFFS reads 0 after a check that passes (log entry 75). -/
def waxReport (r : Option WaxFail) (s : State) : State :=
  match r with
  | none => updWax (fun w => { w with chkCode := 0, chkSection := 0, chkRecord := 0, chkOffs := 0 }) s
  | some (c, sec, rc, o) => waxEvent 1 (updWax (fun w => { w with
      chkCode := c, chkSection := BitVec.ofNat 8 sec, chkRecord := BitVec.ofNat 16 rc, chkOffs := BitVec.ofNat 25 o }) s)

/-- The checks of R157 on a slot with the record check of R179 in place of UNSIGNED and SIGNATURE (log entry 39). -/
def slotCheck (s : State) (bs : List Byte) (len : Nat) (hash : List Byte) (signed : Bool) : Option WaxFail :=
  let r := checkWax (s.ckEnv true) bs
  let early := match r with | some (c, _) => decide (c.toNat ≤ 8) | none => false
  if early then r
  else if uN bs 12 4 != len || imgHash bs != hash then some (0x0A, 0, 0xFFFF, 32)
  else if s.guard.lc == 3 && !signed then some (0x09, 0, 0xFFFF, 6)
  else r

-- what is in force

/-- Hives that belong to partition 0x40. -/
def clearHalts : List HiveId → State → State
  | [], s => s
  | h :: r, s => clearHalts r (if s.isExpressHive h then updHive h (fun hv => { hv with halt := false, halted := false }) s else s)

/-- An image takes force: versions, slot, rails, and HALT of express hives (R128, R178, spec/04 DNC_CTL). -/
def install (img : WaxImg) (pver : List (Nat × Word)) (slotB none_ : Bool) (s : State) : State :=
  clearHalts allHives (raiseRails allRows (updWax (fun w => { w with img := img, pver := pver, forceB := slotB, none_ := none_ }) s))

/-- Banks that a photonic layer of the image uses. -/
def banksOf (w : WaxImg) : List BankId := allBanks.filter fun b => w.banks.getLsbD b.val

/-- R115: the queen sets EN for the banks that an image uses. -/
def enableBanks : List BankId → State → State
  | [], s => s
  | b :: r, s => enableBanks r (if (s.phx.bank[b]).en then s else startCal b (updBank b (fun x => { x with en := true }) s))

/-- R178: versions after an image that changed some partitions. -/
def newVers (old : List (Nat × Word)) (img : WaxImg) (changed : List Nat) : List (Nat × Word) :=
  img.parts.foldl (fun t p => tabSet 0 t p.pid (if changed.contains p.pid then img.ver else tabGet 0 old p.pid)) []

/-- Seals of changed partitions end at an apply (R388). -/
def unsealChanged (s : State) : State := unsealAll (s.wax.changed.filterMap colOf?) s

/-- Running jobs of the changed partitions (R167). -/
def State.changedRuns (s : State) : List Nat := (s.wax.changed.flatMap s.runningOf).map (·.slot)

/-- The queen holds dispatch of a partition for the wax controller (R167). -/
def State.waxHolds (s : State) (part : Nat) : Bool :=
  (s.wax.st == .draining || s.wax.st == .applying || s.wax.st == .rollingBack) && s.wax.changed.contains part

/-- WAX_MISMATCH of a job whose trial ends (Table 11.4 reason 0x3). -/
def mismatchEnd (s : State) (part reason : Nat) : Ending :=
  { code := .waxMismatch, detail := BitVec.ofNat 64 (reason + (tabGet 0 s.wax.pver part).toNat * 2 ^ 32) }

/-- End a job of a trial partition (R171, R172). -/
def trialJobEnds (slot : Nat) (s : State) : State :=
  match s.job? slot with
  | none => s
  | some j => endJob slot (mismatchEnd s j.part.val 3) .waxMismatch s

/-- Refuse a command in the wrong state (R162). -/
def waxBusy (s : State) : State := updWax (fun w => { w with err := 1 }) s

/-- A command or its end with a result code; the claim of the cipher engine follows the state (R373). -/
def waxEnd (err : Byte) (st : WaxState) (s : State) : State := ceFollow (updWax (fun w => { w with err := err, st := st }) s)

-- commands

/-- The staged image's length that STAGE holds: LENGTH, between 16 bytes and the largest image. -/
def State.srcLen (s : State) (a : Nat) : Nat := max 16 (min (memReadLE s.sup.mem (a + 12) 4) 25165824)

/-- STAGE (R163, R164). -/
def execStage (s : State) : Host.Outcome State Fault Refusal :=
  if s.wax.st != .idle then .next (waxBusy s)
  else
    let a := s.wax.src.toNat % 2 ^ 35
    if a % 4096 != 0 || decide (2 ^ 35 < a + 16) || decide (2 ^ 35 < a + memReadLE s.sup.mem (a + 12) 4) then
      .next (updWax (fun w => { w with err := 2 }) s)
    else .next (waxEnd 0 .checking (updWax (fun w => { w with chkRevert := false, hold := some (a, s.srcLen a) }) s))

/-- Enter STAGED. -/
def enterStaged (x : Staged) (s : State) : State :=
  waxEvent 2 (waxEnd 0 .staged (updWax (fun w => { w with staged := some x }) s))

/-- The checks fail: back to IDLE. -/
def checkFailed (f : WaxFail) (s : State) : State :=
  waxEnd 3 .idle (updWax (fun w => { w with hold := none, staged := none }) (waxReport (some f) s))

/-- The end of the checks of STAGE (R164, R165). -/
def stageChecked (s : State) : State :=
  match s.wax.hold with
  | none => s
  | some (a, n) =>
    let bs := memReadN s.sup.mem a n
    let s := noteUe (s.ueIn a n) s
    match checkWax (s.ckEnv false) bs with
    | some f => checkFailed f s
    | none =>
      let s := waxReport none s
      let img := parseWax bs
      if (uN bs 6 2).testBit 0 then
        enterStaged { partialImg := true, pid := u8 bs 20, img := img, bytes := bs, slotB := false, revert := false } s
      else
        let b := s.stagingB
        let s := invalidate s
        ceFollow (updWax (fun w => { putSlot b [] w with
          st := .writing, staged := some { partialImg := false, pid := 0, img := img, bytes := bs, slotB := b, revert := false } }) s)

/-- The end of the checks of REVERT (R175). -/
def revertChecked (s : State) : State :=
  match s.rec? with
  | none => waxEnd 5 .idle s
  | some r =>
    let bs := s.wax.slot (!r.curB)
    match slotCheck s bs r.prevLen r.prevHash r.prevSigned with
    | some f => checkFailed f s
    | none => enterStaged { partialImg := false, pid := 0, img := { parseWax bs with signed := r.prevSigned }, bytes := bs
                            slotB := !r.curB, revert := true } (waxReport none s)

/-- WAX_STAGE_CHECK_DONE (R164, R175). -/
def execWaxStageCheckDone (s : State) : Host.Outcome State Fault Refusal :=
  if s.wax.st != .checking then .next s
  else .next (if s.wax.chkRevert then revertChecked s else stageChecked s)

/-- WAX_STAGE_COPY_DONE (R165). -/
def execWaxStageCopyDone (ok : Bool) (s : State) : Host.Outcome State Fault Refusal :=
  if s.wax.st != .writing then .next s
  else match s.wax.staged with
    | none => .next s
    | some x =>
      let s := updWax (fun w => { w with hold := none }) s
      if ok then .next (enterStaged x (updWax (putSlot x.slotB x.bytes) s))
      else .next (waxEvent 128 (waxEnd 7 .idle (updWax (fun w => { w with staged := none }) s)))

/-- Partitions that an image changes (R166). -/
def State.changedBy (s : State) (x : Staged) : List Nat := if x.partialImg then [x.pid] else changedParts s.curImg x.img

/-- A change of partition 0x40 reclaims the lent hives (R471). -/
def reclaimFor (ps : List Nat) (s : State) : State := if ps.contains 0x40 then reclaimLent allHives s else s

/-- Nothing runs that a change waits for: jobs of the changed partitions, lent work while 0x40 changes (R167, R471). -/
def State.drained (s : State) : Bool := s.changedRuns.isEmpty && (!s.wax.changed.contains 0x40 || s.noneLent)

/-- TRIAL (R166): the apply checks, then the drain; a refused image stays STAGED (log entry 38). The image leaves STAGED,
and the hold on the source of a partial one ends (R163). -/
def execTrial (s : State) : Host.Outcome State Fault Refusal :=
  match s.wax.st, s.wax.staged with
  | .staged, some x =>
    match ckApply (s.ckEnv false) x.bytes with
    | some f => .next (updWax (fun w => { w with err := 3 }) (waxReport (some f) s))
    | none =>
      .next (reclaimFor (s.changedBy x) (updWax (fun w => { w with
        err := 0, st := .draining, hold := none, drainFor := some .trial, changed := s.changedBy x
        wdog := some (if w.wdogMs = 0 then 1 else w.wdogMs) }) (waxReport none s)))
  | _, _ => .next (waxBusy s)

/-- The image that a staged one puts in force (R156). -/
def State.stagedImg (s : State) (x : Staged) : WaxImg := if x.partialImg then applyPartial s.curImg x.pid x.img else x.img

/-- WAX_APPLY (R159, R167): no job of a changed partition runs. -/
def execWaxApply (s : State) : Host.Outcome State Fault Refusal :=
  match s.wax.st, s.wax.staged with
  | .draining, some x =>
    if !s.drained then .next s
    else match ckApply (s.ckEnv false) x.bytes with
      | some f => .next (waxEnd 3 .staged (updWax (fun w => { w with drainFor := none, changed := [], wdog := none }) (waxReport (some f) s)))
      | none =>
        let s := updWax (fun w => { w with st := .applying, drainFor := none }) s
        .next (enableBanks (banksOf (s.stagedImg x)) (unsealChanged s))
  | _, _ => .next s

/-- WAX_APPLY_DONE (R115, R169): once every bank that the image brings into use is LOCKED, the image is in force and the
watchdog starts. -/
def execWaxApplyDone (s : State) : Host.Outcome State Fault Refusal :=
  match s.wax.st, s.wax.staged with
  | .applying, some x =>
    let img := s.stagedImg x
    let fresh := (banksOf img).filter fun b => !(banksOf s.curImg).contains b
    if fresh.any (fun b => (s.phx.bank[b]).st != .locked) then .next s
    else
      let w := s.wax
      let s := updWax (fun w => { w with before := some (w.img, w.pver, w.forceB, w.none_) }) s
      let s := install img (newVers w.pver img w.changed) (if x.partialImg then w.forceB else x.slotB) false s
      .next (waxEvent 4 (waxEnd 0 .trial s))
  | _, _ => .next s

/-- WAX_DRAIN_TIMEOUT (R168, R172): a trial is abandoned, a rollback ends its jobs. WAX_EVT.DRAIN_TO is set for a trial
alone (log entry 76). -/
def execWaxDrainTimeout (s : State) : Host.Outcome State Fault Refusal :=
  if s.wax.drainMs = 0 then .next s
  else match s.wax.st, s.wax.drainFor with
    | .draining, some .trial =>
      .next (waxEvent 64 (waxEnd 4 .staged (updWax (fun w => { w with drainFor := none, changed := [], wdog := none }) s)))
    | .rollingBack, some .rollback =>
      .next (onSlots trialJobEnds s.changedRuns (updWax (fun w => { w with drainFor := none }) s))
    | _, _ => .next s

/-- Some job is paused under shedding (R171): its class is shed (R417), or its bank was shed and has not come back (R120). -/
def State.shedPaused (s : State) : Bool :=
  allHives.any fun h => (s.hv h).wait.any fun p =>
    p.paused == some .shed || (s.pwr.stage != 0 && p.ctx != .fresh && s.classShed p.cls)

/-- WAX_WATCHDOG_EXPIRE (R171). -/
def execWaxWatchdogExpire (s : State) : Host.Outcome State Fault Refusal :=
  if s.wax.st != .trial || s.wax.wdog.isNone || s.shedPaused then .next s
  else
    let s := updWax (fun w => { w with st := .rollingBack, wdog := none, wdogHit := true, drainFor := none }) s
    .next (reclaimFor s.wax.changed (onSlots trialJobEnds s.changedRuns s))

/-- COMMIT (R173, R174). -/
def execCommit (s : State) : Host.Outcome State Fault Refusal :=
  match s.wax.st, s.wax.staged with
  | .trial, some x =>
    if s.curImg.layers.any fun l => (maskHives l.hmask).any ((s.ckEnv false).barren.contains ·) then
      .next (updWax (fun w => { w with err := 6 }) s)
    else
      let s := waxEnd 0 .committing (updWax (fun w => { w with wdog := none }) s)
      if x.partialImg then
        let b := s.stagingB
        .next (updWax (putSlot b []) (invalidate s))
      else .next s
  | _, _ => .next (waxBusy s)

/-- The end of the trial's bookkeeping. -/
def trialOver (w : WaxSt) : WaxSt :=
  { w with staged := none, before := none, changed := [], wdog := none, wdogHit := false, drainFor := none, hold := none }

/-- WAX_COMMIT_DONE (R173, R174). -/
def execWaxCommitDone (ok : Bool) (s : State) : Host.Outcome State Fault Refusal :=
  match s.wax.st, s.wax.staged with
  | .committing, some x =>
    if !ok then .next (waxEvent 128 (waxEnd 7 .idle (updWax trialOver s)))
    else
      let b := if x.partialImg then s.stagingB else x.slotB
      let bs := if x.partialImg then encodeFull s.wax.img else x.bytes
      let signed := if x.partialImg then ((s.rec?.map (·.curSigned)).getD false) && x.img.signed else x.img.signed
      let s := putCommit (commitOf s b signed bs) s
      let s := updWax (fun w => { trialOver (putSlot b bs w) with forceB := b }) s
      .next (waxEvent 8 (waxEnd 0 .idle s))
  | _, _ => .next s

/-- ROLLBACK (R172). -/
def execRollback (s : State) : Host.Outcome State Fault Refusal :=
  if s.wax.st != .trial then .next (waxBusy s)
  else .next (reclaimFor s.wax.changed (updWax (fun w => { w with
    err := 0, st := .rollingBack, wdog := none, drainFor := some .rollback }) s))

/-- The committed image, when its slot passes the checks of a load (R179). -/
def State.committed? (s : State) : Option (WaxImg × Bool) :=
  match s.rec? with
  | none => none
  | some r =>
    let bs := s.wax.slot r.curB
    if (slotCheck s bs r.curLen r.curHash r.curSigned).isNone then some ({ parseWax bs with signed := r.curSigned }, r.curB) else none

/-- The trial is that of a partial image. -/
def State.trialPartial (s : State) : Bool := (s.wax.staged.map (·.partialImg)).getD true

/-- What a rollback puts in force (R170): a partial one the records kept on die, a full one the committed slot; without a
committed slot that loads, what was in force before the trial (log entry 40). -/
def State.rollbackTo (s : State) (before : WaxImg × List (Nat × Word) × Bool × Bool) : WaxImg × List (Nat × Word) × Bool × Bool :=
  if s.trialPartial then before
  else match s.committed? with
    | none => before
    | some (img, b) =>
      if decide (img = before.1) && !before.2.2.2 then before
      else (img, newVers before.2.1 img (changedParts (if before.2.2.2 then {} else before.1) img), b, false)

/-- WAX_ROLLBACK_DONE (R170 to R172): the replaced records are in force again. -/
def execWaxRollbackDone (s : State) : Host.Outcome State Fault Refusal :=
  match s.wax.st, s.wax.before with
  | .rollingBack, some x =>
    if !s.drained then .next s
    else
      let hit := s.wax.wdogHit
      let (img, pver, slotB, none_) := s.rollbackTo x
      let full := !s.trialPartial
      let s := install img pver slotB none_ (unsealChanged s)
      let s := if full then enableBanks (banksOf img) s else s
      .next (waxEvent (if hit then 48 else 16) (updWax (fun w => { trialOver w with st := .idle, err := if hit then w.err else 0 }) s))
  | _, _ => .next s

/-- REVERT (R175). -/
def execRevert (s : State) : Host.Outcome State Fault Refusal :=
  if s.wax.st != .idle then .next (waxBusy s)
  else if (s.rec?.map (·.prevValid)).getD false then
    .next (waxEnd 0 .checking (updWax (fun w => { w with chkRevert := true }) s))
  else .next (updWax (fun w => { w with err := 5 }) s)

/-- ABORT (R176). -/
def execAbort (s : State) : Host.Outcome State Fault Refusal :=
  if s.wax.st != .staged then .next (waxBusy s)
  else .next (updWax (fun w => { w with err := 0, st := .idle, staged := none, hold := none }) s)

-- boot (R179, R180)

/-- WAX_BOOT code of the check of a slot. -/
def bootCode (r : Option WaxFail) : Byte :=
  match r with
  | none => 0
  | some (0x0A, _) => 0xE1
  | some (0x09, _) => 0xE2
  | some (c, _) => c

/-- Load the committed image, or the previous one, or none (R179); each check is reported (R158) and the outcome is in
WAX_BOOT (R180). -/
def waxBoot (s : State) : State :=
  let load := fun (b : Bool) (s : State) =>
    let img := parseWax (s.wax.slot b)
    enableBanks (banksOf img) (install img (newVers [] img (img.parts.map (·.pid))) b false s)
  match s.rec? with
  | none => waxEvent 512 (install {} [] false true (updWax (fun w => { w with bootCur := 0xE0, bootPrev := 0, bootSrc := 2 }) s))
  | some r =>
    let k := slotCheck s (s.wax.slot r.curB) r.curLen r.curHash r.curSigned
    let c := bootCode k
    let s := waxReport k s
    if c = 0 then load r.curB (updWax (fun w => { w with bootCur := 0, bootPrev := 0, bootSrc := 0 }) s)
    else if r.prevValid then
      let k := slotCheck s (s.wax.slot (!r.curB)) r.prevLen r.prevHash r.prevSigned
      let p := bootCode k
      let s := waxReport k s
      if p = 0 then waxEvent 512 (load (!r.curB) (updWax (fun w => { w with bootCur := c, bootPrev := 0, bootSrc := 1 }) s))
      else waxEvent 512 (install {} [] false true (updWax (fun w => { w with bootCur := c, bootPrev := p, bootSrc := 2 }) s))
    else waxEvent 512 (install {} [] false true (updWax (fun w => { w with bootCur := c, bootPrev := 0, bootSrc := 2 }) s))

end Sys2Proof.Machine
end

