-- ==== Sys2Proof/Machine/Jobs.lean ====
section
/-! DEFINITION. Machine/Jobs.lean: doorbells, descriptors, dispatch and the ends of jobs (R238 to R254, R333, R334). -/

namespace Sys2Proof.Machine

-- doorbells (R241, R242, R251)

/-- An entry count of a ring. -/
def ringLen (log2 : BitVec 4) : Nat := 2 ^ log2.toNat

/-- A doorbell that is ignored: COL_ERR.DB_RANGE (R242). -/
def badDoorbell (c : ColId) (s : State) : State := colErr c 1 s

/-- Change one submission queue. -/
def updSq (c : ColId) (q : Fin 4) (f : Sq → Sq) (s : State) : State := updVf c (fun r => { r with sq := updAt r.sq q f }) s

/-- A submission queue. -/
def State.sq (s : State) (c : ColId) (q : Fin 4) : Sq := (s.co c).r.sq[q]

/-- SQ_DOORBELL (R241, R242): a new tail. -/
def execSqDoorbell (c : ColId) (q : Fin 4) (v : Word) (s : State) : Host.Outcome State Fault Refusal :=
  .next (if !(s.sq c q).en || (s.co c).resetBusy || decide (ringLen (s.sq c q).log2 ≤ fld v 0 12) then badDoorbell c s
    else updSq c q (fun x => { x with tail := fld v 0 12 }) s)

/-- CQ_DOORBELL (R242, R251): a new head. -/
def execCqDoorbell (c : ColId) (v : Word) (s : State) : Host.Outcome State Fault Refusal :=
  let r := (s.co c).r
  .next (if !r.cqEn || (s.co c).resetBusy || decide (r.cqSize ≤ fld v 0 12) then badDoorbell c s
    else updVf c (fun r => { r with cqHead := fld v 0 12 }) s)

/-- CQ_RECORD_WRITE (R251, R330): the oldest waiting record goes to the ring once it has space; its job is in flight no more. -/
def execCqRecordWrite (c : ColId) (s : State) : Host.Outcome State Fault Refusal :=
  match (s.co c).r.waiting with
  | [] => .next s
  | r :: rest =>
    if (s.co c).r.cqFull || !(s.fn (.vf c)).bme then .next s
    else .next (drainStep (writeRec c r (updVf c (fun v => { v with waiting := rest }) s)))

/-- CQ_MOD_TIMER (R252): the delay limit has passed since the first record not yet signalled. -/
def execCqModTimer (c : ColId) (s : State) : Host.Outcome State Fault Refusal :=
  let r := (s.co c).r
  .next (if r.modUsec != 0 && r.modPend != 0 then raise (.vf c) 0 (updVf c (fun v => { v with modPend := 0 }) s) else s)

-- descriptors (Table 11.2, Table 11.5)

/-- The fields of a descriptor. -/
def parseDesc (b : List Byte) : Desc :=
  let c := u8 b 0
  let e := u8 b 1
  { cls := natBits c 0 2, hwseed := c.testBit 2, spillOk := c.testBit 3, replayable := c.testBit 4, checkpoint := c.testBit 5
    lendOk := c.testBit 6, rreg := c.testBit 7, fence := e.testBit 0, noirq := e.testBit 1
    inHive := u8 b 2, outHive := u8 b 3, waxVer := BitVec.ofNat 32 (uN b 4 4), key := BitVec.ofNat 64 (uN b 8 8)
    inAddr := BitVec.ofNat 64 (uN b 16 8), inLen := uN b 24 4, inOff := uN b 28 4
    outAddr := BitVec.ofNat 64 (uN b 32 8), outLen := uN b 40 4, outOff := uN b 44 4
    g2 := BitVec.ofNat 32 (uN b 48 4), g3 := BitVec.ofNat 32 (uN b 52 4), user := BitVec.ofNat 32 (uN b 56 4) }

/-- A length of input or output is out of its range or no multiple of 4. -/
def badLen (n : Nat) : Bool := decide (1572864 < n) || n % 4 != 0

/-- The fetch check that a descriptor fails first (Table 11.5), with HIGH_OK of its colony. -/
def descFail (b : List Byte) (highOk : Bool) : Option Byte :=
  let d := parseDesc b
  if u8 b 1 / 4 != 0 || uN b 60 4 != 0 || d.cls = 3 then some 1
  else if d.inAddr.toNat % 64 != 0 || d.outAddr.toNat % 64 != 0 then some 2
  else if badLen d.inLen || badLen d.outLen || d.inOff % 4 != 0 || d.outOff % 4 != 0 then some 3
  else if d.cls = 2 && !highOk then some 4
  else none

/-- The job came from a submission queue of a colony. -/
def Job.ofQueue (j : Job) (c : ColId) : Bool :=
  match j.kind with
  | .queue _ => j.col == c
  | _ => false

/-- Queue jobs of a colony in flight. -/
def State.queueJobs (s : State) (c : ColId) : List Job := s.jobs.filter fun j => j.ofQueue c

/-- Free slots for queue jobs (R239). -/
def State.freeSlots (s : State) : List Nat := (List.range 960).filter fun n => (s.job? n).isNone

/-- A queue has an entry that may be fetched now (R239, R241, R266, R276). -/
def State.canFetch (s : State) (c : ColId) (q : Fin 4) : Bool :=
  s.isReady && s.vfExists c && (s.fn (.vf c)).bme && (s.sq c q).en && (s.sq c q).head != (s.sq c q).tail &&
  !(s.co c).resetBusy && decide ((s.queueJobs c).length < (s.co c).limit) && !s.freeSlots.isEmpty

/-- The queue of a colony that round-robin serves next (R243). -/
def State.nextQueue (s : State) (c : ColId) : Option (Fin 4) :=
  ((List.range 4).map fun i => (⟨((s.co c).nextQ + i) % 4, Nat.mod_lt _ (by decide)⟩ : Fin 4)).find? (s.canFetch c)

/-- The colony and queue that round-robin serves next (R243). -/
def State.nextFetch (s : State) : Option (ColId × Fin 4) :=
  ((List.range 64).map fun i => (⟨(s.nextCol + i) % 64, Nat.mod_lt _ (by decide)⟩ : ColId)).findSome? fun c =>
    (s.nextQueue c).map fun q => (c, q)

/-- The entry at the head of a queue is taken. -/
def passEntry (c : ColId) (q : Fin 4) (s : State) : State :=
  let s := updSq c q (fun x => { x with head := (x.head + 1) % ringLen x.log2 }) s
  updCol c (fun x => { x with nextQ := (q.val + 1) % 4 }) { s with nextCol := (c.val + 1) % 64 }

/-- A descriptor is no job (R245). -/
def badDesc (c : ColId) (q : Fin 4) (code : Byte) (s : State) : State :=
  let idx := (s.sq c q).head
  let s := updVf c (fun r => if r.errCode = 0 then
    { r with errCode := code, errSq := BitVec.ofNat 2 q.val, errIdx := BitVec.ofNat 12 idx } else r) s
  colErr c 0 (passEntry c q s)

/-- The next generation of a slot (R240). -/
def nextGen (g : Nat) : Nat := if 63 ≤ g then 1 else g + 1

/-- Fill a slot of the job table. -/
def fillSlot (slot : Nat) (j : Job) (s : State) : State :=
  let g := nextGen (tabGet 0 s.gens slot)
  let s := { s with guard := { s.guard with en := { s.guard.en with wire := s.guard.en.wire.filter fun x =>
    match x.1 with | .job n => n.val != slot | _ => true } } }
  { s with gens := tabSet 0 s.gens slot g, order := s.order + 1, jobs := s.jobs ++ [{ j with slot := slot, gen := g, order := s.order }] }

/-- The partition of a colony. -/
def colPart (c : ColId) : PartId := ⟨c.val, by have := c.isLt; omega⟩

/-- The read of the entry that a fetch takes: 64 bytes at SQ_BASE + 64 SQ_HEAD (R241). -/
def readEntry (c : ColId) (q : Fin 4) (s : State) : State :=
  let x := s.sq c q
  readsEnd (.entry c q) (cellarRead (.vf c) (.entry c q) (alignDown x.base.toNat 12 + 64 * x.head) 64 s)

/-- JOB_FETCH (R239, R241, R243, R245): the queen fetches the entry that is next; which free slot it takes is not stated (log
entry 11). -/
def execJobFetch (c : ColId) (q : Fin 4) (bytes : List Byte) (s : State) : Host.Outcome State Fault Refusal :=
  if s.nextFetch != some (c, q) || bytes.length != 64 then .next s
  else match descFail bytes (s.co c).highOk with
  | some code => .next (badDesc c q code (readEntry c q s))
  | none =>
    let s := readEntry c q s
    let l := s.freeSlots
    let slot := l.getD ((s.free 16).toNat % l.length) 0
    let j : Job := { slot := 0, gen := 0, col := c, kind := .queue q, d := parseDesc bytes, part := colPart c, span := (s.co c).span }
    .next (fillSlot slot j (passEntry c q s.tickFree))

-- dispatch checks (R246, R217, R230)

/-- The partition owns the hive of a number. -/
def State.ownsHive (s : State) (part h : Nat) : Bool := decide (h < 96) && s.wax.img.owner? h == some part

/-- The dance image of a partition is stale (R217). -/
def State.stale (s : State) (part : Nat) : Bool :=
  match s.model? part with
  | none => false
  | some m => (m.waxVer != 0 && m.waxVer != tabGet 0 s.wax.pver part) ||
      m.seeds.any fun l => (s.wax.img.layer? part l).isNone

/-- DOES_NOT_FIT with its detail (Table 11.4). -/
def noFit (hives where_ kib : Nat) : Ending :=
  { code := .doesNotFit, detail := BitVec.ofNat 64 (hives + 256 * where_ + 2 ^ 32 * kib) }

/-- The largest shortfall of the plans of a kind. -/
def Model.short (m : Model) (k : Plan) : Nat := ((m.plans.filter fun p => p.plan == k).map (·.shortKib)).foldl max 0

/-- The plan of a model: the worst of its hives (R228). -/
def Model.plan (m : Model) : Plan :=
  if m.plans.any fun p => p.plan == .nofit then .nofit
  else if m.plans.any fun p => p.plan == .supered then .supered else .resident

/-- The fit check (Table 10.5). -/
def State.fitFail (s : State) (part : Nat) (spillOk : Bool) : Option Ending :=
  match s.model? part with
  | none => some (noFit 0 0 0)
  | some m =>
    let off := m.dir.filter fun d => (s.hv d.hive).barren || (s.hv d.hive).gated
    let need := ((s.wax.img.part? part).map (·.supMib)).getD 0
    let have_ := s.caBytes (s.wax.img.colonyOf part) / 2 ^ 20
    if !off.isEmpty then some (noFit off.length 0 0)
    else if have_ < need then some (noFit 0 1 ((need - have_) * 1024))
    else match m.plan with
    | .nofit => some (noFit 0 0 (m.short .nofit))
    | .supered => if spillOk then none else some (noFit 0 0 (m.short .supered))
    | .resident => none

/-- Checks 1 to 4 of R246 on a partition. -/
def State.checkFail (s : State) (part : Nat) (d : Desc) (hives : Bool) : Option Ending :=
  if d.waxVer != 0 && d.waxVer != tabGet 0 s.wax.pver part then some (mismatchEnd s part 1)
  else if hives && !(s.ownsHive part d.inHive && s.ownsHive part d.outHive) then some (mismatchEnd s part 5)
  else if s.stale part then some (mismatchEnd s part 4)
  else s.fitFail part d.spillOk

/-- The queen holds dispatch of a partition: a drain, or a model load (R167, R227). -/
def State.holds (s : State) (part : PartId) : Bool := s.waxHolds part.val || s.mld.hold == some part

-- placing programs (R248)

/-- The start value of the layer register: the lowest layer of the partition (Table 9.1). -/
def State.firstLayer (s : State) (part : Nat) : Nat :=
  ((s.wax.img.layers.filter fun l => l.pid == part).map (·.layer)).foldl min 255

/-- The program of a job for a hive of the directory, as it starts (Table 9.1). -/
def newProg (s : State) (j : Job) (h : HiveId) : Prog :=
  let g := (((Vector.replicate 16 (0 : Word)).set 0 (BitVec.ofNat 32 j.d.inOff)).set 1 (BitVec.ofNat 32 j.d.outOff)).set 2 j.d.g2
  { slot := j.slot, home := h, g := g.set 3 j.d.g3, layer := BitVec.ofNat 8 (s.firstLayer j.part.val)
    order := s.order, cls := if j.isExpress then 3 else j.d.cls, needInput := j.inputPend && h.val == j.d.inHive }

/-- Give every hive of the directory its program. -/
def placeProgs (j : Job) : List HiveId → State → State
  | [], s => s
  | h :: r, s => placeProgs j r (updHive h (fun hv => { hv with wait := hv.wait ++ [newProg s j h] }) s)

/-- The CTRL byte of a descriptor (Table 11.2). -/
def Desc.ctrl (d : Desc) : Byte :=
  BitVec.ofNat 8 (d.cls % 4 + 4 * b2n d.hwseed + 8 * b2n d.spillOk + 16 * b2n d.replayable + 32 * b2n d.checkpoint +
    64 * b2n d.lendOk + 128 * b2n d.rreg)

/-- The DISPATCH record of a home job (Table 22.3): CTRL, queue, and the partition version in force; an express request
has no descriptor and no CTRL byte. -/
def glassDispatch (j : Job) (s : State) : State :=
  let ver := leBytes 4 (tabGet 0 s.wax.pver j.part.val).toNat
  match j.kind with
  | .queue q => glassJob 4 j.col j.tag 0 ([j.d.ctrl, BitVec.ofNat 8 q.val, 0, 0] ++ ver) s
  | .express .. => glassJob 4 j.col j.tag 1 ([0, 4, 0, 0] ++ ver) s
  | .swarm .. => s

/-- The reads of a job's input: IN_LEN bytes at IN_ADDR (R248). -/
def readInput (j : Job) (s : State) : State :=
  if j.inputPend then cellarRead (.vf j.col) (.input j.slot j.gen) j.d.inAddr.toNat j.d.inLen s else s

/-- The programs of a job start or come to wait, and its input is read (R248, R253): targets of the barriers from the image, programs on the hives
of the directory. -/
def startJob (slot : Nat) (s : State) : State :=
  match s.job? slot with
  | none => s
  | some j =>
    match s.model? j.part.val with
    | none => s
    | some m =>
      let bars : Vector Barrier 32 := Vector.ofFn fun i => { target := m.targets.getD i.val 0 }
      let j := { j with st := .running, started := true, bars := bars, inputPend := j.isHome && j.d.inLen != 0
                        degr := if m.plan == .supered then j.degr ||| 1 else j.degr }
      let hs := m.dir.map (·.hive)
      let s := readInput j (placeProgs j hs { updJob slot (fun _ => j) s with order := s.order + 1 })
      scheduleAll hs s

/-- The other stations of the span get DISPATCH (R333). -/
def dispatchMsg (j : Job) : SwMsg :=
  .dispatch { col := j.col, cls := j.d.cls, replayable := j.d.replayable, checkpoint := j.d.checkpoint, waxVer := j.d.waxVer
              key := j.key, span := j.span, spillOk := j.d.spillOk
              hives := some (j.d.inHive, j.d.outHive) }

/-- A job that has passed its checks is dispatched (R246, R329, R333). -/
def dispatchJob (slot : Nat) (s : State) : State :=
  match s.job? slot with
  | none => s
  | some j =>
    match s.unreached j with
    | some a => endJob slot { code := .swarmLost, detail := BitVec.ofNat 64 a.val } (.cancel 0) s
    | none =>
      let s := updJob slot (fun j => { j with
        st := .running, sealed := j.part.val != 0x40 && s.isSealed j.col, reach := s.reachOf j.span }) s
      let s := glassDispatch j s
      if (s.others j).isEmpty then startJob slot s else sendSwAll j (dispatchMsg j) (s.others j) s

/-- An earlier job of the same queue stands before a job: undispatched, or, behind a FENCE, without a written record
(R243, R247). -/
def State.behind (s : State) (j : Job) : Bool :=
  s.jobs.any fun i => i.kind == j.kind && i.col == j.col && decide (i.order < j.order) && (i.st == .queued || j.d.fence)

/-- Swarm jobs wait during a walk, and on a station that is leaving or detached (R330, R331, R343). -/
def State.swarmWaits (s : State) (j : Job) : Bool :=
  !(s.others j).isEmpty && (s.swarm.drain || s.swarm.walk.isSome || s.swarm.st == .draining || s.swarm.st == .detached)

/-- A queued job of a queue may be dispatched now (R246, R247, R418). -/
def State.mayDispatch (s : State) (j : Job) : Bool :=
  s.isReady && j.st == .queued && !j.seedPend && !s.holds j.part && !s.classShed j.d.cls && !s.behind j && !s.swarmWaits j

/-- The checks of a queued job and its dispatch; a software key is taken here (R246, R50, R51). -/
def tryDispatch (slot : Nat) (j : Job) (s : State) : State :=
  match s.checkFail j.part.val j.d true with
  | some e => endJob slot e (.cancel 0) s
  | none =>
    if j.d.hwseed && !j.seeded then
      if s.guard.en.dead then seedLost slot s else updJob slot (fun j => { j with seedPend := true }) s
    else dispatchJob slot (if j.d.hwseed then s else updJob slot (fun j => { j with key := j.d.key }) s)

/-- JOB_DISPATCH (R246, R247): the queen checks a queued job. -/
def execJobDispatch (slot : SlotId) (s : State) : Host.Outcome State Fault Refusal :=
  match s.job? slot.val with
  | none => .next s
  | some j =>
    match j.kind with
    | .queue _ => if s.mayDispatch j then .next (tryDispatch slot.val j s) else .next s
    | _ => .next s

/-- JOB_SEED_ARRIVE (R50, R51): the seed is the key; the job is dispatched when nothing else holds it. -/
def execJobSeedArrive (slot : SlotId) (s : State) : Host.Outcome State Fault Refusal :=
  match s.guard.en.wire.find? (fun x => x.1 == Consumer.job slot), s.job? slot.val with
  | some (_, v), some j =>
    if !j.seedPend then .next s
    else
      let s := updEn (fun e => { e with wire := e.wire.filter fun x => x.1 != Consumer.job slot }) s
      let j := { j with seedPend := false, seeded := true, key := v }
      let s := updJob slot.val (fun _ => j) s
      if s.mayDispatch j then .next (tryDispatch slot.val j s) else .next s
  | _, _ => .next s

-- the input copy (R248)

/-- The hive whose window takes the input of a job: the express hive while its program is lent (R256). -/
def Job.inAt? (j : Job) : Option HiveId := (hiveOf? j.d.inHive).map j.winHive

/-- The input of a job is in place: its program may start. -/
def inputReady (slot : Nat) (s : State) : State :=
  let s := updJob slot (fun j => { j with inputPend := false }) s
  let s := { s with hives := s.hives.map fun hv => { hv with
    wait := hv.wait.map fun p => if p.slot == slot then { p with needInput := false } else p } }
  scheduleAll allHives s

/-- INPUT_COPY_DONE (R186, R187, R248): the bytes are in IN_HIVE's window; the copy waits while Bus Master Enable is 0
(R276). -/
def execInputCopyDone (slot : SlotId) (bytes : List Byte) (s : State) : Host.Outcome State Fault Refusal :=
  match s.job? slot.val with
  | none => .next s
  | some j =>
    if !j.inputPend || j.st != .running || bytes.length != j.d.inLen || !(s.fn (.vf j.col)).bme then .next s
    else
      let s := readsEnd (.input j.slot j.gen) s
      let s := match j.inAt?, hiveOf? j.d.inHive with
        | some h, some home => winWrite slot.val j.part.val h home j.d.inOff bytes s
        | _, _ => s
      .next (inputReady slot.val s)

-- the end of a job

/-- A program of the job is left on some hive. -/
def State.jobHasProg (s : State) (slot : Nat) : Bool :=
  allHives.any fun h => (match (s.hv h).run with | some p => p.slot == slot | none => false) ||
    (s.hv h).wait.any fun p => p.slot == slot

/-- Every program of a running job has ended, on every station of its span (R249, R334). -/
def State.jobOver (s : State) (j : Job) : Bool :=
  j.st == .running && j.started && !j.inputPend && !s.jobHasProg j.slot && s.othersDone j

/-- JOB_END (R249, R260, R334). -/
def execJobEnd (slot : SlotId) (s : State) : Host.Outcome State Fault Refusal :=
  match s.job? slot.val with
  | none => .next s
  | some j => if s.jobOver j then .next (completeJob slot.val s) else .next s

end Sys2Proof.Machine
end

