-- ==== Sys2Proof/Machine/DanceCode.lean ====
section
/-! DEFINITION. Machine/DanceCode.lean: the instructions of a dance program and the dance image (Tables 9.2 to 9.6, 9.9,
9.10, R184, R214). -/

namespace Sys2Proof.Machine

/-- A register number. -/
abbrev Reg4 := Fin 16

/-- STREAM (Table 9.5). -/
structure StreamOp where
  cmask : Nat
  nout : Nat
  b : Nat
  gi : Reg4
  gw : Reg4
  ga : Reg4
  go : Reg4
  ctx : Fin 2
  recNo : Fin 16
  clr : Bool
  fin : Bool
  deriving DecidableEq, Repr

/-- An instruction of a dance program (Table 9.2). -/
inductive DOp
  | nop
  | endProg
  | yield
  | li (rd : Reg4) (imm : Word)
  | alu (rd ra rb : Reg4) (fn : Nat) (useImm : Bool) (imm : Word)
  | ld (rd ra : Reg4) (imm : Word)
  | st (ra rb : Reg4) (imm : Word)
  | mov (ra rb rc : Reg4) (len : Nat)
  | ldw (ra rb : Reg4) (len : Nat)
  | ldp (ctx : Fin 2) (table : Bool) (ra : Reg4) (first count : Nat)
  | stream (o : StreamOp)
  | clr (ra : Reg4) (n : Nat)
  | req (ra rb : Reg4) (ctx : Fin 2) (recNo : Fin 16) (n : Nat)
  | draw (ra rb rc rd re : Reg4) (ctx : Fin 2) (recNo : Fin 16)
  | get (ra rd : Reg4)
  | seed (layer : Nat)
  | vset (level : BitVec 2) (lead : Nat)
  | hint (combs : BitVec 4) (lead : Nat)
  | arrive (bar : Fin 32)
  | wait (bar : Fin 32)
  | arriveWait (bar : Fin 32)
  | br (cond : Nat) (ra rb : Reg4) (target : Nat)
  | lset (lc : Fin 4) (useReg : Bool) (ra : Reg4) (count : Nat)
  | lend (lc : Fin 4) (target : Nat)
  deriving DecidableEq, Repr

/-- A register field at bit `lo`. -/
def regAt (w lo : Nat) : Reg4 := ⟨w >>> lo % 16, Nat.mod_lt _ (by decide)⟩

/-- A context bit. -/
def ctxAt (w lo : Nat) : Fin 2 := ⟨w >>> lo % 2, Nat.mod_lt _ (by decide)⟩

/-- A barrier field. -/
def barAt (w lo : Nat) : Fin 32 := ⟨w >>> lo % 32, Nat.mod_lt _ (by decide)⟩

/-- A loop counter field. -/
def lcAt (w lo : Nat) : Fin 4 := ⟨w >>> lo % 4, Nat.mod_lt _ (by decide)⟩

/-- Reserved fields, as (low bit, length), all read 0. -/
def clear (w : Nat) (fs : List (Nat × Nat)) : Bool := fs.all fun f => natBits w f.1 f.2 == 0

/-- An instruction when its reserved fields are 0. -/
def ifClear (w : Nat) (fs : List (Nat × Nat)) (o : DOp) : Option DOp := if clear w fs then some o else none

/-- HONEY (Table 9.6). -/
def decodeHoney (w : Nat) : Option DOp :=
  let ok := clear w [(54, 1), (21, 13), (13, 3)]
  let ra := regAt w 50
  let rb := regAt w 46
  let rd := regAt w 38
  let ctx := ctxAt w 20
  let rn := regAt w 16
  let n := natBits w 0 13
  if !ok then none
  else match natBits w 55 3 with
  | 0 => some (.clr ra n)
  | 1 => some (.req ra rb ctx rn n)
  | 2 => some (.draw ra rb (regAt w 42) rd (regAt w 34) ctx rn)
  | 3 => some (.get ra rd)
  | _ => none

/-- SYNC (Table 9.2). -/
def decodeSync (w : Nat) : Option DOp :=
  if !clear w [(53, 3), (0, 48)] then none
  else match natBits w 56 2 with
  | 1 => some (.arrive (barAt w 48))
  | 2 => some (.wait (barAt w 48))
  | 3 => some (.arriveWait (barAt w 48))
  | _ => none

/-- STREAM (Table 9.5). -/
def decodeStream (w : Nat) : Option DOp :=
  ifClear w [(0, 9)] (.stream {
    cmask := natBits w 50 8, nout := natBits w 38 12 + 1, b := natBits w 32 6 + 1, gi := regAt w 28, gw := regAt w 24
    ga := regAt w 20, go := regAt w 16, ctx := ctxAt w 15, recNo := regAt w 11, clr := w.testBit 10, fin := w.testBit 9 })

/-- The instruction that a 64-bit word encodes; none where an opcode, an encoding or a reserved field is rejected
(Table 9.2, R184). -/
def decodeDance (w : Nat) : Option DOp :=
  let imm : Word := BitVec.ofNat 32 (natBits w 0 32)
  match natBits w 58 6 with
  | 0x00 => ifClear w [(0, 58)] .nop
  | 0x01 => ifClear w [(0, 58)] .endProg
  | 0x02 => ifClear w [(0, 58)] .yield
  | 0x04 => ifClear w [(32, 22)] (.li (regAt w 54) imm)
  | 0x05 => if natBits w 42 4 ≤ 12 then
      ifClear w [(32, 9)] (.alu (regAt w 54) (regAt w 50) (regAt w 46) (natBits w 42 4) (w.testBit 41) imm) else none
  | 0x06 => ifClear w [(32, 18)] (.ld (regAt w 54) (regAt w 50) imm)
  | 0x07 => ifClear w [(54, 4), (32, 14)] (.st (regAt w 50) (regAt w 46) imm)
  | 0x08 => ifClear w [(54, 4), (17, 25)] (.mov (regAt w 50) (regAt w 46) (regAt w 42) (natBits w 0 17))
  | 0x09 => ifClear w [(54, 4), (21, 25)] (.ldw (regAt w 50) (regAt w 46) (natBits w 0 21))
  | 0x0A => ifClear w [(54, 2), (26, 24), (11, 5)]
      (.ldp (ctxAt w 57) (w.testBit 56) (regAt w 50) (natBits w 16 10) (natBits w 0 11))
  | 0x10 => decodeStream w
  | 0x11 => decodeHoney w
  | 0x12 => ifClear w [(8, 50)] (.seed (natBits w 0 8))
  | 0x18 => ifClear w [(20, 36)] (.vset (BitVec.ofNat 2 (natBits w 56 2)) (natBits w 0 20))
  | 0x19 => if natBits w 54 4 ≤ 8 then
      ifClear w [(16, 38)] (.hint (BitVec.ofNat 4 (natBits w 54 4)) (natBits w 0 16)) else none
  | 0x1A => decodeSync w
  | 0x20 => if natBits w 54 4 ≤ 8 then
      ifClear w [(24, 22)] (.br (natBits w 54 4) (regAt w 50) (regAt w 46) (natBits w 0 24)) else none
  | 0x21 => ifClear w [(54, 1), (16, 34)] (.lset (lcAt w 56) (w.testBit 55) (regAt w 50) (natBits w 0 16))
  | 0x22 => ifClear w [(24, 32)] (.lend (lcAt w 56) (natBits w 0 24))
  | _ => none

/-- The ALU (Table 9.3). -/
def aluOp (fn : Nat) (a b : Word) : Word :=
  match fn with
  | 0 => a + b
  | 1 => a - b
  | 2 => a &&& b
  | 3 => a ||| b
  | 4 => a ^^^ b
  | 5 => a <<< (b.toNat % 32)
  | 6 => a >>> (b.toNat % 32)
  | 7 => a.sshiftRight (b.toNat % 32)
  | 8 => a * b
  | 9 => if a.slt b then a else b
  | 10 => if a.slt b then b else a
  | 11 => if a.slt b then 1 else 0
  | _ => if a.ult b then 1 else 0

/-- A branch condition (Table 9.4). -/
def condHolds (cond : Nat) (a b : Word) : Bool :=
  match cond with
  | 0 => true
  | 1 => a == b
  | 2 => a != b
  | 3 => a.slt b
  | 4 => !a.slt b
  | 5 => a.ult b
  | 6 => !a.ult b
  | 7 => a == 0
  | _ => a != 0

-- the image

/-- A dance image as bytes with its directory read (Tables 9.9, 9.10). -/
structure DanceImg where
  bytes : List Byte
  pid : Nat
  nProg : Nat
  waxVer : Word
  length : Nat
  targets : List Nat
  deriving DecidableEq, Repr

/-- Read the header of an image. -/
def readDance (bs : List Byte) : DanceImg := {
  bytes := bs, pid := u8 bs 6, nProg := u8 bs 7, waxVer := BitVec.ofNat 32 (uN bs 8 4), length := uN bs 12 4
  targets := (List.range 32).map fun k => uN bs (32 + 2 * k) 2 }

/-- Offset of directory entry k. -/
def dirOff (k : Nat) : Nat := 96 + 16 * k

/-- Fields of directory entry k: HIVE, N_INSTR, IMG_OFF, CS_OFF. -/
def DanceImg.entHive (d : DanceImg) (k : Nat) : Nat := u8 d.bytes (dirOff k)

/-- N_INSTR of entry k. -/
def DanceImg.entN (d : DanceImg) (k : Nat) : Nat := uN d.bytes (dirOff k + 4) 3

/-- IMG_OFF of entry k. -/
def DanceImg.entImg (d : DanceImg) (k : Nat) : Nat := uN d.bytes (dirOff k + 8) 4

/-- CS_OFF of entry k. -/
def DanceImg.entCs (d : DanceImg) (k : Nat) : Nat := uN d.bytes (dirOff k + 12) 4

/-- The instruction words of a program. -/
def DanceImg.words (d : DanceImg) (k : Nat) : List Nat :=
  ((chunksOf 8 (d.entN k) (((d.bytes.drop (d.entImg k)).take (8 * d.entN k))))).map leNat

/-- The instructions of a program, as far as they decode. -/
def DanceImg.ops (d : DanceImg) (k : Nat) : List (Option DOp) := (d.words k).map decodeDance

end Sys2Proof.Machine
end

