-- ==== Sys2Proof/Machine/Parnik.lean ====
section
/-! DEFINITION. Machine/Parnik.lean: the Parnik generator (R44 to R47), the uniform distributions (R53) and the
Gumbel noise (R54, R55). The two ROM tables are computed from the rules R46 and R55. -/

namespace Sys2Proof.Machine

/-- R46: POLY, the tap words of the lanes, entries 0 to 63. -/
def polyTab0 : List Nat := [
  0x00400007, 0x0040003D, 0x004000C1, 0x004000CD, 0x0040010F, 0x00400165, 0x00400203, 0x0040022B,
  0x00400255, 0x00400259, 0x0040025F, 0x0040033D, 0x00400349, 0x00400447, 0x00400453, 0x00400477,
  0x0040048B, 0x0040049F, 0x004004D7, 0x004004E7, 0x00400519, 0x0040051F, 0x0040052F, 0x0040056D,
  0x00400591, 0x0040059D, 0x004005A7, 0x004005BF, 0x004005C7, 0x004005CB, 0x004005E3, 0x004005E5,
  0x00400631, 0x0040063B, 0x0040088B, 0x004008FF, 0x00400907, 0x00400943, 0x00400985, 0x004009D5,
  0x004009F1, 0x00400A51, 0x00400A67, 0x00400A85, 0x00400B2B, 0x00400B33, 0x00400B4B, 0x00400B59,
  0x00400B87, 0x00400BC5, 0x00400BD7, 0x00400C51, 0x00400D2D, 0x00400D47, 0x00400D65, 0x00400D7B,
  0x00400DE7, 0x00400E81, 0x00400EF9, 0x00400EFF, 0x00400F31, 0x00400F8F, 0x00400FB3, 0x00401027]

/-- R46: POLY, the tap words of the lanes, entries 64 to 127. -/
def polyTab1 : List Nat := [
  0x004010A3, 0x004010CF, 0x004010F3, 0x0040116D, 0x004011A1, 0x0040121F, 0x00401231, 0x00401275,
  0x00401289, 0x004012B3, 0x004012B9, 0x00401309, 0x00401327, 0x00401347, 0x004013FF, 0x0040145B,
  0x00401517, 0x00401599, 0x004015C3, 0x004015CF, 0x00401621, 0x0040164D, 0x0040165F, 0x00401677,
  0x00401699, 0x004016D1, 0x00401725, 0x00401749, 0x00401815, 0x00401831, 0x00401843, 0x00401933,
  0x00401939, 0x0040196F, 0x0040197B, 0x004019F3, 0x00401B0B, 0x00401B31, 0x00401BA1, 0x00401BAB,
  0x00401C7D, 0x00401CDB, 0x00401D49, 0x00401D61, 0x00401D8F, 0x00401DE9, 0x00401E3B, 0x00401E49,
  0x00401E67, 0x00401EBF, 0x00401ED5, 0x00401EE3, 0x00401EFD, 0x00401FBD, 0x00401FE1, 0x0040208D,
  0x004020DD, 0x00402113, 0x004021B5, 0x004021BF, 0x0040221F, 0x00402223, 0x00402261, 0x004022A1]

/-- R46: POLY, the tap words of the lanes, entries 128 to 191. -/
def polyTab2 : List Nat := [
  0x004022CB, 0x00402327, 0x004023DB, 0x004023DD, 0x00402431, 0x0040248F, 0x004024E3, 0x0040258D,
  0x004025FF, 0x00402617, 0x00402663, 0x004026A9, 0x004026BB, 0x00402701, 0x0040273D, 0x00402791,
  0x00402797, 0x004027E5, 0x0040287F, 0x004028A7, 0x00402917, 0x0040292B, 0x00402941, 0x00402947,
  0x00402969, 0x0040298D, 0x004029C5, 0x004029E7, 0x004029EB, 0x00402A21, 0x00402A99, 0x00402AA3,
  0x00402AB1, 0x00402B57, 0x00402BA1, 0x00402BFD, 0x00402C59, 0x00402C65, 0x00402CA5, 0x00402CBD,
  0x00402D31, 0x00402D4F, 0x00402D5D, 0x00402D89, 0x00402DB3, 0x00402E13, 0x00402E49, 0x00402EC1,
  0x00402F27, 0x00402F87, 0x00402FC5, 0x00403007, 0x00403029, 0x0040305D, 0x0040308F, 0x00403169,
  0x00403187, 0x004031F9, 0x0040322D, 0x0040325F, 0x00403265, 0x00403299, 0x004032A9, 0x004032EB]

/-- R46: POLY, the tap words of the lanes, entries 192 to 255. -/
def polyTab3 : List Nat := [
  0x00403373, 0x004033C7, 0x004033D5, 0x004033F1, 0x00403417, 0x00403421, 0x00403439, 0x00403447,
  0x0040344D, 0x0040345F, 0x004034DB, 0x0040350B, 0x0040356B, 0x004035B3, 0x004035D9, 0x004035DF,
  0x00403619, 0x0040361F, 0x00403631, 0x00403689, 0x004036AB, 0x00403793, 0x004037D7, 0x00403805,
  0x00403809, 0x0040384D, 0x004038C9, 0x00403901, 0x00403907, 0x0040390D, 0x004039A1, 0x004039B3,
  0x004039EF, 0x00403A0D, 0x00403A1F, 0x00403A29, 0x00403A49, 0x00403B1D, 0x00403B41, 0x00403BDD,
  0x00403C37, 0x00403C4F, 0x00403C91, 0x00403CE9, 0x00403DB7, 0x00403E2D, 0x00403E35, 0x00403E39,
  0x00403E47, 0x00403EBB, 0x00403EE1, 0x00403EED, 0x00403F1F, 0x00403F23, 0x00403FB3, 0x00403FCD,
  0x00403FD5, 0x00404003, 0x004040A9, 0x004040B7, 0x0040411F, 0x0040412F, 0x0040413B, 0x0040415D]

/-- R46: POLY, the tap words of the lanes, in rows of 64. -/
def polyTab : List (List Nat) :=
  [polyTab0, polyTab1, polyTab2, polyTab3]

/-- R55: GTAB, the Gumbel table, entries 0 to 63. -/
def gumbelTab0 : List Nat := [
  0x2E1FD631, 0x2DBFD910, 0x2D5FDBEA, 0x2D1FDEBF, 0x2CDFE18E, 0x2C9FE45A, 0x2C5FE722, 0x2C3FE9E6,
  0x2C1FECA8, 0x2BFFEF67, 0x2BDFF224, 0x2BBFF4DF, 0x2B9FF799, 0x2B9FFA52, 0x2B9FFD0A, 0x2B9FFFC2,
  0x2B80027A, 0x2B800532, 0x2BA007EB, 0x2BA00AA5, 0x2BC00D60, 0x2BE0101C, 0x2C0012DA, 0x2C20159A,
  0x2C60185D, 0x2C801B22, 0x2CC01DEA, 0x2CE020B6, 0x2D202385, 0x2D602657, 0x2DC0292E, 0x2E002C0A,
  0x1E9FA24B, 0x1E3FA433, 0x1DBFA614, 0x1D5FA7EE, 0x1CDFA9C1, 0x1C7FAB8E, 0x1C3FAD55, 0x1BDFAF16,
  0x1B7FB0D2, 0x1B3FB289, 0x1AFFB43B, 0x1ABFB5E8, 0x1A5FB791, 0x1A1FB936, 0x19FFBAD7, 0x19BFBC74,
  0x197FBE0E, 0x193FBFA4, 0x191FC137, 0x18DFC2C7, 0x18BFC453, 0x189FC5DD, 0x185FC765, 0x183FC8E9,
  0x181FCA6B, 0x17FFCBEB, 0x17DFCD69, 0x17BFCEE4, 0x179FD05E, 0x177FD1D5, 0x175FD34B, 0x173FD4BF]

/-- R55: GTAB, the Gumbel table, entries 64 to 127. -/
def gumbelTab1 : List Nat := [
  0x16FF7D78, 0x167F7EE6, 0x161F804C, 0x15BF81AC, 0x155F8306, 0x14FF845A, 0x149F85A8, 0x145F86F1,
  0x13FF8835, 0x13BF8974, 0x137F8AAE, 0x133F8BE4, 0x12FF8D16, 0x12BF8E43, 0x127F8F6D, 0x123F9092,
  0x11FF91B5, 0x11DF92D3, 0x119F93EF, 0x117F9507, 0x113F961C, 0x111F972E, 0x10DF983D, 0x10BF9949,
  0x109F9A53, 0x105F9B5A, 0x103F9C5F, 0x101F9D61, 0x0FFF9E61, 0x0FDF9F5F, 0x0FBFA05A, 0x0F9FA153,
  0x125F60E8, 0x11FF620C, 0x119F632A, 0x113F6442, 0x10FF6555, 0x109F6662, 0x105F676A, 0x0FFF686E,
  0x0FBF696D, 0x0F7F6A67, 0x0F3F6B5D, 0x0EFF6C50, 0x0EBF6D3E, 0x0E9F6E29, 0x0E5F6F10, 0x0E1F6FF4,
  0x0DFF70D5, 0x0DBF71B2, 0x0D9F728D, 0x0D5F7365, 0x0D3F7439, 0x0D1F750B, 0x0CDF75DB, 0x0CBF76A8,
  0x0C9F7772, 0x0C7F783B, 0x0C5F7901, 0x0C3F79C4, 0x0C1F7A86, 0x0BFF7B45, 0x0BDF7C03, 0x0BBF7CBE]

/-- R55: GTAB, the Gumbel table, entries 128 to 191. -/
def gumbelTab2 : List Nat := [
  0x0F5F4992, 0x0EFF4A85, 0x0E9F4B73, 0x0E5F4C5B, 0x0DFF4D3F, 0x0DBF4E1E, 0x0D7F4EF8, 0x0D3F4FCE,
  0x0CFF50A1, 0x0CBF516F, 0x0C7F5239, 0x0C5F5300, 0x0C1F53C4, 0x0BFF5484, 0x0BBF5541, 0x0B9F55FC,
  0x0B5F56B3, 0x0B3F5767, 0x0B1F5819, 0x0ADF58C8, 0x0ABF5975, 0x0A9F5A20, 0x0A7F5AC8, 0x0A5F5B6D,
  0x0A3F5C11, 0x0A1F5CB3, 0x09FF5D52, 0x09DF5DF0, 0x09BF5E8B, 0x099F5F25, 0x097F5FBD, 0x095F6053,
  0x0D1F35D6, 0x0CDF36A7, 0x0C7F3772, 0x0C3F3839, 0x0BFF38FC, 0x0BBF39BA, 0x0B7F3A74, 0x0B3F3B2A,
  0x0B1F3BDD, 0x0ADF3C8C, 0x0A9F3D38, 0x0A7F3DE1, 0x0A3F3E87, 0x0A1F3F2A, 0x09FF3FCA, 0x09BF4067,
  0x099F4102, 0x097F419A, 0x095F4230, 0x093F42C4, 0x091F4355, 0x08FF43E4, 0x08DF4472, 0x08BF44FD,
  0x089F4586, 0x087F460D, 0x085F4693, 0x083F4717, 0x081F4799, 0x07FF4819, 0x07FF4898, 0x07DF4916]

/-- R55: GTAB, the Gumbel table, entries 192 to 255. -/
def gumbelTab3 : List Nat := [
  0x0B7F24BF, 0x0B3F2575, 0x0AFF2627, 0x0ABF26D5, 0x0A7F277E, 0x0A3F2824, 0x09FF28C6, 0x09DF2965,
  0x099F2A01, 0x097F2A99, 0x093F2B2E, 0x091F2BC1, 0x08FF2C51, 0x08BF2CDE, 0x089F2D69, 0x087F2DF1,
  0x085F2E77, 0x083F2EFB, 0x081F2F7C, 0x07FF2FFC, 0x07DF3079, 0x07BF30F5, 0x079F316F, 0x077F31E6,
  0x075F325D, 0x073F32D1, 0x073F3344, 0x071F33B6, 0x06FF3425, 0x06DF3494, 0x06DF3501, 0x06BF356C,
  0x0A3F15AB, 0x09FF164D, 0x09BF16EB, 0x097F1785, 0x095F181C, 0x091F18AF, 0x08DF193F, 0x08BF19CB,
  0x087F1A55, 0x085F1ADC, 0x083F1B60, 0x081F1BE1, 0x07DF1C60, 0x07BF1CDD, 0x079F1D57, 0x077F1DCF,
  0x075F1E45, 0x073F1EB9, 0x071F1F2C, 0x06FF1F9C, 0x06DF200A, 0x06BF2077, 0x06BF20E2, 0x069F214B,
  0x067F21B3, 0x065F2219, 0x065F227E, 0x063F22E2, 0x061F2344, 0x061F23A4, 0x05FF2404, 0x05DF2462]

/-- R55: GTAB, the Gumbel table, entries 256 to 319. -/
def gumbelTab4 : List Nat := [
  0x093F082F, 0x08FF08C1, 0x08BF094F, 0x089F09D9, 0x085F0A60, 0x083F0AE4, 0x07FF0B65, 0x07DF0BE4,
  0x079F0C5F, 0x077F0CD8, 0x075F0D4E, 0x073F0DC2, 0x071F0E34, 0x06FF0EA3, 0x06DF0F11, 0x06BF0F7C,
  0x069F0FE6, 0x067F104E, 0x065F10B4, 0x063F1118, 0x061F117A, 0x061F11DB, 0x05FF123B, 0x05DF1299,
  0x05DF12F5, 0x05BF1350, 0x059F13AA, 0x059F1403, 0x057F145A, 0x055F14B0, 0x055F1505, 0x053F1559,
  0x085EFBFC, 0x083EFC80, 0x07FEFD01, 0x07BEFD7F, 0x079EFDFA, 0x077EFE72, 0x073EFEE7, 0x071EFF59,
  0x06FEFFC9, 0x06DF0036, 0x06BF00A2, 0x067F010B, 0x065F0172, 0x065F01D7, 0x063F023A, 0x061F029B,
  0x05FF02FA, 0x05DF0358, 0x05BF03B4, 0x05BF040F, 0x059F0468, 0x057F04BF, 0x055F0515, 0x055F056A,
  0x053F05BE, 0x051F0610, 0x051F0661, 0x04FF06B0, 0x04FF06FF, 0x04DF074D, 0x04DF0799, 0x04BF07E4]

/-- R55: GTAB, the Gumbel table, entries 320 to 383. -/
def gumbelTab5 : List Nat := [
  0x07BEF0D8, 0x077EF152, 0x075EF1C8, 0x071EF23B, 0x06FEF2AC, 0x06DEF319, 0x069EF385, 0x067EF3ED,
  0x065EF454, 0x063EF4B8, 0x061EF51A, 0x05FEF57A, 0x05DEF5D8, 0x05BEF634, 0x059EF68E, 0x059EF6E7,
  0x057EF73E, 0x055EF794, 0x053EF7E8, 0x053EF83A, 0x051EF88B, 0x04FEF8DB, 0x04FEF92A, 0x04DEF977,
  0x04BEF9C3, 0x04BEFA0E, 0x049EFA57, 0x049EFAA0, 0x047EFAE7, 0x047EFB2E, 0x045EFB74, 0x045EFBB8,
  0x071EE69A, 0x06FEE70A, 0x06BEE777, 0x069EE7E1, 0x067EE849, 0x063EE8AE, 0x061EE911, 0x05FEE971,
  0x05DEE9CF, 0x05BEEA2C, 0x059EEA86, 0x057EEADE, 0x055EEB35, 0x055EEB89, 0x053EEBDD, 0x051EEC2E,
  0x04FEEC7E, 0x04FEECCD, 0x04DEED1A, 0x04BEED66, 0x04BEEDB1, 0x049EEDFA, 0x047EEE42, 0x047EEE89,
  0x045EEECF, 0x045EEF13, 0x043EEF57, 0x043EEF9A, 0x041EEFDB, 0x041EF01C, 0x03FEF05C, 0x03FEF09A]

/-- R55: GTAB, the Gumbel table, entries 384 to 447. -/
def gumbelTab6 : List Nat := [
  0x069EDD1D, 0x067EDD85, 0x063EDDEB, 0x061EDE4D, 0x05FEDEAD, 0x05DEDF0B, 0x05BEDF67, 0x059EDFC0,
  0x057EE018, 0x055EE06D, 0x053EE0C1, 0x051EE112, 0x04FEE163, 0x04FEE1B1, 0x04DEE1FE, 0x04BEE24A,
  0x049EE294, 0x049EE2DD, 0x047EE324, 0x045EE36A, 0x045EE3AF, 0x043EE3F3, 0x043EE436, 0x041EE477,
  0x041EE4B8, 0x03FEE4F7, 0x03FEE536, 0x03DEE573, 0x03DEE5B0, 0x03BEE5EC, 0x03BEE626, 0x03BEE660,
  0x063ED449, 0x05FED4AA, 0x05DED508, 0x05BED564, 0x059ED5BE, 0x057ED615, 0x055ED66B, 0x053ED6BE,
  0x051ED70F, 0x04FED75F, 0x04DED7AD, 0x04BED7F9, 0x04BED844, 0x049ED88D, 0x047ED8D5, 0x045ED91B,
  0x045ED960, 0x043ED9A4, 0x043ED9E6, 0x041EDA27, 0x041EDA68, 0x03FEDAA7, 0x03DEDAE5, 0x03DEDB21,
  0x03DEDB5D, 0x03BEDB98, 0x03BEDBD3, 0x039EDC0C, 0x039EDC44, 0x037EDC7C, 0x037EDCB2, 0x037EDCE8]

/-- R55: GTAB, the Gumbel table, entries 448 to 511. -/
def gumbelTab7 : List Nat := [
  0x05DECC06, 0x059ECC61, 0x057ECCB9, 0x055ECD10, 0x053ECD64, 0x051ECDB6, 0x04FECE05, 0x04DECE53,
  0x04BECEA0, 0x049ECEEA, 0x049ECF33, 0x047ECF7B, 0x045ECFC0, 0x045ED005, 0x043ED048, 0x041ED08A,
  0x041ED0CA, 0x03FED109, 0x03FED148, 0x03DED185, 0x03BED1C1, 0x03BED1FB, 0x039ED235, 0x039ED26E,
  0x039ED2A6, 0x037ED2DD, 0x037ED314, 0x035ED349, 0x035ED37E, 0x035ED3B2, 0x033ED3E5, 0x033ED417,
  0x057EC443, 0x055EC499, 0x053EC4EC, 0x051EC53D, 0x04FEC58C, 0x04DEC5D9, 0x04BEC625, 0x049EC66E,
  0x047EC6B6, 0x045EC6FC, 0x045EC740, 0x043EC783, 0x041EC7C5, 0x041EC805, 0x03FEC844, 0x03DEC882,
  0x03DEC8BF, 0x03BEC8FA, 0x03BEC934, 0x039EC96E, 0x039EC9A6, 0x037EC9DD, 0x037ECA14, 0x035ECA49,
  0x035ECA7E, 0x033ECAB1, 0x033ECAE4, 0x033ECB16, 0x031ECB48, 0x031ECB78, 0x031ECBA8, 0x02FECBD7]

/-- R55: GTAB, the Gumbel table, entries 512 to 575. -/
def gumbelTab8 : List Nat := [
  0xB6C09F7A, 0xB8A09AE6, 0xBA40966F, 0xBBE09213, 0xBD608DD1, 0xBEC089A6, 0xC0008591, 0xC1408192,
  0xC2807DA7, 0xC3A079CE, 0xC4A07607, 0xC5A07252, 0xC6A06EAC, 0xC7806B15, 0xC860678D, 0xC9206412,
  0xC9E060A4, 0xCAA05D43, 0xCB6059ED, 0xCC0056A2, 0xCCA05362, 0xCD40502C, 0xCDC04CFF, 0xCE4049DC,
  0xCEC046C1, 0xCF4043AE, 0xCFC040A2, 0xD0203D9E, 0xD0A03AA1, 0xD10037AA, 0xD16034BA, 0xD1A031CF,
  0xBC8101B8, 0xBE60FD80, 0xC020F966, 0xC1C0F568, 0xC360F184, 0xC4E0EDB9, 0xC640EA07, 0xC780E66A,
  0xC8E0E2E3, 0xCA00DF70, 0xCB20DC10, 0xCC40D8C3, 0xCD40D587, 0xCE40D25B, 0xCF40CF40, 0xD020CC34,
  0xD100C936, 0xD1E0C646, 0xD2A0C363, 0xD360C08E, 0xD420BDC4, 0xD4E0BB07, 0xD580B854, 0xD640B5AD,
  0xD6E0B310, 0xD780B07E, 0xD800ADF5, 0xD8A0AB75, 0xD920A8FF, 0xD9A0A691, 0xDA20A42C, 0xDAA0A1CF]

/-- R55: GTAB, the Gumbel table, entries 576 to 639. -/
def gumbelTab9 : List Nat := [
  0xBEE15EC8, 0xC0C15AB6, 0xC28156C2, 0xC42152EB, 0xC5C14F2D, 0xC7414B8A, 0xC8A147FE, 0xCA014488,
  0xCB414128, 0xCC813DDD, 0xCDA13AA5, 0xCEC13780, 0xCFE1346C, 0xD0E13169, 0xD1C12E76, 0xD2C12B93,
  0xD3A128BE, 0xD48125F8, 0xD541233F, 0xD6012093, 0xD6C11DF4, 0xD7811B61, 0xD84118D9, 0xD8E1165D,
  0xD98113EB, 0xDA211184, 0xDAC10F27, 0xDB610CD3, 0xDBE10A89, 0xDC810848, 0xDD01060F, 0xDD8103DF,
  0xC001B996, 0xC1E1B596, 0xC3A1B1B3, 0xC541ADED, 0xC6E1AA41, 0xC861A6AF, 0xC9C1A334, 0xCB219FD1,
  0xCC619C83, 0xCDA19949, 0xCEC19623, 0xCFE1930F, 0xD101900D, 0xD2018D1C, 0xD2E18A3B, 0xD3E1876A,
  0xD4C184A8, 0xD5A181F3, 0xD6617F4D, 0xD7417CB3, 0xD8017A26, 0xD8A177A5, 0xD9617530, 0xDA0172C6,
  0xDAC17067, 0xDB616E12, 0xDC016BC7, 0xDC816986, 0xDD21674F, 0xDDA16520, 0xDE2162FB, 0xDEC160DD]

/-- R55: GTAB, the Gumbel table, entries 640 to 703. -/
def gumbelTab10 : List Nat := [
  0xC0821355, 0xC2620F5C, 0xC4220B82, 0xC5C207C4, 0xC7620421, 0xC8E20097, 0xCA41FD25, 0xCBA1F9C9,
  0xCCE1F684, 0xCE21F352, 0xCF41F035, 0xD061ED29, 0xD181EA30, 0xD281E747, 0xD381E46F, 0xD461E1A6,
  0xD541DEEC, 0xD621DC40, 0xD6E1D9A2, 0xD7C1D711, 0xD881D48D, 0xD941D214, 0xD9E1CFA8, 0xDAA1CD46,
  0xDB41CAF0, 0xDBE1C8A3, 0xDC81C661, 0xDD21C429, 0xDDA1C1FA, 0xDE21BFD4, 0xDEC1BDB7, 0xDF41BBA3,
  0xC0C26C8F, 0xC2A2689B, 0xC46264C4, 0xC602610A, 0xC7A25D6B, 0xC92259E5, 0xCA825678, 0xCBE25320,
  0xCD224FDF, 0xCE624CB2, 0xCF824998, 0xD0A24691, 0xD1C2439B, 0xD2C240B7, 0xD3C23DE3, 0xD4A23B1E,
  0xD5823868, 0xD66235C0, 0xD7423326, 0xD8023099, 0xD8C22E19, 0xD9822BA5, 0xDA22293C, 0xDAE226DF,
  0xDB82248D, 0xDC222245, 0xDCC22007, 0xDD621DD2, 0xDDE21BA8, 0xDE821986, 0xDF02176D, 0xDF82155D]

/-- R55: GTAB, the Gumbel table, entries 704 to 767. -/
def gumbelTab11 : List Nat := [
  0xC0E2C588, 0xC2C2C196, 0xC482BDC2, 0xC622BA0A, 0xC7C2B66D, 0xC942B2E9, 0xCAA2AF7D, 0xCC02AC28,
  0xCD42A8E8, 0xCE82A5BD, 0xCFA2A2A5, 0xD0C29FA0, 0xD1E29CAD, 0xD2E299CB, 0xD3E296F8, 0xD4C29436,
  0xD5A29182, 0xD6828EDC, 0xD7628C44, 0xD82289B9, 0xD8E2873B, 0xD9A284C9, 0xDA428262, 0xDB028007,
  0xDBA27DB7, 0xDC427B71, 0xDCE27935, 0xDD827703, 0xDE0274DA, 0xDEA272BA, 0xDF2270A3, 0xDFA26E95,
  0xC0E31E61, 0xC2C31A70, 0xC4A3169D, 0xC64312E6, 0xC7E30F4A, 0xC9630BC7, 0xCAC3085C, 0xCC230508,
  0xCD6301C9, 0xCEA2FE9F, 0xCFC2FB89, 0xD0E2F885, 0xD1E2F592, 0xD2E2F2B1, 0xD3E2EFE0, 0xD4E2ED1E,
  0xD5C2EA6B, 0xD682E7C6, 0xD762E52F, 0xD822E2A6, 0xD8E2E028, 0xD9A2DDB7, 0xDA62DB52, 0xDB02D8F7,
  0xDBC2D6A8, 0xDC62D463, 0xDCE2D228, 0xDD82CFF7, 0xDE22CDCF, 0xDEA2CBB0, 0xDF22C99B, 0xDFA2C78D]

/-- R55: GTAB, the Gumbel table, entries 768 to 831. -/
def gumbelTab12 : List Nat := [
  0xC103772A, 0xC2E3733A, 0xC4A36F67, 0xC6436BB1, 0xC7E36815, 0xC9636493, 0xCAC36128, 0xCC235DD5,
  0xCD635A96, 0xCEA3576D, 0xCFC35457, 0xD0E35153, 0xD2034E61, 0xD3034B80, 0xD3E348B0, 0xD4E345EF,
  0xD5C3433C, 0xD6A34098, 0xD7633E02, 0xD8433B78, 0xD90338FB, 0xD9A3368B, 0xDA633426, 0xDB2331CC,
  0xDBC32F7D, 0xDC632D38, 0xDD032AFE, 0xDD8328CD, 0xDE2326A6, 0xDEA32488, 0xDF432273, 0xDFC32066,
  0xC103CFEC, 0xC2E3CBFB, 0xC4A3C828, 0xC643C472, 0xC7E3C0D7, 0xC963BD55, 0xCAC3B9EB, 0xCC23B697,
  0xCD63B35A, 0xCEA3B030, 0xCFC3AD1A, 0xD0E3AA17, 0xD203A725, 0xD303A445, 0xD403A174, 0xD4E39EB3,
  0xD5C39C01, 0xD6A3995D, 0xD76396C7, 0xD843943E, 0xD90391C1, 0xD9C38F51, 0xDA638CEC, 0xDB238A93,
  0xDBC38844, 0xDC638600, 0xDD0383C6, 0xDDA38195, 0xDE237F6E, 0xDEA37D50, 0xDF437B3B, 0xDFC3792F]

/-- R55: GTAB, the Gumbel table, entries 832 to 895. -/
def gumbelTab13 : List Nat := [
  0xC10428A9, 0xC2E424B8, 0xC4A420E6, 0xC6441D30, 0xC7E41995, 0xC9641613, 0xCAC412A9, 0xCC240F55,
  0xCD640C18, 0xCEA408EE, 0xCFC405D9, 0xD0E402D5, 0xD203FFE4, 0xD303FD03, 0xD403FA33, 0xD4E3F772,
  0xD5C3F4C0, 0xD6A3F21D, 0xD763EF86, 0xD843ECFD, 0xD903EA81, 0xD9C3E811, 0xDA63E5AC, 0xDB23E353,
  0xDBC3E104, 0xDC63DEC0, 0xDD03DC86, 0xDDA3DA56, 0xDE23D82F, 0xDEC3D611, 0xDF43D3FC, 0xDFC3D1F0,
  0xC1048164, 0xC2E47D73, 0xC4A479A1, 0xC64475EB, 0xC7E47250, 0xC9646ECE, 0xCAC46B64, 0xCC246811,
  0xCD6464D3, 0xCEA461AA, 0xCFC45E94, 0xD0E45B91, 0xD20458A0, 0xD30455BF, 0xD40452EF, 0xD4E4502E,
  0xD5C44D7C, 0xD6A44AD9, 0xD7844843, 0xD84445BA, 0xD904433D, 0xD9C440CD, 0xDA643E68, 0xDB243C0F,
  0xDBC439C1, 0xDC64377D, 0xDD043543, 0xDDA43312, 0xDE2430EC, 0xDEC42ECE, 0xDF442CB9, 0xDFC42AAD]

/-- R55: GTAB, the Gumbel table, entries 896 to 959. -/
def gumbelTab14 : List Nat := [
  0xC104DA1E, 0xC2E4D62D, 0xC4A4D25B, 0xC644CEA5, 0xC7E4CB0A, 0xC964C788, 0xCAC4C41E, 0xCC24C0CB,
  0xCD64BD8D, 0xCEA4BA64, 0xCFC4B74F, 0xD0E4B44C, 0xD204B15A, 0xD304AE7A, 0xD404ABAA, 0xD4E4A8E9,
  0xD5C4A637, 0xD6A4A393, 0xD784A0FD, 0xD8449E74, 0xD9049BF8, 0xD9C49988, 0xDA649723, 0xDB2494CA,
  0xDBC4927B, 0xDC649037, 0xDD048DFD, 0xDDA48BCD, 0xDE2489A7, 0xDEC48789, 0xDF448574, 0xDFC48368,
  0xC10532D7, 0xC2E52EE7, 0xC4A52B15, 0xC645275F, 0xC7E523C4, 0xC9652042, 0xCAC51CD8, 0xCC251985,
  0xCD651647, 0xCEA5131E, 0xCFC51008, 0xD0E50D05, 0xD2050A14, 0xD3050734, 0xD4050463, 0xD4E501A3,
  0xD5C4FEF1, 0xD6A4FC4D, 0xD784F9B7, 0xD844F72E, 0xD904F4B2, 0xD9C4F242, 0xDA64EFDD, 0xDB24ED84,
  0xDBC4EB35, 0xDC64E8F1, 0xDD04E6B7, 0xDDA4E487, 0xDE24E261, 0xDEC4E043, 0xDF44DE2E, 0xDFC4DC22]

/-- R55: GTAB, the Gumbel table, entries 960 to 1023. -/
def gumbelTab15 : List Nat := [
  0xC1058B90, 0xC2E587A0, 0xC4A583CE, 0xC6458018, 0xC7E57C7D, 0xC96578FB, 0xCAC57591, 0xCC25723E,
  0xCD656F00, 0xCEA56BD7, 0xCFC568C2, 0xD0E565BF, 0xD20562CD, 0xD3055FED, 0xD4055D1D, 0xD4E55A5C,
  0xD5C557AA, 0xD6A55506, 0xD7855270, 0xD8454FE8, 0xD9054D6B, 0xD9C54AFB, 0xDA654897, 0xDB25463D,
  0xDBC543EF, 0xDC6541AB, 0xDD053F71, 0xDDA53D41, 0xDE253B1A, 0xDEC538FC, 0xDF4536E8, 0xDFC534DB,
  0xC105E44A, 0xC2E5E059, 0xC4A5DC87, 0xC645D8D1, 0xC7E5D536, 0xC965D1B4, 0xCAC5CE4A, 0xCC25CAF7,
  0xCD65C7BA, 0xCEA5C491, 0xCFC5C17B, 0xD0E5BE78, 0xD205BB87, 0xD305B8A6, 0xD405B5D6, 0xD4E5B315,
  0xD5C5B063, 0xD6A5ADC0, 0xD785AB2A, 0xD845A8A1, 0xD905A624, 0xD9C5A3B4, 0xDA65A150, 0xDB259EF7,
  0xDBC59CA8, 0xDC659A64, 0xDD05982A, 0xDDA595FA, 0xDE2593D3, 0xDEC591B6, 0xDF458FA1, 0xDFC58D95]

/-- R55: GTAB, the Gumbel table, in rows of 64. -/
def gumbelTab : List (List Nat) :=
  [gumbelTab0, gumbelTab1, gumbelTab2, gumbelTab3, gumbelTab4, gumbelTab5, gumbelTab6, gumbelTab7, gumbelTab8, gumbelTab9, gumbelTab10, gumbelTab11, gumbelTab12, gumbelTab13, gumbelTab14, gumbelTab15]

/-- The tap word of a lane (R46); the logical lane selects it (R47). -/
def poly (lane : Nat) : Word := BitVec.ofNat 32 ((polyTab.getD (lane / 64) []).getD (lane % 64) 0)

/-- One Galois step of a lane's LFSR (R44). -/
def galoisStep (t x : Word) : Word := (x <<< 1) ^^^ (if x.msb then t else 0)

/-- The jump of one round: n Galois steps (R44 uses 8). -/
def galoisSteps (t : Word) : Nat → Word → Word
  | 0, x => x
  | n + 1, x => galoisSteps t n (galoisStep t x)

/-- One round: key step, jump of 8 steps, add-rotate modulo 2^32 (R44). -/
def parnikRound (t rk : Word) (rot : Nat) (x : Word) : Word :=
  let j := galoisSteps t 8 (x ^^^ rk)
  j + ((j <<< rot) ||| (j >>> (32 - rot)))

/-- The round keys of Table 3.1. -/
def roundKey (key : DWord) (sid : BitVec 24) (r : Nat) : Word :=
  let lo := loHalf key
  let hi := hiHalf key
  let s := sid.setWidth 32
  match r with
  | 0 => lo ^^^ 0x9E3779B9
  | 1 => hi ^^^ (s <<< 8)
  | _ => lo ^^^ hi ^^^ s ^^^ 0x7F4A7C15

/-- R44: the Parnik word of (key, stream id, position). -/
def parnik (key : DWord) (sid : BitVec 24) (pos : Word) : Word :=
  let t := poly (pos.toNat % 256)
  parnikRound t (roundKey key sid 2) 20
    (parnikRound t (roundKey key sid 1) 8
      (parnikRound t (roundKey key sid 0) 12 pos))

/-- The position of the leading one of a non-zero number below 2^n. -/
def leadingOne : Nat → Nat → Option Nat
  | 0, _ => none
  | n + 1, v => if v.testBit n then some n else leadingOne n v

/-- The Gumbel table entry (R55). -/
def gumbelEnt (i : Nat) : Nat := (gumbelTab.getD (i / 64) []).getD (i % 64) 0

/-- R54: the Gumbel noise of a word, a signed Q15.16 value. -/
def gumbelQ16 (w : Word) : Int :=
  let hi := b2n w.msb
  let a : Nat := if w.msb then (~~~w).toNat else w.toNat
  let esf : Nat × Nat × Nat :=
    match leadingOne 32 a with
    | none => (15, 0, 0)
    | some m =>
      if m < 15 then (15, 0, 0)
      else (30 - m, (a >>> (m - 5)) % 32, (a >>> (m - 13)) % 256)
  let ent := gumbelEnt (hi * 512 + esf.1 * 32 + esf.2.1)
  let base := sext (ent % 2 ^ 21) 21
  let dlt := sext (ent >>> 21) 11
  2 * base + asr (4 * dlt * (esf.2.2 : Int)) 8

/-- R53: the FP32 bits of k x 2^-n for k below 2^n, n at most 24 (exact; 0 gives +0.0). -/
def fp32OfFrac (k n : Nat) : Word :=
  match leadingOne n k with
  | none => 0
  | some m => mkWord [(0, 23, (k <<< (23 - m)) % 2 ^ 23), (23, 8, 127 + m - n)]

/-- R53: FP32 in [0, 1): (w >> 8) x 2^-24. -/
def parnikFp32 (w : Word) : Word := fp32OfFrac (w.toNat >>> 8) 24

/-- R53: BF16 in [0, 1): (w >> 24) x 2^-8, in bits [15:0]. -/
def parnikBf16 (w : Word) : Word := fp32OfFrac (w.toNat >>> 24) 8 >>> 16

/-- PRK_SP_CTL.FMT: the value of a word in one of the four formats. -/
def parnikFmt (fmt : Nat) (w : Word) : Word :=
  match fmt with
  | 0 => w
  | 1 => parnikFp32 w
  | 2 => parnikBf16 w
  | _ => BitVec.ofInt 32 (gumbelQ16 w)

/-- R48: a stream id formed by SEED. -/
def seedSid (colony layer element : Nat) : BitVec 24 :=
  BitVec.ofNat 24 ((colony % 64) * 2 ^ 18 + (layer % 64) * 2 ^ 12 + element % 4096)

/-- PRK_ROM_DATA: the ROM word that PRK_ROM_IDX selects. -/
def parnikRom (idx : Nat) : Word :=
  if idx < 0x100 then poly idx
  else if 0x400 ≤ idx then BitVec.ofNat 32 (gumbelEnt (idx - 0x400))
  else 0

end Sys2Proof.Machine
end

