-- ==== Sys2Proof/Machine/Operands.lean ====
section
/-! DEFINITION. Machine/Operands.lean: streams, counts, requantisation, the activation table and the sampler's draw
(R30 to R40, R54 to R57, R73 to R80, R104 to R106), and the shape of a layer on a hive (R144, R195 to R197). -/

namespace Sys2Proof.Machine

-- honey (R39, R77 to R80)

/-- A parameter record (Table 4.3). -/
structure HnyRec where
  z : Int
  m : Nat
  sh : Nat
  act : Nat
  score : Bool
  q0 : Nat
  md : Nat
  deriving DecidableEq, Repr

/-- Word w of record r of a context. -/
def HnyCtx.word (c : HnyCtx) (r w : Nat) : Word := tabGet 0 c.ps (r * 4 + w)

/-- A record as it stands. -/
def HnyCtx.recOf (c : HnyCtx) (r : Nat) : HnyRec :=
  let w1 := c.word r 1
  let w2 := c.word r 2
  { z := sword (c.word r 0), m := fld w1 0 16, sh := fld w1 16 5, act := fld w1 24 2, score := bit w1 26, q0 := fld w2 0 12, md := fld w2 16 16 }

/-- Z clamped (R78). -/
def HnyRec.zc (r : HnyRec) : Int := if r.z < -(2 ^ 30) then -(2 ^ 30) else if 2 ^ 30 < r.z then 2 ^ 30 else r.z

/-- The record sets HIV_EVT.PARAM at a requantisation (Table 4.3, R78). -/
def HnyRec.param (r : HnyRec) : Bool := r.act == 3 || r.zc != r.z

/-- Steps 1 and 2 of R39. -/
def HnyRec.scaled (r : HnyRec) (a : Word) : Int :=
  let t := ((a.toNat : Int) - r.zc) * (r.m : Int)
  if r.sh = 0 then t else asr (t + 2 ^ (r.sh - 1)) r.sh

/-- Saturate to [0, 4095]. -/
def satCode (v : Int) : Nat := if v < 0 then 0 else if 4095 < v then 4095 else v.toNat

/-- The activation table applied to a code (R80). -/
def actCode (c : HnyCtx) (q : Nat) : Nat :=
  let e := tabGet 0 c.act (q / 4)
  satCode ((fld e 0 12 : Int) + asr (sext (fld e 12 12) 12 * ((q % 4 : Nat) : Int) + 2) 2)

/-- A requantised count: its bytes, and whether step 4 saturated (R39, R40, R79). -/
def requant (c : HnyCtx) (r : HnyRec) (a : Word) : List Byte × Bool :=
  let t := r.scaled a
  if r.score then (leBytes 4 (toField (satS t 32) 32), false)
  else
    let v := t + (r.q0 : Int)
    let q := satCode v
    let q' := match r.act with
      | 1 => actCode c q
      | 2 => max q r.q0
      | _ => q
    (leBytes 2 q', decide ((q : Int) ≠ v))

/-- Width of a result (R79, R522). -/
def HnyRec.width (r : HnyRec) : Nat := if r.score then 4 else 2

-- the sampler (R56, R57)

/-- The scaled score of R56. -/
def scaledScore (md : Nat) (s : Int) : Int := satS (asr (s * (md : Int) + 0x80) 8) 32

/-- Insert into a list in descending order; equal values keep the order of their indices. -/
def insTop (z : Int) (i : Nat) : List (Int × Nat) → List (Int × Nat)
  | [] => [(z, i)]
  | (y, k) :: r => if y < z then (z, i) :: (y, k) :: r else (y, k) :: insTop z i r

/-- The k indices of the largest values, in descending order, ties by ascending index. -/
def topIdx (k : Nat) (zs : List Int) : List Nat :=
  ((zs.foldl (fun (a : List (Int × Nat) × Nat) z => ((insTop z a.2 a.1).take k, a.2 + 1)) ([], 0)).1).map (·.2)

/-- A draw (R56, R57): scores, multiplier, the noise words unless argmax, and the number of indices. -/
def drawIdx (scores : List Int) (md k : Nat) (noise : Option (Nat → Word)) : List Nat :=
  topIdx k (scores.mapIdx fun j s => scaledScore md s + match noise with
    | some w => gumbelQ16 (w j)
    | none => 0)

-- streams and counts (R31 to R35, R73)

/-- Bit at a position of a random stream (R31). -/
def randBit (key : DWord) (sid : BitVec 24) (code pos : Nat) : Bool :=
  decide ((parnik key sid (BitVec.ofNat 32 pos)).toNat / 2 ^ 20 < code)

/-- Ones of a unary stream (R32). -/
def unaryOnes (code len : Nat) : Nat := (code * len + 2048) / 4096

/-- What a layer does with its bits: encoding, length, and whether weights are random. -/
structure CellMode where
  bip : Bool
  randw : Bool
  len : Nat
  key : DWord
  deriving DecidableEq, Repr

/-- The weight, input and product bits of one term at bit t, stream position pos (R31 to R35). -/
def cellBits (m : CellMode) (wsid isid : BitVec 24) (wcode icode t pos : Nat) : Bool × Bool × Bool :=
  let w := if m.randw then randBit m.key wsid wcode pos else decide (t < unaryOnes wcode m.len)
  let x := randBit m.key isid icode pos
  (w, x, if m.bip then w == x else w && x)

/-- Ones of one term's product bits from bit t0 on, n bits, bit t at position pos0 + t. -/
def termOnes (m : CellMode) (wsid isid : BitVec 24) (wcode icode pos0 : Nat) : Nat → Nat → Nat
  | _, 0 => 0
  | t, n + 1 => b2n (cellBits m wsid isid wcode icode t (pos0 + t)).2.2 + termOnes m wsid isid wcode icode pos0 (t + 1) n

-- the shape of a layer on a hive

/-- A layer on the hive that runs it, as R144, R145 and R195 give it. -/
structure Shape where
  part : Nat
  layer : Nat
  mode : CellMode
  /-- S and SUB. -/
  slabs : Nat
  sub : Nat
  /-- T, P' and G0, SPAN. -/
  terms : Nat
  passes : Nat
  g0 : Nat
  span : Nat
  nTerms : Nat
  /-- NL. -/
  local_ : Nat
  /-- Present combs. -/
  combs : List Nat
  photonic : Bool
  fallback : Bool
  tolerate : Bool
  lcode : Nat
  wset : Nat
  deriving DecidableEq, Repr

/-- Terms of a global pass. -/
def passTerms (nTerms t g : Nat) : Nat := min t (nTerms - g * t)

/-- The combs of a mask that a hive has enabled. -/
def combsOf (cmask en : Nat) : List Nat := (List.range 8).filter fun q => cmask.testBit q && en.testBit q

/-- The shape of layer l of a partition on logical hive `home`; none when the layer's HMASK does not name it (R195). -/
def shapeFor (w : WaxImg) (part l : Nat) (home : HiveId) (key : DWord) (cmask : Nat) : Option Shape :=
  match w.layer? part l with
  | none => none
  | some r =>
    if !r.hmask.getLsbD home.val then none
    else
      let len := lenOf r.lcode
      let t := w.termsPerPass part l
      let p := passesOf r.nTerms t
      let span := max 1 r.span
      let g0 := ((maskHives r.hmask).idxOf home.val) % span
      let local_ := (List.range p).filter fun g => decide (g0 ≤ g) && (g - g0) % span == 0
      some {
        part := part, layer := l, mode := { bip := r.bip, randw := r.randw, len := len, key := key }
        slabs := max 1 (len / 256), sub := max 1 (256 / len), terms := t, passes := local_.length, g0 := g0, span := span
        nTerms := r.nTerms, local_ := (local_.map (passTerms r.nTerms t)).sum
        combs := combsOf cmask (w.combEn home.val).toNat, photonic := w.photonic part l, fallback := w.fallback part l
        tolerate := w.tolerate part l, lcode := r.lcode, wset := w.wset part l }

/-- The global pass of local pass p. -/
def Shape.global (s : Shape) (p : Nat) : Nat := s.g0 + p * s.span

/-- Real terms of local pass p. -/
def Shape.realTerms (s : Shape) (p : Nat) : Nat := passTerms s.nTerms s.terms (s.global p)

/-- The logical cell of the k-th active cell (Table 5.1). -/
def Shape.cellOf (s : Shape) (k : Nat) : Nat :=
  if s.photonic then ((List.range 64).filter (wsetHas s.wset)).getD k 64 else k

/-- Rounds of n outputs. -/
def Shape.rounds (s : Shape) (nout : Nat) : Nat := if s.combs.isEmpty then 0 else (nout + s.combs.length - 1) / s.combs.length

/-- Outputs of round r. -/
def Shape.inRound (s : Shape) (nout r : Nat) : Nat := min s.combs.length (nout - r * s.combs.length)

/-- Steps of issue of a STREAM: passes of a whole round, or of one comb where the combs take turns (R196). -/
def Shape.steps (s : Shape) (nout b : Nat) : Nat := s.passes * b * (if s.mode.randw then nout else s.rounds nout)

/-- Where step n stands: round, local pass, sample, and the outputs that issue. -/
def Shape.stepAt (s : Shape) (nout b n : Nat) : Nat × Nat × Nat × List Nat :=
  let ne := s.combs.length
  if s.mode.randw then
    let per := s.passes * b * ne
    let r := n / per
    let k := n % per
    let m := max 1 (s.inRound nout r)
    (r, k / m / b, k / m % b, [r * ne + k % m])
  else
    let r := n / (s.passes * b)
    (r, n / b % s.passes, n % b, (List.range (s.inRound nout r)).map (r * ne + ·))

/-- Window offset of an operand word for chain or sample x, sub-cell j, local term i (R197). -/
def Shape.wordOff (s : Shape) (x j i : Nat) : Nat := ((x * s.sub + j) * s.local_ + i) * 2

-- the photonic path (R104 to R106)

/-- A converter code corrected by an entry (R104). -/
def corrected (coherent : Bool) (e : CalEnt) (c : Int) : Int :=
  let v := asr ((c - sext e.offs.toNat 12) * (e.gain.toNat : Int) + 0x2000) 14
  if coherent then satS v 12 else (satCode v : Int)

/-- The count of one integrator (R105, R106); n active unpadded wavelengths. -/
def integrated (coherent : Bool) (slabs n : Nat) (c : Int) : Int :=
  if coherent then (slabs : Int) * (c + 32 * (n : Int)) else (slabs : Int) * c

/-- The delivered counts by sub-tree (R105). -/
def photonicCounts (sub : Nat) (a : Nat → Int) : List Int :=
  match sub with
  | 1 => [a 0 + a 1 + a 2 + a 3]
  | 2 => [a 0 + a 1, a 2 + a 3]
  | _ => [a 0, a 1, a 2, a 3]

end Sys2Proof.Machine
end

