-- ==== Sys2Proof/Machine/Observe.lean ====
section
/-! DEFINITION. Machine/Observe.lean: snapshot and selector of the counters, the glass ring and the sampler's arming
(spec/22). -/

namespace Sys2Proof.Machine

/-- Change the observation block. -/
def updObs (f : ObsSt → ObsSt) (s : State) : State := { s with obs := f s.obs }

/-- SNAP (R479). -/
def execSnap (s : State) : Host.Outcome State Fault Refusal :=
  .next (updObs (fun o => { o with snap := o.live, snapSub := BitVec.ofNat 32 s.tb.sub, snapSec := s.tb.sec }) s)

/-- The counter that a selector names; what does not exist reads 0 (R476, R478). -/
def cselValue (o : ObsSt) (v : Word) : DWord :=
  let c := if bit v 16 then o.snap else o.live
  let u := fld v 0 7
  let k := u * 16 + fld v 12 4
  match fld v 8 2 with
  | 0 => if u < 96 then tabGet 0 c.hive k else 0
  | 1 => if u < 64 then tabGet 0 c.col k else 0
  | 2 => if u < 8 then tabGet 0 c.bank k else 0
  | _ => 0

/-- OBS_CSEL_WRITE (R478). -/
def execObsCselWrite (v : Word) (s : State) : Host.Outcome State Fault Refusal :=
  .next (updObs (fun o => { o with csel := v &&& 0x1F37F, cval := cselValue o v }) s)

/-- GLASS_MARK (R480): a MARK record with the value written. -/
def execGlassMark (v : Word) (s : State) : Host.Outcome State Fault Refusal :=
  .next (if s.glassOn 7 then glassPut (glassBytes s 7 none none 0 0 ([0, 0, 0, 0] ++ leBytes 4 v.toNat)) s else s)

/-- First byte of the ring. -/
def ObsSt.ringBase (o : ObsSt) : Nat := alignDown (o.base.toNat % 2 ^ 35) 12

/-- Records of the ring (R484). -/
def ObsSt.ringSize (o : ObsSt) : Nat := o.size.toNat * 128

/-- The range lies within the supers and outside the system region. -/
def inSupers (a n : Nat) : Bool := decide (0x4000000 ≤ a) && decide (a + n ≤ 0x800000000)

/-- The ring overlaps a colony's allocation. -/
def State.ringHits (s : State) (base size : Nat) : Bool :=
  s.cols.toList.any fun c => overlaps base size (c.caBase.toNat * 1048576) (c.caSize.toNat * 1048576)

/-- GLASS_ENABLE (R488): a write of OBS_GL_CTL; one that would set EN is ignored when the ring lies badly. -/
def execGlassEnable (v : Word) (s : State) : Host.Outcome State Fault Refusal :=
  let o := s.obs
  let bytes := o.size.toNat * 4096
  let on := bit v 0 && !o.en
  if on && (!inSupers o.ringBase bytes || s.ringHits o.ringBase bytes) then .next (obsEvent 4 s)
  else .next (updObs (fun o => { o with
    en := bit v 0, mode := bit v 1, kindEn := BitVec.ofNat 7 (fld v 8 7), wr := if on then 0 else o.wr, rd := if on then 0 else o.rd }) s)

/-- Write bytes into the supers; a word written whole is readable again. -/
def supPut (a : Nat) (bs : List Byte) (s : State) : State :=
  { s with sup := { s.sup with
      mem := memWriteN s.sup.mem a bs
      ue := s.sup.ue.filter fun w => decide (w < a) || decide (a + bs.length < w + 8) } }

/-- A record with LOSS set (Table 22.2). -/
def withLoss (loss : Bool) (r : List Byte) : List Byte := if loss then r.set 7 ((r.getD 7 0) ||| 0x80) else r

/-- Drop the record at the front of the buffer: the ring is full (R486). -/
def dropRecord (s : State) : State :=
  obsEvent 2 (updObs (fun o => { o with buf := o.buf.drop 1, loss := true, drop := satInc o.drop }) s)

/-- GLASS_RECORD_WRITE (R484 to R486, R489): the oldest buffered record goes into the ring. -/
def execGlassRecordWrite (s : State) : Host.Outcome State Fault Refusal :=
  match s.obs.buf with
  | [] => .next s
  | r :: rest =>
    let o := s.obs
    let n := o.ringSize
    if n = 0 then .next s
    else if !o.mode && (o.wr + 1) % n == o.rd % n then .next (dropRecord s)
    else
      let s := supPut (o.ringBase + 32 * (o.wr % n)) (withLoss o.loss r) s
      let wr := (o.wr + 1) % n
      let s := updObs (fun o => { o with buf := rest, loss := false, wr := wr }) s
      .next (if !o.mode && o.wm != 0 && (wr + n - o.rd % n) % n == o.wm.toNat then obsEvent 1 s else s)

/-- Supers address of the first sample. -/
def ObsSt.smpBase (o : ObsSt) : Nat := alignDown (o.smpDst.toNat % 2 ^ 35) 7

/-- ARM (R490, R491): a write of OBS_SMP_CTL. -/
def execArm (v : Word) (s : State) : Host.Outcome State Fault Refusal :=
  let o := s.obs
  let put := fun (on : Bool) (o : ObsSt) => { o with
    smpHive := BitVec.ofNat 7 (fld v 0 7), smpComb := BitVec.ofNat 3 (fld v 7 3), smpCell := BitVec.ofNat 6 (fld v 10 6)
    smpCount := BitVec.ofNat 4 (fld v 16 4), smpStride := BitVec.ofNat 8 (fld v 20 8), smpArm := on }
  if !bit v 28 then .next (updObs (put false) s)
  else if o.smpArm then .next s
  else if !inSupers o.smpBase (128 * (fld v 16 4 + 1)) then .next (obsEvent 4 s)
  else .next (updObs (fun o => { put true o with smpTaken := 0, smpSkip := 0 }) s)

end Sys2Proof.Machine
end

