-- ==== Sys2Proof/Machine/Supers.lean ====
section
/-! DEFINITION. Machine/Supers.lean: uncorrectable words, allocations, writes to the supers under the system region and the
held source, and BAR2 (R163, R222 to R226, R236, R281). -/

namespace Sys2Proof.Machine

/-- SUPERS_UE (R236): a word proves uncorrectable, read for a job when `slot` names one. -/
def execSupersUe (addr : BitVec 35) (slot : Option SlotId) (s : State) : Host.Outcome State Fault Refusal :=
  let s := noteUe [alignDown addr.toNat 3] s
  .next (match slot with
    | some n => ueEnds n.val s
    | none => s)

-- allocations (R224, R488)

/-- A model of the colony is loaded. -/
def State.hasModel (s : State) (c : ColId) : Bool := s.models.any fun m => s.wax.img.colonyOf m.part.val == c.val

/-- The allocation would lie badly (R224), or overlap the glass ring while it is enabled (R488). -/
def State.allocBad (s : State) (c : ColId) (base size : Nat) : Bool :=
  let (a, n) := (base * 2 ^ 20, size * 2 ^ 20)
  size != 0 && (decide (a < sysBytes) || decide (supBytes < a + n) ||
    (List.finRange 64).any (fun d => d != c && overlaps a n ((s.co d).caBase.toNat * 2 ^ 20) ((s.co d).caSize.toNat * 2 ^ 20)) ||
    (s.obs.en && overlaps a n s.obs.ringBase (s.obs.size.toNat * 4096)))

/-- SUP_ALLOC_WRITE (R224): BASE, SIZE or QUOTA of a colony. -/
def execSupAllocWrite (c : ColId) (which : Fin 3) (v : Word) (s : State) : Host.Outcome State Fault Refusal :=
  let x := s.co c
  let base := if which = 0 then fld v 0 16 else x.caBase.toNat
  let size := if which = 1 then fld v 0 16 else x.caSize.toNat
  if (s.jobs.any fun j => j.col == c) || s.hasModel c || (which != 2 && s.allocBad c base size) then .next (supEvent 4 s)
  else .next (updCol c (fun x => { x with
    caBase := BitVec.ofNat 16 base, caSize := BitVec.ofNat 16 size
    csQuota := if which = 2 then BitVec.ofNat 11 (fld v 0 11) else x.csQuota }) s)

-- writes from PF0, BAR2 and the foragers

/-- A byte lies in the held wax source (R163). -/
def State.heldAt (s : State) (a : Nat) : Bool :=
  match s.wax.hold with
  | some (b, n) => decide (b ≤ a) && decide (a < b + n)
  | none => false

/-- A range touches the system region. -/
def sysHit (a n : Nat) : Bool := overlaps a n 0 sysBytes

/-- Write bytes whose addresses a condition admits. -/
def supPutIf (ok : Nat → Bool) : Nat → List Byte → State → State
  | _, [], s => s
  | a, b :: r, s => supPutIf ok (a + 1) r (if ok a then { s with sup := { s.sup with mem := memWrite s.sup.mem a b } } else s)

/-- A range touches the allocation of a sealed colony (R386). -/
def State.sealedHit (s : State) (a n : Nat) : Bool :=
  (List.finRange 64).any fun c => s.isSealed c && overlaps a n ((s.co c).caBase.toNat * 2 ^ 20) ((s.co c).caSize.toNat * 2 ^ 20)

/-- Write bytes from outside: none in the system region, none in the held source, none in the allocation of a sealed colony
(R163, R222, R386). Words written whole are no longer uncorrectable (log entry 48). -/
def supWriteOut (a : Nat) (bs : List Byte) (s : State) : State :=
  let n := bs.length
  let sys := sysHit a n || s.sealedHit a n
  let held := (List.range n).any fun i => s.heldAt (a + i)
  let ok := fun x => decide (sysBytes ≤ x) && !s.heldAt x && !s.sealedHit x 1
  let t := if sys || held then supPutIf ok a bs s else supPut a bs s
  let t := if sys then supEvent 2 t else t
  if held then waxEvent 256 t else t

/-- The runs of enabled bytes of a write from an offset on, with the run that is open. -/
def enabledRuns : Nat → List (Option Byte) → Nat × List Byte → List (Nat × List Byte)
  | _, [], (o, r) => if r.isEmpty then [] else [(o, r)]
  | a, none :: l, (o, r) => (if r.isEmpty then [] else [(o, r)]) ++ enabledRuns (a + 1) l (a + 1, [])
  | a, some b :: l, (o, r) => enabledRuns (a + 1) l (o, r ++ [b])

/-- `supWriteOut` of the enabled bytes of a write (R281). -/
def supWriteEn (a : Nat) (bs : List (Option Byte)) (s : State) : State :=
  (enabledRuns a bs (a, [])).foldl (fun t x => supWriteOut x.1 x.2 t) s

/-- Bytes that the outside reads: 0 from the system region (R222). -/
def State.supReadOut (s : State) (a n : Nat) : List Byte :=
  (List.range n).map fun i => if a + i < sysBytes then 0 else memRead s.sup.mem (a + i)

/-- First supers address of BAR2, none while BAR2 does not answer (R226, R276, R460, R462, R463). -/
def State.bar2Base (s : State) : Option Nat :=
  if !s.host.pf0.mse || s.host.pf0.powerState != 0 then none
  else if s.isReady then some (s.sup.win.toNat * 0x10000000)
  else if s.boot.stage == 7 && (s.boot.rcode == 1 || s.boot.rcode == 3) then some 0x10000000
  else none

/-- Length in bytes and first offset of a BAR2 request. -/
def bar2Span : Bar2 → Nat × Nat
  | .read off n => (off, 4 * n)
  | .write off bs => (off, bs.length)

/-- The largest request of its direction (R281). -/
def State.bar2Limit (s : State) : Bar2 → Nat
  | .read .. => 4096
  | .write .. => s.maxPayload

/-- BAR2 turns a request away: a write is posted and gets no completion. -/
def bar2Refuse (a : Bar2) (c : Cpl) (s : State) : State :=
  match a with
  | .read .. => refuseReq .pf0 c s
  | .write .. => refusePosted .pf0 c s

/-- BAR2_ACCESS (R222, R226, R236, R281, R420): the completions of a read end at Read Completion Boundaries, each as large as
Max_Payload_Size lets it be (log entry 79). -/
def execBar2Access (a : Bar2) (s : State) : Host.Outcome State Fault Refusal :=
  let (off, n) := bar2Span a
  match s.bar2Base with
  | none => .next (bar2Refuse a .ur s)
  | some base =>
    if s.pwr.held || decide (0x10000000 < off + n) || decide (s.bar2Limit a < n) then .next (bar2Refuse a .ca s)
    else match a with
    | .write _ bs => .next ((supWriteEn (base + off) bs s).cpl .sc)
    | .read _ _ =>
      let ws := s.ueIn (max (base + off) sysBytes) (base + off + n - max (base + off) sysBytes)
      let t := noteUe ws (if sysHit (base + off) n then supEvent 2 s else s)
      .next { t with resp := {
        data := bytesToWords (s.supReadOut (base + off) n), poisoned := !ws.isEmpty
        parts := (splitReads s.maxPayload (n / s.maxPayload + 2) off n).map (·.2) } }

end Sys2Proof.Machine
end

