-- ==== Sys2Proof/Machine/DanceOps.lean ====
section
/-! DEFINITION. Machine/DanceOps.lean: how a dancer issues an instruction: fetch, stops, interlocks and units (R185, R186,
R193, R206 to R208), the registers of a program, and results written by the honey unit. -/

namespace Sys2Proof.Machine

-- the dancer

/-- A stop is pending: the queen's, or HALT (R208); a STEP lets the program leave the yield point it stands at. -/
def Hive.stopPending (hv : Hive) : Bool := !hv.stops.isEmpty || (hv.halt && !hv.step)

/-- The program that a dancer runs now, with its job: not halted, gated, cut or under inspection. -/
def State.dancing (s : State) (h : HiveId) : Option (Prog × Job) :=
  let hv := s.hv h
  match hv.run with
  | none => none
  | some p =>
    match s.job? p.slot with
    | none => none
    | some j => if hv.halted || hv.gated || s.pwr.held || s.inspected h then none else some (p, j)

/-- Window offset of the instruction at PC. -/
def State.pcOff (s : State) (part : Nat) (p : Prog) : Nat := ((s.progRegion part p.home).getD (0, 0)).1 + 8 * p.pc.toNat

/-- The instruction at PC. -/
def State.fetchOp (s : State) (h : HiveId) (p : Prog) (j : Job) : Option DOp :=
  decodeDance (leNat (s.winRead j.part.val h (s.pcOff j.part.val p) 8))

/-- The dancer may not start a unit of c cycles: a stop is pending and it stands at a yield point, or the unit would be
split from the step (R207, R208). -/
def Hive.stopsAt (hv : Hive) (p : Prog) (c : Nat) : Bool :=
  hv.stopPending && (p.stepCycles == 0 || decide (432 < p.stepCycles + c))

/-- An uncorrectable comb store word read by a program (R90, R235). -/
def csFault (h : HiveId) (slot : Nat) (s : State) : State := hiveFault h 3 slot s

/-- A unit of c cycles starts; a STEP has left its yield point. -/
def startUnit (h : HiveId) (c : Nat) (s : State) : State := spendUnit h c (updHive h (fun hv => { hv with step := false }) s)

-- reading the window

/-- A comb store byte as an instruction reads it: a byte of an uncorrectable word is a free value (R235; log entry 11). -/
def State.dataByte (s : State) (h : HiveId) (a : Nat) : Byte :=
  if (s.hv h).csUe.contains (a / 8) then (Config.freeValue (s.freeCtr + a)).setWidth 8 else memRead (s.hv h).cs a

/-- n window bytes as an instruction reads them. -/
def State.dataRead (s : State) (part : Nat) (h : HiveId) (off n : Nat) : List Byte :=
  (List.range n).map fun i => s.dataByte h (s.winAddr part (off + i))

/-- An instruction of a job has read n bytes: HIVE_FAULT cause 3 when one of their words is uncorrectable (R90, R235). -/
def dataUe (h : HiveId) (p : Prog) (j : Job) (off n : Nat) (s : State) : State :=
  if s.winUe j.part.val h off n then csFault h p.slot { s with freeCtr := s.freeCtr + 2 ^ 21 } else s

-- registers

/-- Run cycles of a hive (Table 22.1). -/
def State.runCycles (s : State) (h : HiveId) : Nat := (tabGet 0 s.obs.live.hive (h.val * 16)).toNat

/-- Go on to the next instruction. -/
def nextPc (h : HiveId) (s : State) : State := updRun h (fun p => { p with pc := p.pc + 1 }) s

/-- Go on at an instruction index. -/
def setPc (h : HiveId) (n : Nat) (s : State) : State := updRun h (fun p => { p with pc := BitVec.ofNat 24 n }) s

/-- Write a general register and go on. -/
def putG (h : HiveId) (rd : Reg4) (v : Word) (s : State) : State :=
  nextPc h (updRun h (fun p => { p with g := p.g.set rd v }) s)

/-- A general register. -/
def Prog.reg (p : Prog) (r : Reg4) : Word := p.g[r]

/-- An accumulator (index modulo 1,024). -/
def Prog.accAt (p : Prog) (i : Nat) : Word := tabGet 0 p.acc (i % 1024)

/-- Write an accumulator. -/
def Prog.setAcc (p : Prog) (i : Nat) (v : Word) : Prog := { p with acc := tabSet 0 p.acc (i % 1024) v }

/-- Add to an accumulator modulo 2^32 (R38, R76). -/
def Prog.addAcc (p : Prog) (i : Nat) (v : Word) : Prog := p.setAcc i (p.accAt i + v)

/-- Zero n accumulators from a base. -/
def Prog.clrAcc (p : Prog) (base : Nat) : Nat → Prog
  | 0 => p
  | n + 1 => (p.clrAcc base n).setAcc (base + n) 0

-- interlocks (R193)

/-- An accumulator index lies among n from a base (modulo 1,024). -/
def accIn (base n i : Nat) : Bool := decide ((i + 1024 - base % 1024) % 1024 < n)

/-- Clear n accumulators from a base while counts are on their way: those add after it, also to the chains whose last count is
among them (R76, R83, R198; log entry 72). -/
def Prog.clear (late : List Landing) (base n : Nat) (p : Prog) : Prog :=
  let hit := late.filter fun x => x.kind == .count && accIn base n x.acc
  let p := hit.foldl (fun (q : Prog) x => q.addAcc x.acc x.v) (p.clrAcc base n)
  { p with fins := p.fins.map fun f =>
      if hit.any fun x => x.seq == f.seq && x.acc == f.acc then
        { f with v := (hit.filter fun x => x.acc == f.acc && decide (x.seq ≤ f.seq)).foldl (fun (v : Word) x => v + x.v) 0 }
      else f }

/-- Copies of supered rounds take the LDW engines that are free, two at most (R191, R232). -/
def startCopies (p : Prog) : Prog :=
  let n := 2 - p.ldw.length
  { p with ldw := p.ldw ++ p.rounds.take n, rounds := p.rounds.drop n }

/-- Two ranges of a window of size q meet, each reduced modulo q. -/
def meets (q a n b m : Nat) : Bool :=
  n != 0 && m != 0 && q != 0 && (decide ((b + q - a % q - (b / q) * q) % q < n) || decide ((a + q - b % q - (a / q) * q) % q < m))

/-- An LDW copy is still writing into a range. -/
def State.ldwHits (s : State) (p : Prog) (part off n : Nat) : Bool := p.ldw.any fun c => meets (s.winSize part) off n c.dst c.left

-- the window of a job on a hive

/-- Write bytes for a program that runs on a hive. -/
def putWin (h : HiveId) (p : Prog) (j : Job) (off : Nat) (bs : List Byte) (s : State) : State :=
  winWrite p.slot j.part.val h p.home off bs s

/-- The hive on which a program of a job for logical hive `home` runs, and else that hive itself. -/
def State.hostOf (s : State) (slot : Nat) (home : HiveId) : HiveId :=
  (allHives.find? fun h =>
    (match (s.hv h).run with | some p => p.slot == slot && p.home == home | none => false) ||
    (s.hv h).wait.any fun p => p.slot == slot && p.home == home && p.held).getD home

/-- Change a program of a job wherever it lies, saved or not (R524): `f` also gets what is on its way where it runs. -/
def updProgAt (slot : Nat) (home : HiveId) (f : List Landing → Prog → Prog) (s : State) : State :=
  let g := fun (l : List Landing) (p : Prog) => if p.slot == slot && p.home == home && !p.sealed then f l p else p
  { s with
    hives := s.hives.map fun hv => { hv with run := hv.run.map (g hv.late), wait := hv.wait.map (g []) }
    guard := { s.guard with saves := s.guard.saves.map fun x =>
      if x.slot == slot && x.hive == home then { x with prog := f [] x.prog } else x } }

/-- Change a program of a job wherever it lies, saved or not (R524). -/
def updProg (slot : Nat) (home : HiveId) (f : Prog → Prog) (s : State) : State := updProgAt slot home (fun _ => f) s

/-- A count from outside adds into an accumulator (R75, R76), and into the value of a chain that ends there whose last own count
has still to land (R198). -/
def Prog.landCount (acc : Nat) (v : Word) (late : List Landing) (p : Prog) : Prog :=
  let q := p.addAcc acc v
  { q with fins := q.fins.map fun f =>
      if f.acc == acc % 1024 && late.any fun x => x.kind == .count && x.seq == f.seq && x.acc == f.acc then { f with v := f.v + v } else f }

/-- The program of a job for a logical hive, while it has not ended. -/
def State.progOf (s : State) (slot : Nat) (home : HiveId) : Option Prog :=
  let at_ := fun (p : Prog) => p.slot == slot && p.home == home
  allHives.findSome? fun h => (match (s.hv h).run with | some p => if at_ p then some p else none | none => none).orElse
    fun _ => (s.hv h).wait.find? at_

-- the honey unit

/-- The context that a program's selection names: context 0 for lent work, context 1 for the express model (R81, R149). -/
def Prog.ctxOf (p : Prog) (c : Fin 2) : Fin 2 := if p.lent then 0 else if p.cls == 3 then 1 else c

/-- A honey context of a hive. -/
def State.honey (s : State) (h : HiveId) (p : Prog) (c : Fin 2) : HnyCtx := (s.hv h).hny[p.ctxOf c]

/-- Requantise a value and write the result i of a run of results at `out` (R39, R40, R78, R79). -/
def writeResult (h : HiveId) (p : Prog) (j : Job) (c : Fin 2) (rn : Fin 16) (v : Word) (out i : Nat) (s : State) : State :=
  let ctx := s.honey h p c
  let r := ctx.recOf rn.val
  let (bs, sat) := requant ctx r v
  let s := if r.param then postEvent (.hive h) 2 s else s
  let s := if sat then cntHive h 6 1 s else s
  putWin h p j (out + i * r.width) bs s

/-- Requantise n accumulators from a base (HONEY REQ). -/
def writeResults (h : HiveId) (p : Prog) (j : Job) (c : Fin 2) (rn : Fin 16) (base out : Nat) : List Nat → State → State
  | [], s => s
  | i :: r, s => writeResults h p j c rn base out r (writeResult h p j c rn (p.accAt (base + i)) out i s)

/-- Change one honey context. -/
def updHny (h : HiveId) (c : Fin 2) (f : HnyCtx → HnyCtx) (s : State) : State :=
  updHive h (fun hv => { hv with hny := updAt hv.hny c f }) s

/-- Load words into a table of a context from an entry on. -/
def loadTab (t : List (Nat × Word)) (k : Nat) : List Word → List (Nat × Word)
  | [] => t
  | w :: r => loadTab (tabSet 0 t k w) (k + 1) r

/-- When the 32 results of group g of G groups of a HONEY REQ are written, from the end of its unit: the last ones 4 cycles
after it, and each group before them one cycle earlier (Table 9.7). -/
def reqLeft (g total : Nat) : Nat := 4 + g + 1 - total

/-- The results of a HONEY REQ that are on their way after its unit: n results of w bytes from a window offset on. -/
def reqWrites (seq out n w : Nat) : List Landing :=
  let total := (n + 31) / 32
  ((List.range total).map fun g =>
    ({ seq := seq, left := reqLeft g total, kind := .result (out + 32 * g * w) (min 32 (n - 32 * g) * w) } : Landing)).filter fun x => x.left != 0

/-- Something is on its way on a hive. -/
def noteLate (h : HiveId) (l : List Landing) (s : State) : State := updHive h (fun hv => { hv with late := hv.late ++ l }) s

/-- A result that is not written yet lies in a range (R193). -/
def State.finHits (s : State) (h : HiveId) (p : Prog) (part off n : Nat) : Bool :=
  p.fins.any fun f =>
    let w := ((s.honey h p f.ctx).recOf f.recNo.val).width
    meets (s.winSize part) off n (f.out + f.index * w) w

/-- A read of a range waits. -/
def State.readWaits (s : State) (h : HiveId) (p : Prog) (part off n : Nat) : Bool := s.ldwHits p part off n || s.finHits h p part off n

-- the supers of a colony (R186, R223)

/-- Note once per job a supers access without an allocation (R223). -/
def noSupErr (slot : Nat) (s : State) : State :=
  match s.job? slot with
  | none => s
  | some j => if j.noSup then s else colErr j.col 5 (updJob slot (fun j => { j with noSup := true }) s)

/-- Bytes of a colony's supers from an offset, each reduced modulo the allocation; 0 without an allocation. -/
def State.supRead (s : State) (c : Nat) (off n : Nat) : List Byte :=
  let size := s.caBytes c
  if size = 0 then List.replicate n 0
  else (List.range n).map fun i => memRead s.sup.mem (s.caAddr c + (off + i) % size)

/-- Uncorrectable words that such a read meets. -/
def State.supUe (s : State) (c : Nat) (off n : Nat) : List Nat :=
  let size := s.caBytes c
  if size = 0 then []
  else s.sup.ue.filter fun w => (List.range n).any fun i => (s.caAddr c + (off + i) % size) / 8 == w / 8

/-- A part of the supers that a job reads and where it stands uncorrectable: the job ends with INTERNAL (R236). -/
def jobSupers (slot : Nat) (c : Nat) (off n : Nat) (s : State) : State :=
  let ws := s.supUe c off n
  let s := if s.caBytes c = 0 then noSupErr slot s else s
  if ws.isEmpty then s else ueEnds slot (noteUe ws s)

end Sys2Proof.Machine
end

