-- ==== Sys2Proof/Machine/DanceUnit.lean ====
section
/-! DEFINITION. Machine/DanceUnit.lean: the units of a program: what an instruction waits for before it starts and what it
costs (Table 9.7, R185, R193, R199, R206, R207), and the issue of one instruction. -/

namespace Sys2Proof.Machine

-- operands that more than one place reads

/-- The word address of LD and ST (R189). -/
def wordAddr (base imm : Word) : Nat := alignDown (base + imm).toNat 2

/-- The MOV copy that an instruction names: the hive of g[rc][6:0], 0x7F for this one; with bit 13 a station, in whose part
the standby that replaced it stands (R336, R342). A station that is this one is no other station. -/
def movOf (s : State) (h : HiveId) (j : Job) (src dst rc : Word) (len : Nat) : Option MovCopy :=
  let n := fld rc 0 7
  let st := j.actor (fld rc 7 6)
  let remote := bit rc 13 && st != s.stn.val
  let hv := if n = 0x7F then some h else hiveOf? n
  hv.map fun d => { seq := s.seq + 1, src := src.toNat, dst := dst.toNat, left := len, hive := d
                    station := if remote then some (BitVec.ofNat 6 st) else none }

/-- A MOV is not for a hive of its job's partition (R192); that of another station is checked there. -/
def movForeign (s : State) (j : Job) (m : Option MovCopy) : Bool :=
  match m with
  | none => true
  | some m => m.station.isNone && !s.ownsHive j.part.val m.hive.val

/-- The operands of a draw (Table 9.6): score address, result address, n, k, argmax, row and stream id. -/
structure DrawArgs where
  scores : Nat
  out : Nat
  n : Nat
  k : Nat
  argmax : Bool
  row : Nat
  sid : BitVec 24
  deriving DecidableEq, Repr

/-- Read the operands of a draw (R82, R189, R200). -/
def drawArgs (ra rb rc rd re : Word) : DrawArgs :=
  let n := fld rc 0 12 + 1
  { scores := alignDown ra.toNat 2, out := alignDown rb.toNat 1, n := n, k := min (fld rc 12 6 + 1) n, argmax := bit rc 18
    row := fld rd 0 20, sid := re.setWidth 24 }

/-- A barrier has released for an expectation (R203). -/
def released (j : Job) (b : Fin 32) (e : Byte) : Bool := decide (((j.bars[b]).gen - e).toNat < 128)

/-- The weights of a layer lie in the spill buffer on a hive (R229, R232): the size of that buffer. -/
def State.spillOf (s : State) (part l : Nat) (home : HiveId) : Option Nat :=
  match s.model? part with
  | none => none
  | some m => (m.plans.find? fun p => p.hive == home && p.plan == .supered && p.layers.contains l).map (·.spill)

/-- The operands of a STREAM on the hive that runs it (R195, R197, R198). -/
structure StreamArgs where
  shape : Shape
  nout : Nat
  b : Nat
  input : Nat
  weights : Nat
  out : Nat
  acc : Nat
  /-- Logical hive of the destination. -/
  hive : Nat
  /-- Another station, when the destination is there. -/
  station : Option (BitVec 6)
  /-- The destination is this hive on this station. -/
  here : Bool
  spill : Option Nat
  deriving DecidableEq, Repr

/-- Read the operands of a STREAM; none when it issues nothing (R199). -/
def streamArgs (s : State) (p : Prog) (j : Job) (o : StreamOp) : Option StreamArgs :=
  match shapeFor s.wax.img j.part.val p.layer.toNat p.home j.key o.cmask with
  | none => none
  | some sh =>
    if sh.combs.isEmpty then none
    else
      let ga := p.reg o.ga
      let n := fld ga 10 7
      let hive := if n = 0x7F then p.home.val else n
      let st := j.actor (fld ga 17 6)
      let remote := bit ga 23 && st != s.stn.val
      some { shape := sh, nout := o.nout, b := o.b, input := (p.reg o.gi).toNat, weights := (p.reg o.gw).toNat
             out := (p.reg o.go).toNat, acc := fld ga 0 10, hive := hive
             station := if remote then some (BitVec.ofNat 6 st) else none
             here := !remote && hive == p.home.val, spill := s.spillOf j.part.val p.layer.toNat p.home }

/-- Bytes of the input range of a STREAM. -/
def StreamArgs.inBytes (a : StreamArgs) : Nat := a.b * a.shape.sub * a.shape.local_ * 2

/-- Bytes of its weight range. -/
def StreamArgs.wBytes (a : StreamArgs) : Nat := a.nout * a.shape.sub * a.shape.local_ * 2

/-- A STREAM waits at its decode for copies and results into its weights, and for copies into its results (R193). -/
def streamDecodeWaits (s : State) (h : HiveId) (p : Prog) (j : Job) (o : StreamOp) (a : StreamArgs) (width : Nat) : Bool :=
  (a.spill.isNone && s.readWaits h p j.part.val a.weights a.wBytes) ||
  (o.fin && a.here && s.ldwHits p j.part.val a.out (a.nout * a.b * a.shape.sub * width))

-- waits and costs

/-- A count that is on its way to one of n accumulators. -/
def Landing.countIn (base n : Nat) (x : Landing) : Bool := x.kind == .count && accIn base n x.acc

/-- A result that is on its way into a range of a window of size q. -/
def Landing.resultIn (q off n : Nat) (x : Landing) : Bool :=
  match x.kind with
  | .result a m => meets q off n a m
  | _ => false

/-- What of the things on their way an instruction needs: REQ and GET the counts of their accumulators, those that read the
window the results of HONEY REQ there, END every count and result (R193, R200, R213). -/
def opNeeds (s : State) (p : Prog) (op : DOp) : Landing → Bool :=
  let q := s.winSize (((s.job? p.slot).map (·.part.val)).getD 0)
  match op with
  | .req ra _ _ _ n => Landing.countIn (p.reg ra).toNat n
  | .get ra _ => Landing.countIn (p.reg ra).toNat 1
  | .endProg => fun x => x.kind != .request
  | .ld _ ra imm => Landing.resultIn q (wordAddr (p.reg ra) imm) 4
  | .mov ra _ _ len => Landing.resultIn q (p.reg ra).toNat len
  | .ldp _ table ra _ count => Landing.resultIn q (p.reg ra).toNat (count * (if table then 4 else 16))
  | .draw ra rb rc rd re _ _ =>
    let a := drawArgs (p.reg ra) (p.reg rb) (p.reg rc) (p.reg rd) (p.reg re)
    Landing.resultIn q a.scores (4 * a.n)
  | .stream o =>
    match (s.job? p.slot).bind fun j => streamArgs s p j o with
    | none => fun _ => false
    | some a =>
      if p.inStream.isNone then (if a.spill.isNone then Landing.resultIn q a.weights a.wBytes else fun _ => false)
      else if p.inStream == some 0 then Landing.resultIn q a.input a.inBytes else fun _ => false
  | _ => fun _ => false

/-- Wait cycles until what an instruction needs has landed. -/
def opLands (s : State) (h : HiveId) (p : Prog) (op : DOp) : Nat :=
  (((s.hv h).late.filter (opNeeds s p op)).map (·.left + 1)).foldl max 0

/-- An instruction waits before it starts (R191, R193, R194, R200, R203, R213); a WAIT that PF0 steps passes one cycle. -/
def opWaits (s : State) (h : HiveId) (p : Prog) (j : Job) (op : DOp) : Bool :=
  let part := j.part.val
  ((s.hv h).stopPending && opLands s h p op != 0) ||
  match op with
  | .nop | .yield | .li .. | .alu .. | .clr .. | .seed .. | .vset .. | .hint .. | .arrive .. | .br .. | .lset .. | .lend .. | .get .. => false
  | .endProg => !p.fins.isEmpty || !p.ldw.isEmpty || p.mov.isSome || s.mesh.any fun m => m.slot == p.slot && m.src == p.home
  | .ld _ ra imm => s.readWaits h p part (wordAddr (p.reg ra) imm) 4
  | .st ra _ imm => s.ldwHits p part (wordAddr (p.reg ra) imm) 4
  | .mov ra rb rc len =>
    !movForeign s j (movOf s p.home j (p.reg ra) (p.reg rb) (p.reg rc) len) &&
    (p.mov.isSome || s.readWaits h p part (p.reg ra).toNat len)
  | .ldw _ rb len => decide (2 ≤ p.ldw.length) || s.ldwHits p part (p.reg rb).toNat len
  | .ldp _ table ra _ count => !p.fins.isEmpty || s.readWaits h p part (p.reg ra).toNat (count * (if table then 4 else 16))
  | .stream o =>
    match streamArgs s p j o with
    | none => false
    | some a =>
      match p.inStream with
      | none => streamDecodeWaits s h p j o a ((s.honey h p o.ctx).recOf o.recNo.val).width
      | some k => k == 0 && s.readWaits h p part a.input a.inBytes
  | .req _ rb ctx rn n => s.ldwHits p part (p.reg rb).toNat (n * ((s.honey h p ctx).recOf rn.val).width)
  | .draw ra rb rc rd re _ _ =>
    let a := drawArgs (p.reg ra) (p.reg rb) (p.reg rc) (p.reg rd) (p.reg re)
    s.readWaits h p part a.scores (4 * a.n) || s.ldwHits p part a.out (2 * a.k)
  | .wait b | .arriveWait b => p.waitPend.isSome && !released j b p.e[b] && !(s.hv h).step

/-- Cycles of the next unit of an instruction (Table 9.7); a WAIT that its barrier does not release starts none. -/
def opCost (s : State) (p : Prog) (j : Job) (op : DOp) : Nat :=
  match op with
  | .nop | .yield | .li .. | .alu .. | .st .. | .seed .. | .vset .. | .hint .. | .arrive .. | .lset .. | .mov .. | .ldw .. | .endProg => 1
  | .ld .. | .get .. => 2
  | .ldp _ table _ _ count => 1 + (count * (if table then 4 else 16) + 255) / 256
  | .stream o =>
    match streamArgs s p j o with
    | none => 1
    | some a => if p.inStream.isNone then 1 + a.shape.sub else a.shape.slabs
  | .clr _ n => 1 + (n + 63) / 64
  | .req _ _ _ _ n => 1 + (n + 31) / 32
  | .draw _ _ rc _ _ _ _ => 1 + (fld (p.reg rc) 0 12 + 1 + 63) / 64 + 8
  | .wait b | .arriveWait b =>
    let e := if p.waitPend.isSome then p.e[b] else p.e[b] + 1
    if released j b e then 1 else 0
  | .br cond ra rb _ => if condHolds cond (p.reg ra) (p.reg rb) then 2 else 1
  | .lend lc _ => if p.l[lc] = 0 || p.l[lc] = 1 then 1 else 2

/-- One instruction: the one at PC, when its row names it, it waits for nothing and no stop is due; `f` gives its effect. -/
def stepOp (h : HiveId) (f : Prog → Job → DOp → Option (State → State)) (s : State) : State :=
  match s.dancing h with
  | none => s
  | some (p, j) =>
    if s.winUe j.part.val h (s.pcOff j.part.val p) 8 then csFault h p.slot s
    else match s.fetchOp h p j with
    | none => s
    | some op =>
      match f p j op with
      | none => s
      | some g =>
        let c := opCost s p j op
        if opWaits s h p j op || (s.hv h).stopsAt p c then s else g (startUnit h c (waitFor h (opLands s h p op) s))

end Sys2Proof.Machine
end

