-- ==== Sys2Proof/Machine/MeshPath.lean ====
section
/-! DEFINITION. Machine/MeshPath.lean: the way of a message over the bee-line mesh: the hops of a ROUTE record or the default
route, the routers on it, and its time (R85, R86, R147, Table 7.8). -/

namespace Sys2Proof.Machine

/-- Hops along the row and then along the column (R86), as directions of Table 7.8. -/
def defaultHops (a d : HiveId) : List Nat :=
  let ca := a.val % 12
  let cd := d.val % 12
  let ra := a.val / 12
  let rd := d.val / 12
  (if ca ≤ cd then List.replicate (cd - ca) 1 else List.replicate (ca - cd) 3) ++
  (if ra ≤ rd then List.replicate (rd - ra) 2 else List.replicate (ra - rd) 0)

/-- Two bits of PATH a hop (Table 7.8). -/
def pathHops (path : Nat) : Nat → List Nat
  | 0 => []
  | n + 1 => path % 4 :: pathHops (path / 4) n

/-- The hops of a message: those of the ROUTE record of its source and destination, else the default route (R86). -/
def meshHops (w : WaxImg) (a d : HiveId) : List Nat :=
  match w.routes.find? fun r => r.src == a.val && r.dst == d.val with
  | some r => pathHops r.path.toNat r.hops
  | none => defaultHops a d

/-- The logical hives that hops pass, the last one included. -/
def hopHives : HiveId → List Nat → List HiveId
  | _, [] => []
  | a, d :: r =>
    match (hopFrom a.val d).bind hiveOf? with
    | some b => b :: hopHives b r
    | none => []

/-- The routers on the way of a message after its source (R86). -/
def meshPath (w : WaxImg) (a d : HiveId) : List HiveId := hopHives a (meshHops w a d)

/-- Physical hives that a hop along a row bypasses (R85, R86). -/
def bypassed (pcol : List Nat) (a b : HiveId) : Nat :=
  if a.val / 12 = b.val / 12 then
    let x := pcol.getD a.val (a.val % 12)
    let y := pcol.getD b.val (b.val % 12)
    (if x ≤ y then y - x else x - y) - 1
  else 0

/-- Cycles of a path: two a hop, and one for each physical hive that it bypasses in a row (R85). -/
def pathCycles (pcol : List Nat) : HiveId → List HiveId → Nat
  | _, [] => 0
  | a, b :: r => 2 + bypassed pcol a b + pathCycles pcol b r

/-- Cycles from the sending of a message's first flit to its arrival (R85). -/
def meshCycles (w : WaxImg) (pcol : List Nat) (a d : HiveId) : Nat := pathCycles pcol a (meshPath w a d)

/-- The link of MSH_STAT by which a message enters router b from router a: north, east, south, west. -/
def linkInto (a b : HiveId) : Nat :=
  if b.val = a.val + 12 then 0 else if a.val = b.val + 1 then 1 else if a.val = b.val + 12 then 2 else 3

/-- The first router of a path that a message enters by link k; its last one when it enters none so. -/
def routerBy (k : Nat) : HiveId → List HiveId → HiveId
  | a, [] => a
  | a, b :: r => if linkInto a b = k then b else routerBy k b r

end Sys2Proof.Machine
end

