-- ==== Sys2Proof/Machine/Mesh.lean ====
section
/-! DEFINITION. Machine/Mesh.lean: messages on the bee-line mesh: MOV data and chain counts (R75, R85 to R88, R192, R524). -/

namespace Sys2Proof.Machine

/-- The router that a message from hive a enters by link k on its path has discarded an uncorrectable flit of it (R88, R90
cause 4). -/
def meshBad (a : HiveId) (path : List HiveId) (k : Fin 4) (slot : Nat) (s : State) : State :=
  let d := routerBy k.val a path
  hiveFault d 4 slot (updHive d (fun hv => { hv with uncorr := hv.uncorr ||| BitVec.ofNat 4 (2 ^ k.val) }) s)

/-- n free bytes (log entry 11). -/
def State.freeBytes (s : State) (n : Nat) : List Byte := (List.range n).map fun i => (Config.freeValue (s.freeCtr + i)).setWidth 8

/-- Write bytes into a window that has left its hive with its program (R92, R187). -/
def savedWrite (reg : Option (Nat × Nat)) (size : Nat) : Memory → Nat → List Byte → Memory
  | m, _, [] => m
  | m, off, b :: r =>
    savedWrite reg size (if size = 0 || inRegion reg (off % size) then m else memWrite m (off % size) b) (off + 1) r

/-- Bytes land in the window of a job on logical hive d, wherever that window lies (R192). -/
def landBytes (slot : Nat) (d : HiveId) (off : Nat) (bs : List Byte) (s : State) : State :=
  match s.job? slot with
  | none => s
  | some j =>
    let part := j.part.val
    match (s.progOf slot d).bind (·.win) with
    | some _ =>
      let reg := s.progRegion part d
      let put := fun (m : Memory) => savedWrite reg (s.winSize part) m off bs
      let t := updProg slot d (fun p => { p with win := p.win.map put }) s
      if (List.range bs.length).any (fun i => inRegion reg ((off + i) % s.winSize part)) then progWrErr slot t else t
    | none => winWrite slot part (j.winHive d) d off bs s

/-- The next message of a MOV copy has left its hive (R192). -/
def MovCopy.rest (m : MovCopy) (n : Nat) : Option MovCopy :=
  if m.left ≤ n then none else some { m with src := m.src + n, dst := m.dst + n, left := m.left - n }

/-- One message of a program's MOV copy: to a hive of this station, or into a MOVE message to another (R192, R336). A flit
that a link discards leaves free values in the destination and ends the job (R88). -/
def movMessage (h : HiveId) (p : Prog) (j : Job) (m : MovCopy) (bad : Option (Fin 4)) (s : State) : State :=
  let n := min 256 m.left
  let bs := s.dataRead j.part.val h m.src n
  let t := updRun h (fun p => { p with mov := m.rest n }) s
  let t := match bad, m.station with
    | none, none => landBytes p.slot m.hive m.dst bs t
    | none, some a => sendSw ⟨a.toNat, a.isLt⟩ j (.move m.hive m.dst bs) t
    | some k, none =>
      meshBad h (meshPath s.wax.img h m.hive) k p.slot { landBytes p.slot m.hive m.dst (t.freeBytes n) t with freeCtr := t.freeCtr + n }
    | some k, some _ => meshBad h [] k p.slot t
  dataUe h p j m.src n t

/-- MOV_MESSAGE (R192): the next message of the copy that the program on hive i runs. -/
def execMovMessage (i : Nat) (bad : Option (Fin 4)) (s : State) : Host.Outcome State Fault Refusal :=
  match hiveOf? i with
  | none => .next s
  | some h =>
    match s.dancing h with
    | none => .next s
    | some (p, j) =>
      match p.mov with
      | none => .next s
      | some m => .next (movMessage h p j m bad s)

/-- Take an element out of a list. -/
def dropAt {α : Type} (l : List α) (i : Nat) : List α := l.take i ++ l.drop (i + 1)

/-- A count adds into an accumulator of a job's program, wherever the program lies (R75, R76, R524). -/
def addCount (slot : Nat) (d : HiveId) (acc : Nat) (v : Word) (s : State) : State :=
  updProgAt slot d (fun late p => p.landCount acc v late) s

/-- Consecutive counts add into consecutive accumulators. -/
def addCounts (slot : Nat) (d : HiveId) : Nat → List Word → State → State
  | _, [], s => s
  | acc, v :: r, s => addCounts slot d (acc + 1) r (addCount slot d acc v s)

/-- MESH_COUNT_MESSAGE (R75, R88, R524): count i of those in flight lands; a count of a job that has ended is discarded. -/
def execMeshCountMessage (i : Nat) (bad : Option (Fin 4)) (s : State) : Host.Outcome State Fault Refusal :=
  match s.mesh[i]? with
  | none => .next s
  | some m =>
    let t := { s with mesh := dropAt s.mesh i }
    .next (match bad with
      | none => addCount m.slot m.dst m.acc m.v t
      | some k => meshBad m.src m.path k m.slot (updProg m.slot m.dst (fun p => p.setAcc m.acc (t.free 32)) t).tickFree)

end Sys2Proof.Machine
end

