-- ==== Sys2Proof/Machine/Dance.lean ====
section
/-! DEFINITION. Machine/Dance.lean: the instructions of a dance program other than STREAM, MOV messages apart (R188 to R194,
R200 to R203, R206, R213), and PF0's hold on a dancer (R208). -/

namespace Sys2Proof.Machine

-- plain instructions

/-- NOP (R185). -/
def execNop (h : HiveId) (s : State) : Host.Outcome State Fault Refusal :=
  .next (stepOp h (fun _ _ op => match op with
    | .nop => some (nextPc h)
    | _ => none) s)

/-- YIELD (R206): a yield point after its cycle. -/
def execYield (h : HiveId) (s : State) : Host.Outcome State Fault Refusal :=
  .next (stepOp h (fun _ _ op => match op with
    | .yield => some (fun s => yieldPoint h 1 (nextPc h s))
    | _ => none) s)

/-- LI (R188). -/
def execLi (h : HiveId) (s : State) : Host.Outcome State Fault Refusal :=
  .next (stepOp h (fun _ _ op => match op with
    | .li rd imm => some (putG h rd imm)
    | _ => none) s)

/-- ALU (R188, Table 9.3). -/
def execAlu (h : HiveId) (s : State) : Host.Outcome State Fault Refusal :=
  .next (stepOp h (fun p _ op => match op with
    | .alu rd ra rb fn useImm imm => some (putG h rd (aluOp fn (p.reg ra) (if useImm then imm else p.reg rb)))
    | _ => none) s)

/-- LD (R189, R193). -/
def execLd (h : HiveId) (s : State) : Host.Outcome State Fault Refusal :=
  .next (stepOp h (fun p j op => match op with
    | .ld rd ra imm =>
      let a := wordAddr (p.reg ra) imm
      some (fun s => dataUe h p j a 4 (putG h rd (BitVec.ofNat 32 (leNat (s.dataRead j.part.val h a 4))) s))
    | _ => none) s)

/-- ST (R187, R189, R193). -/
def execSt (h : HiveId) (s : State) : Host.Outcome State Fault Refusal :=
  .next (stepOp h (fun p j op => match op with
    | .st ra rb imm =>
      let a := wordAddr (p.reg ra) imm
      some (fun s => nextPc h (putWin h p j a (leBytes 4 (p.reg rb).toNat) s))
    | _ => none) s)

/-- BR (R190, Table 9.4). -/
def execBr (h : HiveId) (s : State) : Host.Outcome State Fault Refusal :=
  .next (stepOp h (fun p _ op => match op with
    | .br cond ra rb t => some (if condHolds cond (p.reg ra) (p.reg rb) then setPc h t else nextPc h)
    | _ => none) s)

/-- LSET (R190). -/
def execLset (h : HiveId) (s : State) : Host.Outcome State Fault Refusal :=
  .next (stepOp h (fun p _ op => match op with
    | .lset lc useReg ra n =>
      let v := if useReg then (p.reg ra).setWidth 16 else BitVec.ofNat 16 n
      some (fun s => nextPc h (updRun h (fun p => { p with l := p.l.set lc v }) s))
    | _ => none) s)

/-- LEND (R190): a counter that is 0 stays 0 and does not branch. -/
def execLend (h : HiveId) (s : State) : Host.Outcome State Fault Refusal :=
  .next (stepOp h (fun p _ op => match op with
    | .lend lc t =>
      let c := p.l[lc]
      if c = 0 || c = 1 then some (fun s => nextPc h (updRun h (fun p => { p with l := p.l.set lc 0 }) s))
      else some (fun s => setPc h t (updRun h (fun p => { p with l := p.l.set lc (c - 1) }) s))
    | _ => none) s)

-- copies (R191, R192, R336)

/-- MOV (R191 to R193): starts a copy when the engine is free. -/
def execMov (h : HiveId) (s : State) : Host.Outcome State Fault Refusal :=
  .next (stepOp h (fun p j op => match op with
    | .mov ra rb rc len =>
      let m := movOf s p.home j (p.reg ra) (p.reg rb) (p.reg rc) len
      if movForeign s j m then some (fun s => nextPc h (colErr j.col 6 s))
      else some (fun s => nextPc h (updRun h (fun p => { p with mov := m }) { s with seq := s.seq + 1 }))
    | _ => none) s)

/-- LDW (R191, R193): starts a copy when one of two engines is free. -/
def execLdw (h : HiveId) (s : State) : Host.Outcome State Fault Refusal :=
  .next (stepOp h (fun p _ op => match op with
    | .ldw ra rb len =>
      let dst := (p.reg rb).toNat
      some (fun s => nextPc h (updRun h (fun p => { p with ldw := p.ldw ++ [{ src := 64 * (p.reg ra).toNat, dst := dst, left := len }] }) s))
    | _ => none) s)

/-- LDW_COPY_DONE (R186, R187, R191, R223, R236): the oldest copy of a hive's program writes its last byte; a flit that a link
of the hive's router discards leaves free values in the destination and ends the job (R88). -/
def execLdwCopyDone (m : FromSupers) (s : State) : Host.Outcome State Fault Refusal :=
  let h := m.hive
  match s.dancing h with
  | none => .next s
  | some (p, j) =>
    match p.ldw with
    | [] => .next s
    | c :: rest =>
      let col := s.wax.img.colonyOf j.part.val
      let bs := s.supRead col c.src c.left
      let s := updRun h (fun p => startCopies { p with ldw := rest }) s
      .next (match m.bad with
        | none => jobSupers p.slot col c.src c.left (putWin h p j c.dst bs s)
        | some k => meshBad h [] k p.slot { putWin h p j c.dst (s.freeBytes c.left) s with freeCtr := s.freeCtr + c.left })

/-- LDP (R194): records of 16 bytes or table entries of 4, after every requantisation begun before. -/
def execLdp (h : HiveId) (s : State) : Host.Outcome State Fault Refusal :=
  .next (stepOp h (fun p j op => match op with
    | .ldp ctx table ra first count =>
      let a := (p.reg ra).toNat
      let n := count * (if table then 4 else 16)
      some (fun s =>
        let ws := bytesToWords (s.dataRead j.part.val h a n)
        let s := updHny h (p.ctxOf ctx) (fun c => if table then { c with act := loadTab c.act first ws }
          else { c with ps := loadTab c.ps (4 * first) ws }) s
        dataUe h p j a n (nextPc h s))
    | _ => none) s)

-- honey (R200)

/-- HONEY CLR. -/
def execClr (h : HiveId) (s : State) : Host.Outcome State Fault Refusal :=
  .next (stepOp h (fun p _ op => match op with
    | .clr ra n => some (fun t => nextPc h (updRun h (fun q => q.clear (s.hv h).late (p.reg ra).toNat n) t))
    | _ => none) s)

/-- HONEY REQ (R39, R79, R200). -/
def execReq (h : HiveId) (s : State) : Host.Outcome State Fault Refusal :=
  .next (stepOp h (fun p j op => match op with
    | .req ra rb ctx rn n =>
      some (fun s =>
        let w := ((s.honey h p ctx).recOf rn.val).width
        noteLate h (reqWrites s.seq (p.reg rb).toNat n w)
          (nextPc h (writeResults h p j ctx rn (p.reg ra).toNat (p.reg rb).toNat (List.range n) s)))
    | _ => none) s)

/-- HONEY GET. -/
def execGet (h : HiveId) (s : State) : Host.Outcome State Fault Refusal :=
  .next (stepOp h (fun p _ op => match op with
    | .get ra rd => some (putG h rd (p.accAt (p.reg ra).toNat))
    | _ => none) s)

/-- The k indices of a draw (R49, R56, R57). -/
def drawOf (s : State) (h : HiveId) (p : Prog) (j : Job) (ctx : Fin 2) (rn : Fin 16) (a : DrawArgs) : List Nat :=
  let sc := (bytesToWords (s.dataRead j.part.val h a.scores (4 * a.n))).map sword
  drawIdx sc ((s.honey h p ctx).recOf rn.val).md a.k
    (if a.argmax then none else some fun i => parnik j.key a.sid (BitVec.ofNat 32 (a.row * 4096 + i)))

/-- HONEY DRAW (R56, R57, R82, R200). -/
def execDraw (h : HiveId) (s : State) : Host.Outcome State Fault Refusal :=
  .next (stepOp h (fun p j op => match op with
    | .draw ra rb rc rd re ctx rn =>
      let a := drawArgs (p.reg ra) (p.reg rb) (p.reg rc) (p.reg rd) (p.reg re)
      some (fun s =>
        let bs := (drawOf s h p j ctx rn a).flatMap (leBytes 2)
        dataUe h p j a.scores (4 * a.n) (nextPc h (putWin h p j a.out bs s)))
    | _ => none) s)

/-- CHAIN_FIN (R198, R522): the last count of the oldest chain has landed, with all before it; the chain is requantised and its
result written. -/
def execChainFin (h : HiveId) (s : State) : Host.Outcome State Fault Refusal :=
  match (s.hv h).run with
  | none => .next s
  | some p =>
    match p.fins, s.job? p.slot with
    | f :: rest, some j =>
      if s.pwr.held then .next s
      else .next (writeResult h p j f.ctx f.recNo f.v f.out f.index
        (updHive h (fun hv => { hv with late := hv.late.filter fun x => !x.upTo f.seq, run := some { p with fins := rest } }) s))
    | _, _ => .next s

-- layer, voltage and activity

/-- SEED (R195). -/
def execSeed (h : HiveId) (s : State) : Host.Outcome State Fault Refusal :=
  .next (stepOp h (fun _ _ op => match op with
    | .seed l => some (fun s => nextPc h (updRun h (fun p => { p with layer := BitVec.ofNat 8 l }) s))
    | _ => none) s)

/-- The request of a program after VSET (R127, R201). -/
def vsetReq (level : BitVec 2) (lead : Nat) (o : OvsReq) : OvsReq :=
  if lead = 0 then { o with req := level, pendV := false } else { o with pend := level, pendV := true }

/-- The lead of a VSET runs; an earlier pending request is replaced (R127). -/
def noteLead (h : HiveId) (lead : Nat) (s : State) : State :=
  updHive h (fun hv => { hv with
    late := hv.late.filter (·.kind != .request) ++ (if lead = 0 then [] else [{ seq := s.seq, left := lead, kind := .request }]) }) s

/-- VSET (R124, R127, R201): row 0 keeps its state. -/
def execVset (h : HiveId) (s : State) : Host.Outcome State Fault Refusal :=
  .next (stepOp h (fun _ _ op => match op with
    | .vset level lead =>
      some (fun s => nextPc h (if h.val < 12 then s
        else noteLead h lead (updRun h (fun p => { p with ovs := vsetReq level lead p.ovs }) s)))
    | _ => none) s)

/-- Put a hint in the order of starts. -/
def insHint (x : Hint) : List Hint → List Hint
  | [] => [x]
  | y :: r => if x.start < y.start then x :: y :: r else y :: insHint x r

/-- Add a hint: a fifth replaces the one with the latest start (R202). -/
def addHint (x : Hint) (l : List Hint) : List Hint := insHint x (if l.length < 4 then l else l.dropLast)

/-- A hint takes effect; it counts as hinted activity 3,000 cycles after its issue (R110). -/
def Hint.take (x : Hint) (hv : Hive) : Hive :=
  { hv with hinted := x.combs, hintFrom := x.issued + 3000, hintWas := if x.start < hv.hintFrom then hv.hintWas else hv.hinted }

/-- HINT (R110, R202): none on an express hive; a lead of 0 takes effect at once. -/
def execHint (h : HiveId) (s : State) : Host.Outcome State Fault Refusal :=
  .next (stepOp h (fun _ _ op => match op with
    | .hint combs lead =>
      some (fun s => nextPc h (if s.isExpressHive h then s
        else
          let x : Hint := { combs := combs, start := s.runCycles h + lead, issued := s.runCycles h }
          if lead = 0 then updHive h x.take s else updHive h (fun hv => { hv with hints := addHint x hv.hints }) s))
    | _ => none) s)

/-- HINT_TAKES_EFFECT (R202): the pending hint with the earliest start. -/
def execHintTakesEffect (h : HiveId) (s : State) : Host.Outcome State Fault Refusal :=
  match (s.hv h).hints with
  | [] => .next s
  | x :: r => .next (updHive h (fun hv => x.take { hv with hints := r }) s)

-- barriers (R203, R204)

/-- An arrival of the program on its way to the queen. -/
def sendArrive (p : Prog) (b : Fin 32) (s : State) : State :=
  { s with seq := s.seq + 1, arrivals := s.arrivals ++ [{ seq := s.seq + 1, slot := p.slot, hive := p.home, bar := b }] }

/-- ARRIVE (R203). -/
def execArrive (h : HiveId) (s : State) : Host.Outcome State Fault Refusal :=
  .next (stepOp h (fun p _ op => match op with
    | .arrive b => some (fun s => nextPc h (sendArrive p b s))
    | _ => none) s)

/-- The wait of WAIT or ARRIVE_WAIT on a barrier: advance the expectation once, go on when it is met, and else wait at a
yield point. -/
def waitOn (h : HiveId) (p : Prog) (j : Job) (b : Fin 32) (first : State → State) : State → State :=
  match p.waitPend with
  | none =>
    let e := p.e[b] + 1
    let put := fun s => updRun h (fun p => { p with e := p.e.set b e }) (first s)
    fun s => if released j b e then nextPc h (put s)
      else yieldPoint h 0 (updRun h (fun p => { p with waitPend := some b }) (put s))
  | some _ =>
    fun s => if released j b p.e[b] then nextPc h (updRun h (fun p => { p with waitPend := none }) s) else s

/-- WAIT (R203). -/
def execWait (h : HiveId) (s : State) : Host.Outcome State Fault Refusal :=
  .next (stepOp h (fun p j op => match op with
    | .wait b => some (waitOn h p j b id)
    | _ => none) s)

/-- ARRIVE_WAIT (R203). -/
def execArriveWait (h : HiveId) (s : State) : Host.Outcome State Fault Refusal :=
  .next (stepOp h (fun p j op => match op with
    | .arriveWait b => some (waitOn h p j b (sendArrive p b))
    | _ => none) s)

-- the end of a program (R213)

/-- The program that runs on a hive leaves it for good: its pending hints and stop requests go with it. -/
def clearRun (h : HiveId) (s : State) : State :=
  updHive h (fun hv => { hv with run := none, late := [], hints := [], stops := [], halted := false, step := false }) s

/-- END (R213): waits for every result and copy. -/
def execEnd (h : HiveId) (s : State) : Host.Outcome State Fault Refusal :=
  .next (stepOp h (fun p _ op => match op with
    | .endProg =>
      some (fun s => finishStop p.slot (schedule h (clearRun h (stepRecord h 4 s))))
    | _ => none) s)

-- PF0's hold (DNC_CTL, R91, R208, R212)

/-- DNC_CTL is ignored on an express hive and on a claimed one. -/
def State.dncIgnored (s : State) (h : HiveId) : Bool := s.isExpressHive h || (s.hv h).claimed

/-- Write DNC_CTL: HALT as written, STEP while halted. -/
def dncWrite (h : HiveId) (halt step : Bool) (s : State) : State :=
  if s.dncIgnored h then s
  else updHive h (fun hv =>
    if !halt then { hv with halt := false, halted := false, step := false }
    else if step && hv.halted then { hv with halt := true, halted := false, step := true }
    else { hv with halt := true }) s

/-- HALT (R208). -/
def execHalt (h : HiveId) (s : State) : Host.Outcome State Fault Refusal := .next (dncWrite h true false s)

/-- STEP (R208): STEP written while HALT keeps its value. -/
def execStep (h : HiveId) (s : State) : Host.Outcome State Fault Refusal :=
  .next (if s.dncIgnored h || !(s.hv h).halted then s
    else updHive h (fun hv => { hv with halted := false, step := true }) s)

-- PF0's writes to the honey contexts (R77, R91)

/-- Write a word of a honey context from PF0 (R91): only on an IDLE hive. -/
def hnyWrite (h : HiveId) (f : Hive → Hive) (s : State) : State :=
  if (s.hv h).claimed then s
  else if s.idleHive h then updHive h f s
  else postEvent (.hive h) 8 s

/-- HNY_PS_DATA_WRITE: the word that HNY_PS_IDX selects. -/
def execHnyPsDataWrite (h : HiveId) (v : Word) (s : State) : Host.Outcome State Fault Refusal :=
  .next (hnyWrite h (fun hv =>
    let i := hv.psIdx.toNat
    let c : Fin 2 := ⟨i / 64 % 2, Nat.mod_lt _ (by decide)⟩
    { hv with hny := updAt hv.hny c fun x => { x with ps := tabSet 0 x.ps (i % 64) v } }) s)

/-- HNY_ACT_DATA_WRITE: the entry that HNY_ACT_IDX selects. -/
def execHnyActDataWrite (h : HiveId) (v : Word) (s : State) : Host.Outcome State Fault Refusal :=
  .next (hnyWrite h (fun hv =>
    let i := hv.actIdx.toNat
    let c : Fin 2 := ⟨i / 1024 % 2, Nat.mod_lt _ (by decide)⟩
    { hv with hny := updAt hv.hny c fun x => { x with act := tabSet 0 x.act (i % 1024) v } }) s)

end Sys2Proof.Machine
end

