-- ==== Sys2Proof/Machine/PhxLoss.lean ====
section
/-! DEFINITION. Machine/PhxLoss.lean: loss of lock of a photonic bank: its record, the passes still in conversion, and what
becomes of them (spec/05 R116 to R119). -/

namespace Sys2Proof.Machine

/-- Hives of the bank's row that run a program whose layer in force is photonic. -/
def State.photonicRuns (s : State) (b : BankId) : List (HiveId × Prog) :=
  allHives.filterMap fun h =>
    if h.val / 12 = b.val then
      match (s.hv h).run with
      | some p =>
        let part := ((s.job? p.slot).map (·.part.val)).getD 0
        if s.wax.img.photonic part p.layer.toNat then some (h, p) else none
      | none => none
    else none

/-- A pass that finds no lock (R118): fallback marks the job degraded, no fallback is HIVE_FAULT cause 0x2. -/
def passLost (h : HiveId) (p : Prog) (s : State) : State :=
  match s.job? p.slot with
  | none => s
  | some j =>
    if s.wax.img.fallback j.part.val p.layer.toNat then updJob p.slot (fun j => { j with degr := j.degr ||| 4 }) s
    else hiveFault h 2 p.slot s

-- passes in conversion (R117)

/-- The integration of a pass on its way has ended fewer than 5 cycles ago, or goes on: its counts land in more than two
cycles (R107, R117). -/
def Landing.inConversion (x : Landing) : Bool :=
  match x.kind with
  | .pass .. => decide (2 < x.left)
  | _ => false

/-- The passes of a row that a declaration of loss discards, oldest first on each hive (R117). -/
def State.converting (s : State) (b : BankId) : List (HiveId × Prog × Landing) :=
  (allHives.filter fun h => h.val / 12 == b.val).flatMap fun h =>
    match (s.hv h).run with
    | some p => ((s.hv h).late.filter Landing.inConversion).map fun x => (h, p, x)
    | none => []

/-- The difference that integrator chain j of a discarded pass makes. -/
def lostDiff (vals alts : List Word) (fb : Bool) (j : Nat) : Word :=
  (if fb then alts.getD j 0 else 0) - vals.getD j 0

/-- Put the counts of the adder tree in the place of those of a discarded pass: in the accumulators, in the values of chains
that end there, among the counts that land and those on the mesh (R118). Without fallback no count of it stays (R117). -/
def retake (h : HiveId) (p : Prog) (x : Landing) (vals alts : List Word) (fb : Bool) (slabs : Nat) (s : State) : State :=
  let n := vals.length
  let own := (s.hv h).late.any fun y => y.kind == .count && y.seq == x.seq
  let s := updHive h (fun hv => { hv with
    late := (hv.late.filter fun y => y != x && (fb || !(y.kind == .count && y.seq == x.seq))).map fun y =>
      if y.kind == .count && y.seq == x.seq then
        { y with v := y.v + lostDiff vals alts fb ((y.acc + 1024 - x.acc) % 1024), left := slabs + 8 } else y
    run := if own then hv.run.map fun q =>
        let q := (List.range n).foldl (fun (q : Prog) j => q.addAcc (x.acc + j) (lostDiff vals alts fb j)) q
        { q with fins := q.fins.map fun f =>
            if x.seq ≤ f.seq && accIn x.acc n f.acc then { f with v := f.v + lostDiff vals alts fb ((f.acc + 1024 - x.acc) % 1024) } else f }
      else hv.run }) s
  { s with mesh := (s.mesh.filter fun m => fb || !(m.seq == x.seq && m.slot == p.slot && m.src == p.home)).map fun m =>
      if m.seq == x.seq && m.slot == p.slot && m.src == p.home then
        { m with v := m.v + lostDiff vals alts fb ((m.acc + 1024 - x.acc) % 1024) } else m }

/-- Discard a pass in conversion: with fallback it runs on the adder tree and its job is degraded, without it the job completes
with HIVE_FAULT cause 0x2 (R117, R118). -/
def discardPass (b : BankId) (h : HiveId) (p : Prog) (x : Landing) (s : State) : State :=
  match x.kind with
  | .pass vals alts fb slabs =>
    let s := cntBank b 3 1 (retake h p x vals alts fb slabs s)
    if fb then cntBank b 1 1 (updJob p.slot (fun j => { j with degr := j.degr ||| 4 }) s) else hiveFault h 2 p.slot s
  | _ => s

/-- `discardPass` for several passes. -/
def discardAll (b : BankId) : List (HiveId × Prog × Landing) → State → State
  | [], s => s
  | (h, p, x) :: r, s => discardAll b r (discardPass b h p x s)

/-- The job whose tag PHX_BLOSS records: that of the first discarded pass, and else that of the first hive that runs a photonic
layer (R116; log entry 73). -/
def State.lossTagOf (s : State) (b : BankId) : BitVec 16 :=
  match s.converting b with
  | (_, p, _) :: _ => s.tagOf p.slot
  | [] => match s.photonicRuns b with
    | (_, p) :: _ => s.tagOf p.slot
    | [] => 0

/-- A LOCKED bank loses lock for a cause of Table 5.7 (R116 to R118). -/
def lossOf (b : BankId) (cause : Nat) (st : BankSt) (s : State) : State :=
  let tag := s.lossTagOf b
  let lost := s.converting b
  let s := updBank b (fun x => { x with st := st, relocking := st == .acquiring, lossCause := BitVec.ofNat 4 cause, lossTag := tag }) s
  let s := postEvent (.phx b) 1 s
  discardAll b lost (if cause = 3 then raise .pf0 0 s else s)

/-- PHX_DISABLE (R116, R119): EN is cleared; a LOCKED bank loses lock with cause 0x4, an UNLOCKED one stays so. -/
def execPhxDisable (b : BankId) (s : State) : Host.Outcome State Fault Refusal :=
  let x := s.phx.bank[b]
  let dark : BankSt := if s.phxShed then .shed else .off
  let s := updBank b (fun x => { x with en := false, wasShed := false, thermal := false }) s
  .next (if x.st == .locked then lossOf b 4 dark s
    else if x.st == .unlocked then s
    else updBank b (fun x => { x with st := dark, relocking := false }) s)

/-- CAL (R113, R119): ignored while EN = 0, and in UNLOCKED until EN is written from 0 to 1; a LOCKED bank loses lock with cause
0x4. -/
def execCal (b : BankId) (s : State) : Host.Outcome State Fault Refusal :=
  let x := s.phx.bank[b]
  .next (if !x.en || x.st == .unlocked then s
    else if x.st == .locked then startCal b (lossOf b 4 .cal s) else startCal b s)

/-- The thermal hold keeps OFF every bank that was calibrating or acquiring (R116, PHX_GSTAT.TEMP_HOLD). -/
def holdBanks (s : State) : State :=
  { s with phx := { s.phx with bank := s.phx.bank.map fun x =>
      if x.st == .cal || x.st == .acquiring then { x with st := .off, relocking := false, thermal := true } else x } }

/-- PHX_LOSS_OF_LOCK (R112, R116 to R118): `worst` is the largest ring detuning seen, which PHX_BERR keeps; cause 0x1 or 0x5
leads to ACQUIRING, 0x2 to OFF, 0x3 to the thermal hold, in which it stays OFF as every other bank that is not LOCKED. -/
def execPhxLossOfLock (b : BankId) (cause : BitVec 4) (worst temp : BitVec 16) (s : State) : Host.Outcome State Fault Refusal :=
  if (s.phx.bank[b]).st != .locked || !(cause = 1 || cause = 2 || cause = 3 || cause = 5) then .next s
  else
    let hold := s.phx.tempHold || cause = 3
    let s := { s with phx := { s.phx with temp := temp, tempHold := hold, laserOk := s.phx.laserOk && cause != 2 } }
    let s := updBank b (fun x => { x with worst := if x.worst.toNat < worst.toNat then worst else x.worst }) s
    let s := lossOf b cause.toNat (if cause = 2 then .off else .acquiring) s
    .next (latchAlert (if hold then holdBanks s else s))

end Sys2Proof.Machine
end

