-- ==== Sys2Proof/Machine/Stream.lean ====
section
/-! DEFINITION. Machine/Stream.lean: STREAM: its passes and their counts (R73, R104 to R111, R118, R120, R129 to R138, R195 to
R199, R232), and the slab sampler (R490, R491). -/

namespace Sys2Proof.Machine

-- operands and counts

/-- Window offset of a weight word: in the window, or in the half of the spill buffer that round r uses (R197, R232). -/
def StreamArgs.weightOff (a : StreamArgs) (q r o j i : Nat) : Nat :=
  match a.spill with
  | none => a.weights + a.shape.wordOff o j i
  | some sp => q - sp + r % 2 * (sp / 2) + a.shape.wordOff (o - r * a.shape.combs.length) j i

/-- A 12-bit code in the window: bits [11:0] of a word (R197). -/
def State.codeAt (s : State) (part : Nat) (h : HiveId) (off : Nat) : Nat := natBits (leNat (s.dataRead part h off 2)) 0 12

/-- Where a pass stands: round, local pass, sample and output. -/
structure PassAt where
  r : Nat
  p : Nat
  b : Nat
  o : Nat
  deriving DecidableEq, Repr

/-- The codes of local term k of a pass in sub-cell j: weight, input (R197). -/
def termCodes (s : State) (h : HiveId) (a : StreamArgs) (x : PassAt) (j k : Nat) : Nat × Nat :=
  let sh := a.shape
  let i := x.p * sh.terms + k
  (s.codeAt sh.part h (a.weightOff (s.winSize sh.part) x.r x.o j i), s.codeAt sh.part h (a.input + sh.wordOff x.b j i))

/-- The element number of local term k of a pass: the global term index (R144, R196). -/
def termElem (a : StreamArgs) (x : PassAt) (k : Nat) : Nat := a.shape.global x.p * a.shape.terms + k

/-- First bit index and bits of a slab, and the position of bit 0 in sub-cell j (R33). -/
def slabBits (sh : Shape) (j sl : Nat) : Nat × Nat × Nat :=
  if sh.mode.len < 256 then (0, sh.mode.len, j * sh.mode.len) else (256 * sl, 256, 0)

/-- The count of one slab of a pass in sub-tree j (R31 to R35, R73). -/
def slabCount (s : State) (h : HiveId) (a : StreamArgs) (x : PassAt) (j sl : Nat) : Nat :=
  let sh := a.shape
  let w := s.wax.img
  let (t, n, pos) := slabBits sh j sl
  ((List.range (sh.realTerms x.p)).map fun k =>
    let e := termElem a x k
    let (wc, ic) := termCodes s h a x j k
    termOnes sh.mode (weightSid w sh.part sh.layer e) (inputSid w sh.part sh.layer e) wc ic pos t n).sum

-- timing errors (R129 to R132)

/-- Key of an input of a pass. -/
def PassAt.key (x : PassAt) (a : StreamArgs) (per sl : Nat) : Nat := ((x.o * a.shape.passes + x.p) * a.b + x.b) * per + sl

/-- What the latches flag for a slab of a pass. -/
def envFlag (e : StreamEnv) (k : Nat) : Nat := ((e.flags.find? fun f => f.1 == k).map (·.2)).getD 0

/-- Replays of a slab and the latched bits when its last execution is tolerated (R131, R132). -/
def slabFlags (env : StreamEnv) (a : StreamArgs) (tol : Bool) (x : PassAt) (sl : Nat) : Nat × Option Nat :=
  let v := envFlag env (x.key a 16 sl)
  let n := v % 16
  if tol && decide (16 ≤ v) && n != 0 then (n - 1, some (v / 16 - 1)) else (n, none)

/-- The count of a slab as delivered (R130, R132). -/
def latched (d : Option Nat) (j c : Nat) : Nat :=
  match d with
  | none => c
  | some d => c - c % 4 + natBits d (2 * j) 2

/-- The counts of an electronic pass by sub-tree and slab. -/
def slabCounts (s : State) (h : HiveId) (env : StreamEnv) (a : StreamArgs) (x : PassAt) : List (List Nat) :=
  (List.range a.shape.sub).map fun j => (List.range a.shape.slabs).map fun sl =>
    latched (slabFlags env a a.shape.tolerate x sl).2 j (slabCount s h a x j sl)

/-- The counts of an electronic pass by sub-tree. -/
def treeCounts (s : State) (h : HiveId) (env : StreamEnv) (a : StreamArgs) (x : PassAt) : List Word :=
  (slabCounts s h env a x).map fun l => BitVec.ofNat 32 l.sum

-- the bank (R104 to R106)

/-- A 12-bit converter code as its mode reads it: signed in coherent mode (R98, R105, R106). -/
def convCode (coherent : Bool) (v : BitVec 12) : Int := if coherent then v.toInt else (v.toNat : Int)

/-- The converter code of integrator i of a pass, 12 bits (R98); one that no input gives is free (log entry 11). -/
def codeOf (s : State) (env : StreamEnv) (a : StreamArgs) (x : PassAt) (i : Nat) : Int :=
  let k := x.key a 4 i
  convCode a.shape.mode.bip (match env.codes.find? fun c => c.1 == k with
    | some c => BitVec.ofInt 12 c.2
    | none => (Config.freeValue (s.freeCtr + k)).setWidth 12)

/-- The counts of a photonic pass by sub-tree. -/
def bankCounts (s : State) (b : BankId) (env : StreamEnv) (a : StreamArgs) (x : PassAt) : List Word :=
  let coh := a.shape.mode.bip
  let n := a.shape.realTerms x.p
  let ent := fun (i : Nat) => (s.phx.bank[b]).ents.toList.getD (i + (if coh then 4 else 0)) {}
  (photonicCounts a.shape.sub fun i => integrated coh a.shape.slabs n (corrected coh (ent i) (codeOf s env a x i))).map (BitVec.ofInt 32)

-- the way a pass goes (R99, R118, R120)

/-- How a pass is counted. -/
inductive PassWay
  | tree
  | bank
  /-- On the adder tree in place of a bank that is not LOCKED. -/
  | fallback
  /-- Waits for a shed bank. -/
  | pause
  /-- HIVE_FAULT cause 2. -/
  | lost
  deriving DecidableEq, Repr

/-- The way of the passes of a layer now. -/
def passWay (s : State) (b : BankId) (sh : Shape) : PassWay :=
  let x := s.phx.bank[b]
  if !sh.photonic then .tree
  else if x.st == .locked then .bank
  else if sh.fallback then .fallback
  else if x.st == .shed || x.wasShed then .pause
  else .lost

-- the sampler (R490, R491)

/-- The lanes of a list of bits as bytes, lane l in bit l mod 8 of byte l / 8. -/
def laneBytes (bits : List Bool) : List Byte :=
  (chunksOf 8 32 bits).map fun c => BitVec.ofNat 8 ((c.mapIdx fun i b => b2n b * 2 ^ i).sum)

/-- Weight, input and product bits of a lane of a cell in a slab; a padding cell holds 0 (R74). -/
def laneBits (s : State) (h : HiveId) (a : StreamArgs) (x : PassAt) (cell sl l : Nat) : Bool × Bool × Bool :=
  let sh := a.shape
  let k := ((List.range (sh.realTerms x.p)).find? fun k => sh.cellOf k == cell)
  match k with
  | none => (false, false, false)
  | some k =>
    let j := if sh.mode.len < 256 then l / sh.mode.len else 0
    let t := if sh.mode.len < 256 then l % sh.mode.len else 256 * sl + l
    let pos := if sh.mode.len < 256 then l else t
    let e := termElem a x k
    let (wc, ic) := termCodes s h a x j k
    cellBits sh.mode (weightSid s.wax.img sh.part sh.layer e) (inputSid s.wax.img sh.part sh.layer e) wc ic t pos

/-- The 128 bytes of a sample (Table 22.5). -/
def sampleBytes (s : State) (h : HiveId) (jb : Job) (env : StreamEnv) (a : StreamArgs) (bankPass : Bool) (x : PassAt) (sl : Nat) : List Byte :=
  let sh := a.shape
  let cell := s.obs.smpCell.toNat
  let (n, d) := slabFlags env a (sh.tolerate && !bankPass) x sl
  let e := match (List.range (sh.realTerms x.p)).find? fun k => sh.cellOf k == cell with
    | some k => (inputSid s.wax.img sh.part sh.layer (termElem a x k)).toNat
    | none => 0
  let cnt := fun (j : Nat) => if bankPass then 0xFFFF else if j < sh.sub then latched d j (slabCount s h a x j sl) else 0
  let bits := (List.range 256).map (laneBits s h a x cell sl)
  leBytes 4 s.tb.sec.toNat ++ leBytes 4 s.tb.sub ++ leBytes 2 jb.tag.toNat ++
  [colByte (some jb.col.val), BitVec.ofNat 8 (sh.lcode + 8 * b2n sh.mode.bip + 16 * b2n sh.mode.randw + 32 * b2n bankPass),
    BitVec.ofNat 8 (min n 255), 0, 0, 0] ++
  (List.range 4).flatMap (fun j => leBytes 2 (cnt j)) ++ leBytes 4 sl ++ leBytes 4 e ++
  laneBytes (bits.map (·.2.1)) ++ laneBytes (bits.map (·.1)) ++ laneBytes (bits.map (·.2.2))

/-- One comb-slab passes the sampler. -/
def sampleSlab (h : HiveId) (jb : Job) (env : StreamEnv) (a : StreamArgs) (bankPass : Bool) (x : PassAt) (sl : Nat) (s : State) : State :=
  let o := s.obs
  if !o.smpArm || o.smpHive.toNat != h.val || a.shape.combs.getD (x.o - x.r * a.shape.combs.length) 8 != o.smpComb.toNat ||
      (s.isSealed jb.col && jb.part.val != 0x40) then s
  else if o.smpSkip != 0 then updObs (fun o => { o with smpSkip := o.smpSkip - 1 }) s
  else
    let t := supPut (o.smpBase + 128 * o.smpTaken.toNat) (sampleBytes s h jb env a bankPass x sl) s
    let n := o.smpTaken.toNat + 1
    let last := o.smpCount.toNat < n
    let t := updObs (fun o => { o with smpTaken := BitVec.ofNat 5 n, smpSkip := o.smpStride.toNat, smpArm := !last }) t
    if last then obsEvent 8 t else t

-- counts

/-- Deliver the counts of a slab, or of a pass of a bank: to this hive's accumulators, over the mesh to another hive, or in an
ADD message to another station (R75, R86, R198, R336). -/
def deliver (h : HiveId) (p : Prog) (jb : Job) (a : StreamArgs) (first : Nat) (vs : List Word) (s : State) : State :=
  match a.station with
  | some st => match hiveOf? a.hive with
    | some d => sendSw ⟨st.toNat, st.isLt⟩ jb (.add d (first % 1024) (vs.map (·.toNat))) s
    | none => s
  | none =>
    if a.here then updRun h (fun q => (vs.foldl (fun (x : Prog × Nat) v => (x.1.addAcc x.2 v, x.2 + 1)) (q, first)).1) s
    else match hiveOf? a.hive with
      | some d =>
        let path := meshPath s.wax.img p.home d
        { s with mesh := s.mesh ++ vs.mapIdx fun i v =>
          { seq := s.seq, slot := p.slot, src := p.home, dst := d, acc := (first + i) % 1024, v := v, path := path } }
      | none => s

/-- The chains of a pass are complete: their results wait for the honey unit (R198). -/
def finChains (h : HiveId) (o : StreamOp) (a : StreamArgs) (first : Nat) (x : PassAt) (s : State) : State :=
  if o.fin && a.here && x.p + 1 == a.shape.passes then
    let n := a.shape.sub
    let i0 := (x.o * a.b + x.b) * n
    updRun h (fun q => { q with fins := q.fins ++ (List.range n).map fun j =>
      { seq := s.seq, acc := (first + j) % 1024, v := q.accAt (first + j), out := a.out, index := i0 + j, ctx := o.ctx, recNo := o.recNo } }) s
  else s

/-- The first accumulator of a pass (R197). -/
def firstAcc (a : StreamArgs) (x : PassAt) : Nat := a.acc + (x.o * a.b + x.b) * a.shape.sub

/-- Counts that land `left` cycles from now go to their accumulators (R83, R107, R198); `last` tells that they end their pass. -/
def commit (h : HiveId) (p : Prog) (jb : Job) (o : StreamOp) (a : StreamArgs) (x : PassAt) (last : Bool) (left : Nat) (vs : List Word)
    (s : State) : State :=
  let first := firstAcc a x
  let s := { s with seq := s.seq + 1 }
  let s := if a.here && a.station.isNone then
      noteLate h (vs.mapIdx fun j v => { seq := s.seq, acc := (first + j) % 1024, v := v, left := left }) s
    else s
  let s := deliver h p jb a first vs s
  if last then finChains h o a first x s else s

-- issue, replays and storms (R129 to R137, R140, R476, R477)

/-- n comb-slabs of a pass are issued for the first time. -/
def countIssue (h : HiveId) (jb : Job) (a : StreamArgs) (x : PassAt) (n : Nat) (s : State) : State :=
  let s := cntHive h 2 n (cntHive h 3 (4 * a.shape.realTerms x.p * n) s)
  let s := updRow (rowOf h) (fun r => { r with slabs := r.slabs + BitVec.ofNat 64 n }) (cntCol jb.col 1 n s)
  updRun h (fun p => { p with tr := { p.tr with slabs := p.tr.slabs + n }, stN := p.stN + n }) s

/-- A tolerated slab (R132). -/
def countTol (h : HiveId) (s : State) : State :=
  updRun h (fun p => { p with tr := { p.tr with tol := p.tr.tol + 1 } })
    (updRow (rowOf h) (fun r => { r with tolerated := r.tolerated + 1 }) (cntHive h 5 1 s))

/-- Post the storm of R134 when the replays since the last yield point pass their limit. -/
def stormCheck (h : HiveId) (s : State) : State :=
  match (s.hv h).run with
  | none => s
  | some p => if 1 + p.stN / 64 < p.stP then postStorm (rowOf h) (updRun h (fun p => { p with stN := 0, stP := 0 }) s) else s

/-- One replay (R130, R134). -/
def oneReplay (h : HiveId) (jb : Job) (s : State) : State :=
  let s := updRow (rowOf h) (fun r => { r with replays := r.replays + 1 }) (cntCol jb.col 2 1 (cntHive h 4 1 s))
  stormCheck h (updRun h (fun p => { p with tr := { p.tr with replays := p.tr.replays + 1 }, stP := p.stP + 1 }) s)

/-- How the executions of a slab went. -/
inductive SlabEnd
  | done
  /-- The comb waits until the rail is settled (R137). -/
  | wait
  /-- Flagged at a settled OVS0 (R137). -/
  | persist
  deriving DecidableEq, Repr

/-- The n flagged executions of a slab that are replayed, k of the last ones consecutive (R131, R134, R137): at each fourth the
rail decides. -/
def flagged (h : HiveId) (jb : Job) : Nat → Nat → State → State × SlabEnd
  | 0, _, s => (s, .done)
  | n + 1, k, s =>
    if k < 3 then flagged h jb n (k + 1) (oneReplay h jb s)
    else
      let x := s.ovs.row[rowOf h]
      if x.slew then (oneReplay h jb s, .wait)
      else if x.level = 0 then (s, .persist)
      else flagged h jb n 0 (oneReplay h jb (postStorm (rowOf h) s))

-- one slab of the combs that issue together (R83, R196, R525)

/-- How a slab went on the combs that issue it: those done, with their replays and latched bits, those that have to go on
with it, and the worst end. -/
structure SlabRun where
  done : List (PassAt × Nat × Option Nat) := []
  rest : List PassAt := []
  last : SlabEnd := .done
  deriving DecidableEq, Repr

/-- Execute a slab on the combs of a step in their order. -/
def runSlab (h : HiveId) (jb : Job) (env : StreamEnv) (a : StreamArgs) (tol : Bool) (sl : Nat) : List PassAt → SlabRun → State → State × SlabRun
  | [], r, s => (s, r)
  | x :: xs, r, s =>
    let (n, d) := slabFlags env a tol x sl
    let (t, e) := flagged h jb n 0 s
    match e with
    | .done => runSlab h jb env a tol sl xs { r with done := r.done ++ [(x, n, d)] } (if d.isSome then countTol h t else t)
    | e => runSlab h jb env a tol sl xs { r with rest := r.rest ++ [x], last := if r.last == .persist then .persist else e } t

/-- The counts of a slab by sub-tree. -/
def countsAt (s : State) (h : HiveId) (a : StreamArgs) (x : PassAt) (sl : Nat) (d : Option Nat) : List Word :=
  (List.range a.shape.sub).map fun j => BitVec.ofNat 32 (latched d j (slabCount s h a x j sl))

/-- The counts of the combs that are done with a slab land nine cycles after its issue and three later for each replay (R83),
or `more` cycles on. -/
def commitSlab (h : HiveId) (p : Prog) (jb : Job) (o : StreamOp) (env : StreamEnv) (a : StreamArgs) (sl : Nat) :
    List (PassAt × Nat × Option Nat) → State → State
  | [], s => s
  | (x, n, d) :: r, s =>
    let vs := countsAt s h a x sl d
    let s := sampleSlab h jb env a false x sl s
    commitSlab h p jb o env a sl r (commit h p jb o a x (sl + 1 == a.shape.slabs) (9 + 3 * n) vs s)

/-- Issue n slabs from slab sl on of the passes xs on the adder tree; `redo` are those that have still to execute the first of
them, none for all. The cycles of a slab are its issue and three for the most replays on any comb (R83, R525). -/
def treeSlabs (h : HiveId) (p : Prog) (jb : Job) (o : StreamOp) (env : StreamEnv) (a : StreamArgs) (xs : List PassAt) :
    Nat → Nat → List PassAt → State → State × Nat × SlabRun
  | 0, sl, _, s => (s, sl, {})
  | n + 1, sl, redo, s =>
    let s := if redo.isEmpty then xs.foldl (fun t x => countIssue h jb a x 1 t) s else s
    let (s, r) := runSlab h jb env a a.shape.tolerate sl (if redo.isEmpty then xs else redo) {} s
    let s := commitSlab h p jb o env a sl r.done s
    if r.last == .done then
      treeSlabs h p jb o env a xs n (sl + 1) [] (hiveCycles h (1 + 3 * (r.done.map (·.2.1)).foldl max 0) 0 s)
    else (s, sl, r)

-- one pass of one comb on the bank (R102, R104 to R108, R111)

/-- The hinted activity of a hive: 8 combs on an express hive, else what a hint of at least 3,000 cycles ago announced (R110). -/
def State.hintedOf (s : State) (h : HiveId) : Nat :=
  if s.isExpressHive h then 8
  else if (s.hv h).hintFrom ≤ s.runCycles h then (s.hv h).hinted.toNat else (s.hv h).hintWas.toNat

/-- The hinted activity of a row. -/
def State.rowHinted (s : State) (r : RowId) : Nat := ((hivesOfRow r).map s.hintedOf).sum

/-- The window in which passes are marked unhinted: 3,000 cycles from an excess of more than 24 combs (R111). -/
def unhintedWindow (b : BankId) (env : StreamEnv) (s : State) : State :=
  if s.rowHinted b + 24 < env.activity then updBank b (fun x => { x with unhint := 3000 }) s else s

/-- The slabs of a photonic pass: a flagged one discards the integration, and the pass is issued again (R108). -/
def bankFlags (h : HiveId) (jb : Job) (env : StreamEnv) (a : StreamArgs) (x : PassAt) : List Nat → Nat → State → State × Nat × SlabEnd
  | [], n, s => (s, n, .done)
  | sl :: r, n, s =>
    let k := (slabFlags env a false x sl).1
    match flagged h jb k 0 s with
    | (t, .done) => bankFlags h jb env a x r (n + k) t
    | (t, e) => (t, n, e)

/-- One pass on the bank, issued for the first time unless `again`; its counts land 12 cycles after its last slab (R107). Its
own cycles and those of its replays pass; the pass stays in conversion until its counts land (R117). -/
def bankPass (h : HiveId) (p : Prog) (jb : Job) (o : StreamOp) (env : StreamEnv) (a : StreamArgs) (again : Bool) (x : PassAt) (s : State) :
    State × SlabEnd :=
  let b := rowOf h
  let n := a.shape.slabs
  let s := unhintedWindow b env (if again then s else countIssue h jb a x n s)
  let comb := a.shape.combs.getD (x.o % a.shape.combs.length) 0
  let s := updBank b (fun k => { k with last := some (h, comb) }) s
  match bankFlags h jb env a x (List.range n) 0 s with
  | (t, rpl, .done) =>
    let vs := bankCounts t b env a x
    let alts := (List.range a.shape.sub).map fun j => BitVec.ofNat 32 ((List.range n).map (slabCount t h a x j)).sum
    let c := n + (n + 3) * rpl
    let marked := (t.phx.bank[b]).unhint != 0
    let t := (List.range n).foldl (fun t sl => sampleSlab h jb env a true x sl t) t
    let t := cntBank b 0 1 (commit h p jb o a x true (12 + c) vs t)
    let t := noteLate h [{ seq := t.seq, acc := firstAcc a x % 1024, left := 12 + c, kind := .pass vs alts a.shape.fallback n }] t
    let t := if marked then postEvent (.phx b) 8 (cntBank b 2 1 t) else t
    (hiveCycles h c 0 (updBank b (fun k => { k with unhint := k.unhint - c }) t), .done)
  | (t, _, e) => (t, e)

/-- The combs of a hive in the order in which the bank grants them after its last grant (R102). -/
def grantOrder (last : Option (HiveId × Nat)) (h : HiveId) (combOf : Nat → Nat) (os : List Nat) : List Nat :=
  match last with
  | some (g, q) => if g = h then os.filter (fun o => decide (q < combOf o)) ++ os.filter (fun o => decide (combOf o ≤ q)) else os
  | none => os

-- supered rounds (R232)

/-- The WEIGHTS entries of a layer on a hive. -/
def State.weightEnts (s : State) (part l : Nat) (home : HiveId) : List MdlEnt :=
  match s.model? part with
  | none => []
  | some m => m.ents.filter fun e => e.hive == home && e.kind == .weights && e.layer == l

/-- First byte and length of the resident weights of a round in the window, and the spill half that takes them. -/
def roundRange (a : StreamArgs) (q sp r : Nat) : Nat × Nat × Nat :=
  let ne := a.shape.combs.length
  let per := a.shape.sub * a.shape.local_ * 2
  (a.weights + r * ne * per, a.shape.inRound a.nout r * per, q - sp + r % 2 * (sp / 2))

/-- The copies of a round: supers offset, window offset that the layer would hold, and bytes, one for each entry that the round
crosses. -/
def roundCopies (es : List MdlEnt) (lo n : Nat) : List (Nat × Nat × Nat) :=
  es.filterMap fun e =>
    let a := max e.csOff lo
    let b := min (e.csOff + e.len) (lo + n)
    if a < b then some (e.src + (a - e.csOff), a, b - a) else none

/-- The copies of a round's weights wait for an LDW engine; a byte that no entry covers reads as 0 (R232). -/
def queueRound (h : HiveId) (p : Prog) (jb : Job) (a : StreamArgs) (r : Nat) (s : State) : State :=
  match a.spill with
  | none => s
  | some sp =>
    if a.shape.rounds a.nout ≤ r then s
    else
      let (lo, n, dst) := roundRange a (s.winSize a.shape.part) sp r
      let cp := roundCopies (s.weightEnts a.shape.part a.shape.layer p.home) lo n
      let s := putWin h p jb dst (List.replicate n 0) s
      updRun h (fun q => startCopies { q with rounds := q.rounds ++ cp.map fun (src, at_, m) => { src := src, dst := dst + (at_ - lo), left := m } })
        (cntCol jb.col 3 ((cp.map (·.2.2)).sum) s)

/-- The half of the spill buffer that a round reads is not complete (R193, R232). -/
def roundWaits (s : State) (p : Prog) (a : StreamArgs) (r : Nat) : Bool :=
  match a.spill with
  | none => false
  | some sp =>
    let (_, n, dst) := roundRange a (s.winSize a.shape.part) sp r
    (p.ldw ++ p.rounds).any fun c => meets (s.winSize a.shape.part) dst n c.dst c.left

-- the instruction

/-- The decode of a STREAM and its first latch load (R198, R199); `late` are the counts on their way as it starts. -/
def streamDecode (h : HiveId) (p : Prog) (jb : Job) (o : StreamOp) (a : StreamArgs) (late : List Landing) (s : State) : State :=
  let s := if o.clr && a.here then updRun h (fun q => q.clear late a.acc (min 1024 (a.nout * a.b * a.shape.sub))) s else s
  queueRound h p jb a 0 (updRun h (fun q => { q with inStream := some 0, slab := 0, issue := [], redo := [], stuck := false }) s)

/-- The queen stops a program before its next pass (R120, R137). -/
def pauseAt (h : HiveId) (w : StopWhy) (s : State) : State :=
  let s := yieldPoint h 3 s
  if (s.hv h).stops.contains w then s else askStop h w s

/-- A slab stays flagged at OVS0 (R137): the work stops before that slab and the host is inspected. -/
def persistent (h : HiveId) (s : State) : State :=
  wantInsp h .slab (pauseAt h .inspect (postEvent (.ovs (rowOf h)) 8 s))

/-- Where comb-pass n of a STREAM stands in the order of R196. -/
def passNo (a : StreamArgs) (n : Nat) : PassAt :=
  let ne := a.shape.combs.length
  let per := a.shape.passes * a.b * ne
  let r := n / per
  let k := n % per
  let m := max 1 (a.shape.inRound a.nout r)
  { r := r, p := k / m / a.b, b := k / m % a.b, o := r * ne + k % m }

/-- Comb-passes of a STREAM. -/
def passTotal (a : StreamArgs) : Nat := a.shape.passes * a.b * a.nout

/-- Outputs of the sample of comb-pass n that have not been issued: those of its round from it on. -/
def openOuts (a : StreamArgs) (n : Nat) : List Nat :=
  let x := passNo a n
  let ne := a.shape.combs.length
  let m := a.shape.inRound a.nout x.r
  ((List.range m).map (x.r * ne + ·)).filter fun o => decide (x.o ≤ o)

/-- The outputs whose passes come next: those left of the sample in progress, in the order of the bank's grants where the passes
go there. -/
def nextOuts (s : State) (h : HiveId) (p : Prog) (a : StreamArgs) (n : Nat) (bank : Bool) : List Nat :=
  if !p.issue.isEmpty then p.issue
  else
    let os := openOuts a n
    if bank then grantOrder (s.phx.bank[rowOf h]).last h (fun o => a.shape.combs.getD (o % a.shape.combs.length) 0) os else os

/-- Cycles that a block (r, p′) takes beyond its passes while the next latch set loads: R199 counts them among the cycles that
the STREAM occupies the dancer (R72; log entry 67). `turns` tells that its combs take turns, `n` is its last comb-pass. -/
def latchWait (a : StreamArgs) (turns : Bool) (n : Nat) : Nat :=
  let blk := fun (k : Nat) => let x := passNo a k; (x.r, x.p)
  let m := if turns then a.shape.inRound a.nout (passNo a n).r else 1
  if n + 1 == passTotal a || blk (n + 1) != blk n then a.shape.sub - a.b * a.shape.slabs * m else 0

/-- The combs of a step take turns: in random x random layers and on the bank (R71, R102, R196). -/
def takeTurns (a : StreamArgs) (way : PassWay) : Bool := a.shape.mode.randw || way == .bank

/-- The passes of the next step. -/
def stepOuts (a : StreamArgs) (way : PassWay) (os : List Nat) : List Nat := if takeTurns a way then os.take 1 else os

/-- Uncorrectable words among the weights and inputs of a pass. -/
def passUe (s : State) (h : HiveId) (a : StreamArgs) (x : PassAt) : Bool :=
  (List.range a.shape.sub).any fun j =>
    s.winUe a.shape.part h (a.weightOff (s.winSize a.shape.part) x.r x.o j (x.p * a.shape.terms)) (2 * a.shape.realTerms x.p) ||
    s.winUe a.shape.part h (a.input + a.shape.wordOff x.b j (x.p * a.shape.terms)) (2 * a.shape.realTerms x.p)

/-- A step ran to its end: the STREAM goes on behind its n-th comb-pass, or is over. -/
def stepDone (h : HiveId) (a : StreamArgs) (w n k : Nat) (left : List Nat) (s : State) : State :=
  let s := if w = 0 then s else hiveCycles h w 0 s
  let s := updRun h (fun q => { q with inStream := some (n + k), slab := 0, issue := left, redo := [], stuck := false }) s
  if n + k = passTotal a then
    let s := if a.shape.photonic then { s with freeCtr := s.freeCtr + 4 * passTotal a } else s
    nextPc h (updRun h (fun q => { q with inStream := none, issue := [] }) s)
  else s

/-- A step stopped at slab sl of the passes `os`, which `rest` have still to issue (R137, R138). -/
def stepHeld (h : HiveId) (sl : Nat) (os rest : List Nat) (e : SlabEnd) (s : State) : State :=
  let s := updRun h (fun q => { q with slab := sl, issue := os, redo := rest, stuck := e == .wait }) s
  if e == .persist then persistent h s else s

/-- The dancer starts the cycles of a step: c of its units, which pass one by one. -/
def startStep (h : HiveId) (c : Nat) (s : State) : State :=
  updRun h (fun p => { p with stepCycles := p.stepCycles + c }) (updHive h (fun hv => { hv with step := false }) s)

/-- One step of a STREAM from comb-pass n on (R196): the passes `os` that issue together, or the first of them where they take
turns. -/
def streamStep (h : HiveId) (p : Prog) (jb : Job) (o : StreamOp) (env : StreamEnv) (a : StreamArgs) (way : PassWay) (n : Nat)
    (os : List Nat) (s : State) : State :=
  let base := passNo a n
  let xs := (stepOuts a way os).map fun q => { base with o := q }
  let w := latchWait a (takeTurns a way) (n + xs.length - 1)
  let fresh := p.redo.isEmpty
  let s := startStep h (if fresh then a.shape.slabs + w else 0) s
  let s := if fresh && n == base.r * (a.shape.passes * a.b * a.shape.combs.length) && p.issue.isEmpty then queueRound h p jb a (base.r + 1) s else s
  let ue := xs.any (passUe s h a)
  let s := if way == .fallback && fresh then cntBank (rowOf h) 1 xs.length (updJob p.slot (fun j => { j with degr := j.degr ||| 4 }) s) else s
  let t := match way, xs with
    | .bank, x :: _ =>
      match bankPass h p jb o env a (!fresh) x s with
      | (t, .done) => stepDone h a w n 1 (os.drop 1) t
      | (t, e) => stepHeld h 0 os os e t
    | _, _ =>
      match treeSlabs h p jb o env a xs (a.shape.slabs - p.slab) p.slab (xs.filter fun x => p.redo.contains x.o) s with
      | (t, sl, r) =>
        if r.last == .done then stepDone h a w n xs.length (os.drop xs.length) t
        else stepHeld h sl os (r.rest.map (·.o)) r.last t
  if ue then csFault h p.slot { t with freeCtr := t.freeCtr + 2 ^ 21 } else t

/-- The way of the next step: passes that began on the adder tree and wait in the middle end there (R118, R137). -/
def stepWay (s : State) (b : BankId) (p : Prog) (a : StreamArgs) : PassWay :=
  let way := passWay s b a.shape
  if way == .bank && !p.redo.isEmpty && !(p.slab = 0 && p.redo == p.issue) then .fallback else way

/-- Issue the passes of a STREAM up to the next yield point: `k` bounds their number. A comb that waits for its rail goes on
once that is settled, unless the queen stops the work (R138). -/
def streamRun (h : HiveId) (o : StreamOp) (env : StreamEnv) : Nat → State → State
  | 0, s => s
  | k + 1, s =>
    match s.dancing h with
    | none => s
    | some (p, jb) =>
      match p.inStream, streamArgs s p jb o with
      | some n, some a =>
        let way := stepWay s (rowOf h) p a
        let os := nextOuts s h p a n (way == .bank)
        let c := a.shape.slabs + latchWait a (takeTurns a way) (n + (stepOuts a way os).length - 1)
        if p.stuck then
          if (s.ovs.row[rowOf h]).slew || !(s.hv h).stops.isEmpty then s
          else streamRun h o env k (streamStep h p jb o env a way n os s)
        else if opWaits s h p jb (.stream o) || roundWaits s p a (passNo a n).r || (s.hv h).stopsAt p c then s
        else if p.stepCycles != 0 && decide (432 < p.stepCycles + c) then yieldPoint h 2 s
        else
          match way with
          | .lost => passLost h p (yieldPoint h 3 s)
          | .pause => pauseAt h .shed s
          | way => streamRun h o env k (streamStep h p jb o env a way n os (waitFor h (opLands s h p (.stream o)) s))
      | _, _ => s

/-- STREAM (R195 to R199, R206, R207, R232): the row decodes the instruction when that is its next unit, and issues its
passes up to the next yield point; the next STREAM of the hive continues there. A stream that issues nothing costs a cycle. -/
def execStream (h : HiveId) (env : StreamEnv) (s : State) : Host.Outcome State Fault Refusal :=
  let go := fun (o : StreamOp) (t : State) =>
    match t.dancing h with
    | some (p, jb) => match streamArgs t p jb o with
      | some a => streamRun h o env (passTotal a + 1) t
      | none => t
    | none => t
  match s.dancing h with
  | none => .next s
  | some (p, jb) =>
    if s.winUe jb.part.val h (s.pcOff jb.part.val p) 8 then .next (csFault h p.slot s)
    else match s.fetchOp h p jb with
    | some (.stream o) =>
      match p.inStream with
      | some _ => .next (go o s)
      | none => .next (go o (stepOp h (fun p jb op => match op with
        | .stream o => some (match streamArgs s p jb o with
          | none => nextPc h
          | some a => streamDecode h p jb o a (s.hv h).late)
        | _ => none) s))
    | _ => .next s

end Sys2Proof.Machine
end

