-- ==== Sys2Proof/Machine/Stop.lean ====
section
/-! DEFINITION. Machine/Stop.lean: reaching a stop, saving a context and resuming it (R206 to R212), lending (R255 to
R257). -/

namespace Sys2Proof.Machine

-- reaching a stop (R208)

/-- The dancer stands at a yield point with its next unit: none has started since the last one, the next one waits, or it
would be split from the step (R206, R207). While a comb waits for its rail a stop of the queen is reached at once, HALT is not
(R138). -/
def State.atYield (s : State) (h : HiveId) (p : Prog) (j : Job) : Bool :=
  if p.stuck then !(s.hv h).stops.isEmpty
  else p.stepCycles == 0 ||
    match s.fetchOp h p j with
    | none => true
    | some op => opWaits s h p j op || decide (432 < p.stepCycles + opCost s p j op)

/-- What a program issued has landed and been written (R139, R208). -/
def State.landed (s : State) (p : Prog) : Bool :=
  p.fins.isEmpty && !(s.mesh.any fun m => m.slot == p.slot && m.src == p.home)

/-- CODE of a STOP record (Table 22.3); it names none for a gate (log entry 11). -/
def StopWhy.stopCode (free : Nat) : StopWhy → Nat
  | .preempt => 1
  | .reclaim => 2
  | .shed => 3
  | .inspect => 6
  | .retire => 6
  | .seal => 7
  | .gate => free
  | .cancel _ => 5
  | .waxMismatch => 5
  | .swarm => 5

/-- CODE of the stop that a hive is asked for: HALT when nothing else asks (R212). -/
def Hive.stopCode (hv : Hive) (free : Nat) : Nat :=
  match hv.stops with
  | [] => 4
  | w :: _ => w.stopCode free

/-- The STOP record: PC, and the cycles from the request to the stop (Table 22.3). -/
def stopRecord (h : HiveId) (p : Prog) (code cycles : Nat) (s : State) : State :=
  glassHive 2 h p.slot code (leBytes 3 p.pc.toNat ++ [0] ++ leBytes 2 cycles) s

/-- The next pass of a program needs a shed bank (R120). -/
def State.needsBank (s : State) (h : HiveId) (p : Prog) (j : Job) : Bool :=
  match s.fetchOp h p j with
  | some (.stream o) =>
    match streamArgs s p j o with
    | some a => passWay s (rowOf h) a.shape == .pause
    | none => false
  | _ => false

/-- Why the queen keeps a stopped program from running again until it is released. -/
def heldFor (s : State) (h : HiveId) (p : Prog) (j : Job) : Option StopWhy :=
  let ws := (s.hv h).stops
  if ws.contains .seal then some .seal
  else if ws.contains .inspect then some .inspect
  else if s.needsBank h p j then some .shed
  else none

/-- The context of a program as it is saved (R126, R192, R210): context 0 of the honey unit goes with it. -/
def savedProg (s : State) (h : HiveId) (p : Prog) (j : Job) (code : Nat) : Prog :=
  let c := (s.hv h).hny[(0 : Fin 2)]
  { p with
    ctx := .slot, ps0 := c.ps, act0 := c.act, paused := heldFor s h p j, stopAt := some (h, code), stepCycles := 0, stuck := false }

/-- The oldest context of two goes to the supers before a third is saved (R254). -/
def spillSlots (l : List Prog) : List Prog :=
  if (l.filter fun p => p.ctx == .slot).length < 2 then l
  else
    let i := l.findIdx fun p => p.ctx == .slot
    l.mapIdx fun k p => if k = i then { p with ctx := .supers } else p

/-- Counters of a stop: STOPS of the hive; PREEMPT and SHED of the colony (Table 22.1); the pause of a retirement and that of a
sealed deferral count as preemptions (R389, R448). -/
def countStop (h : HiveId) (p : Prog) (j : Job) (s : State) : State :=
  let ws := (s.hv h).stops
  let s' := cntHive h 9 1 s
  let s' := if ws.contains .preempt || ws.contains .reclaim || ws.contains .retire ||
      (ws.contains .seal && !s.classShed p.cls) then cntCol j.col 4 1 s' else s'
  if (ws.contains .shed || ws.contains .seal) && s.classShed p.cls then cntCol j.col 5 1 s' else s'

/-- Save the context of the program of a hive and free the hive (R210). -/
def saveRun (h : HiveId) (p : Prog) (j : Job) (code : Nat) (s : State) : State :=
  let q := savedProg s h p j code
  let gate := (s.hv h).stops.contains .gate
  let s := clearRun h (updHive h (fun hv => { hv with wait := spillSlots hv.wait ++ [q] }) s)
  schedule h (if gate then leaveAll h s else s)

/-- The LDW copies of a program halt at their next 256-byte boundary, counted from the start of each copy (R208); how far each
has come is not stated (log entry 11). A remainder of none ends its copy. -/
def haltCopies (h : HiveId) (p : Prog) (j : Job) : List LdwCopy → State → State
  | [], s => s
  | c :: r, s =>
    let n := min c.left (256 * ((s.free 32).toNat % ((c.left + 255) / 256 + 1)))
    let col := s.wax.img.colonyOf j.part.val
    let bs := s.supRead col c.src n
    let rest := if n < c.left then [{ c with src := c.src + n, dst := c.dst + n, left := c.left - n }] else []
    let s := updRun h (fun q => { q with ldw := q.ldw ++ rest }) s.tickFree
    haltCopies h p j r (jobSupers p.slot col c.src n (putWin h p j c.dst bs s))

/-- The stop of the program on a hive is reached (R208, R212). -/
def reachStop (h : HiveId) (p : Prog) (j : Job) (cycles : Nat) (s : State) : State :=
  let s := if (s.hv h).halted then s else haltCopies h p j p.ldw (updRun h (fun q => { q with ldw := [] }) s)
  let free := (s.free 8).toNat
  let code := (s.hv h).stopCode free
  let s := if (s.hv h).stops.head? == some .gate then s.tickFree else s
  let s := yieldPoint h 3 (countStop h p j s)
  let s := stopRecord h p code cycles s
  match (s.hv h).run with
  | none => s
  | some p =>
    if (s.hv h).stops.isEmpty then updHive h (fun hv => { hv with halted := true, step := false, late := hv.late.filter (·.kind == .request) }) s
    else if ((s.job? p.slot).bind (·.ending)).isSome then finishStop p.slot (schedule h (clearRun h s))
    else saveRun h p j code s

/-- STOP_REACHED (R208): the dancer has reached its next yield point with a stop pending; `cycles` is the time since the
request. -/
def execStopReached (h : HiveId) (cycles : Nat) (s : State) : Host.Outcome State Fault Refusal :=
  match (s.hv h).run with
  | none => .next s
  | some p =>
    match s.job? p.slot with
    | none => .next s
    | some j =>
      let hv := s.hv h
      let due := if hv.halted then !hv.stops.isEmpty else hv.stopPending
      if due && s.atYield h p j && s.landed p then .next (reachStop h p j cycles s) else .next s

-- resuming (R211)

/-- The request of a resumed program (R126): the saved one, a pending one in force at once; row 0 holds none. -/
def OvsReq.restored (o : OvsReq) (h : HiveId) : OvsReq :=
  if h.val < 12 then {} else { req := if o.pendV then o.pend else o.req, reqV := true }

/-- Put the saved window contents of a program into its hive (R92). -/
def putWindow (part : Nat) (h : HiveId) (p : Prog) (s : State) : State :=
  match p.win with
  | none => s
  | some m =>
    let b := s.winBase part
    updHive h (fun hv => { hv with cs := m.foldl (fun t e => memWrite t (b + e.1) e.2) (memZero hv.cs b (s.winSize part)) }) s

/-- The RESUME record (Table 22.3). -/
def resumeRecord (h : HiveId) (p : Prog) (s : State) : State :=
  match p.stopAt with
  | none => s
  | some (at_, code) => glassHive 3 h p.slot code (leBytes 3 p.pc.toNat ++ [BitVec.ofNat 8 at_.val]) s

/-- W cycles for the latch set of a STREAM that continues (R211). -/
def reloadLatch (h : HiveId) (s : State) : State :=
  match s.dancing h with
  | none => s
  | some (p, j) =>
    match p.inStream, s.fetchOp h p j with
    | some _, some (.stream o) => match streamArgs s p j o with
      | some a => spendUnit h a.shape.sub s
      | none => s
    | _, _ => s

/-- A stopped program runs again on a hive: context 0, its window contents, its request in force (R126, R211). -/
def restoreProg (h : HiveId) (p : Prog) (s : State) : State :=
  let part := ((s.job? p.slot).map (·.part.val)).getD 0
  let s := putWindow part h p s
  let q := { p with
    ctx := .fresh, ps0 := [], act0 := [], win := none, stopAt := none, paused := none, ovs := p.ovs.restored h }
  let s := updHive h (fun hv => { hv with
    run := some (startCopies q), wait := dropProg hv.wait p.slot p.home, stops := [], halted := false
    hny := hv.hny.set 0 { ps := p.ps0, act := p.act0 } }) s
  reloadLatch h (resumeRecord h p s)

/-- The stopped program that a free hive resumes: the first in order (R253), with its context in the clear, when the charge
admits it (R418). -/
def State.resumable (s : State) (h : HiveId) : Option Prog :=
  if s.freeHive h && s.chargeAdmits then
    match firstProg s.mayRun (s.hv h).wait with
    | some p => if p.ctx != .fresh && !p.sealed && !(p.lent && s.xpRuns) then some p else none
    | none => none
  else none

/-- The wax gives a hive to the partition of a job whose loaded model puts nothing there (log entry 74). -/
def State.unusedBy (s : State) (h : HiveId) (j : Job) : Bool :=
  s.wax.img.owner? h.val == some j.part.val &&
  match s.model? j.part.val with
  | none => false
  | some m => !(m.dir.any fun d => d.hive == h) && !(m.ents.any fun e => e.hive == h)

/-- Work that has left its hive for a gate and that a free hive resumes: the work of that logical hive, or work of its row when
nothing of the partition lies there and nothing waits there (R92, R93; log entry 74). -/
def State.displaced (s : State) (h : HiveId) : Option (HiveId × Prog) :=
  if s.freeHive h && s.chargeAdmits && (s.resumable h).isNone then
    allHives.findSome? fun g =>
      if g = h then none
      else ((s.hv g).wait.find? fun p =>
        p.win.isSome && !p.sealed && s.mayRun p && g.val / 12 == h.val / 12 &&
          (p.home == h || ((s.hv h).wait.isEmpty && ((s.job? p.slot).map (s.unusedBy h)).getD false))).map fun p => (g, p)
  else none

/-- Displaced work runs again on a hive. -/
def takeDisplaced (h g : HiveId) (p : Prog) (s : State) : State :=
  let s := updJob p.slot (fun j => { j with
    movedAt := (j.movedAt.filter fun m => m.1 != p.home) ++ (if p.home = h then [] else [(p.home, h)]) }) s
  restoreProg h p (updHive g (fun hv => { hv with wait := dropProg hv.wait p.slot p.home }) s)

/-- PROGRAM_RESUME (R92, R211, R253): a flit of a context from the supers that a link of the hive's router discards ends the
job (R88). -/
def execProgramResume (m : FromSupers) (s : State) : Host.Outcome State Fault Refusal :=
  let h := m.hive
  match s.resumable h, s.displaced h with
  | some p, _ => match m.bad with
    | some k => .next (if p.ctx == .supers then meshBad h [] k p.slot s else restoreProg h p s)
    | none => .next (restoreProg h p s)
  | none, some (g, p) => .next (match m.bad with
    | some k => meshBad h [] k p.slot s
    | none => takeDisplaced h g p s)
  | none, none => .next s

-- lending (R255 to R257)

/-- A model may be lent: one program, no SYNC, no MOV, no photonic layer, RESIDENT (R255). -/
def State.lendable (s : State) (j : Job) : Bool :=
  match s.model? j.part.val with
  | none => false
  | some m => m.dir.length == 1 && !m.usesSync && !m.usesMov && m.plan == .resident &&
      m.layers.all fun l => !s.wax.img.photonic j.part.val l

/-- The waiting program of a job that lending would take: fresh, at its own busy home hive. -/
def State.lendProg (s : State) (slot : Nat) : Option (HiveId × Prog) :=
  allHives.findSome? fun h =>
    if (s.hv h).run.isSome then ((s.hv h).wait.find? fun p => p.slot == slot && p.home == h && p.ctx == .fresh && !p.lent).map fun p => (h, p)
    else none

/-- A job may be lent (R255, R417). -/
def State.mayLend (s : State) (j : Job) : Bool :=
  j.isHome && !j.isExpress && j.st == .running && j.ending.isNone && (j.d.cls == 1 || j.d.cls == 2) && j.d.lendOk &&
  (s.co j.col).lend && !s.isSealed j.col && s.lendable j && !s.classShed j.d.cls &&
  decide (s.winSize j.part.val ≤ (1536 - s.expressX) * 1024) && (s.lendProg j.slot).isSome

/-- Job a is lent before job b: high before normal, then the earlier dispatch. -/
def lendBefore (a b : Nat × Nat) : Bool := decide (b.1 < a.1) || (a.1 == b.1 && decide (a.2 < b.2))

/-- No eligible job goes before this one (R255). -/
def State.lendFirst (s : State) (j : Job) : Bool :=
  match s.lendProg j.slot with
  | none => false
  | some (_, p) => s.jobs.all fun i => i.slot == j.slot || !s.mayLend i ||
      match s.lendProg i.slot with
      | some (_, q) => !lendBefore (i.d.cls, q.order) (j.d.cls, p.order)
      | none => true

/-- An express hive is idle and may be lent: no express request runs and none of its work waits (R255, R471). -/
def State.lendHive (s : State) (h : HiveId) : Bool :=
  s.isExpressHive h && s.freeHive h && (s.hv h).wait.isEmpty && !s.xpRuns &&
  !s.holds 0x40 && s.chargeAdmits

/-- LEND_START (R255, R256): the program moves to the express hive with the ranges of its home hive; its input fetch runs
there when the home hive takes the job's input. -/
def execLendStart (h : HiveId) (slot : SlotId) (s : State) : Host.Outcome State Fault Refusal :=
  match s.job? slot.val, s.lendProg slot.val with
  | some j, some (home, p) =>
    if !s.lendHive h || !s.mayLend j || !s.lendFirst j then .next s
    else
      let inHere := j.d.inLen != 0 && home.val == j.d.inHive
      let bad := s.rangesUe j.part.val home
      let s := loadRanges j.part.val home h s
      let s := updHive home (fun hv => { hv with wait := dropProg hv.wait p.slot p.home }) s
      let s := updHive h (fun hv => { hv with wait := hv.wait ++ [{ p with lent := true, needInput := inHere }] }) s
      let s := if inHere && !j.inputPend then readInput { j with inputPend := true } s else s
      .next (endOnUe bad slot.val
        (schedule h (updJob slot.val (fun j => { j with lentAt := some (h, home), inputPend := j.inputPend || inHere }) s)))
  | _, _ => .next s

/-- The lent program of a job that waits, stopped, at an express hive. -/
def State.lentProg (s : State) (slot : Nat) : Option (HiveId × Prog) :=
  allHives.findSome? fun h => ((s.hv h).wait.find? fun p => p.slot == slot && p.lent && p.ctx != .fresh).map fun p => (h, p)

/-- Copy a lent window to the home hive (R257). -/
def copyWindow (part : Nat) (src dst : HiveId) (s : State) : State :=
  let n := s.winSize part
  let low := fun (w : Nat) => decide (8 * w < n)
  updHive dst (fun hv => { hv with
    cs := ((s.hv src).cs.filter fun e => decide (e.1 < n)).foldl (fun t e => memWrite t e.1 e.2) (memZero hv.cs 0 n)
    csUe := hv.csUe.filter (fun w => !low w) ++ (s.hv src).csUe.filter low }) s

/-- LENT_JOB_RETURN (R257): a reclaimed lent program resumes on its express hive, or at home when its home hive became free
first. -/
def execLentJobReturn (slot : SlotId) (home : Bool) (s : State) : Host.Outcome State Fault Refusal :=
  match s.lentProg slot.val, s.job? slot.val with
  | some (h, p), some j =>
    if home then
      if !s.freeHive p.home || !s.mayRun p || !s.chargeAdmits ||
          ((firstProg s.mayRun (s.hv p.home).wait).map fun q => q.before p).getD false then .next s
      else
        let s := updHive h (fun hv => { hv with wait := dropProg hv.wait p.slot p.home }) (copyWindow j.part.val h p.home s)
        .next (restoreProg p.home { p with lent := false } (updJob slot.val (fun j => { j with lentAt := none }) s))
    else if s.resumable h == some p then .next (restoreProg h p s)
    else .next s
  | _, _ => .next s

end Sys2Proof.Machine
end

