-- ==== Sys2Proof/Machine/Barrier.lean ====
section
/-! DEFINITION. Machine/Barrier.lean: arrivals and releases (R203 to R205, R335), the saved context as bytes (Table 9.8) and
layer checkpoints (R339). -/

namespace Sys2Proof.Machine

-- the saved context (Table 9.8)

/-- An LDW remainder: supers address in units of 64 bytes, destination, bytes left. -/
def ldwBytes (c : Option LdwCopy) : List Byte :=
  match c with
  | none => List.replicate 12 0
  | some c => leBytes 4 (c.src / 64) ++ leBytes 4 c.dst ++ leBytes 4 c.left

/-- A MOV remainder with its station. -/
def movBytes (m : Option MovCopy) : List Byte :=
  match m with
  | none => List.replicate 16 0
  | some m =>
    let st := match m.station with
      | some a => a.toNat + 64
      | none => 0
    leBytes 4 m.src ++ leBytes 4 m.dst ++ leBytes 4 (m.left % 2 ^ 17 + m.hive.val * 2 ^ 17) ++ leBytes 4 st

/-- The 8,640 bytes of a saved context. -/
def ctxBytes (p : Prog) : List Byte :=
  p.g.toList.flatMap (fun w => leBytes 4 w.toNat) ++ p.l.toList.flatMap (fun w => leBytes 2 w.toNat) ++
  leBytes 4 (p.pc.toNat + b2n p.waitPend.isSome * 2 ^ 24) ++
  leBytes 4 (p.inStream.getD 0 % 2 ^ 24 + p.slab % 16 * 2 ^ 24 + b2n p.inStream.isSome * 2 ^ 28) ++ leBytes 4 p.layer.toNat ++
  leBytes 4 (p.ovs.req.toNat + 4 * b2n p.ovs.reqV + 8 * p.ovs.pend.toNat + 32 * b2n p.ovs.pendV) ++
  p.e.toList ++ ldwBytes p.ldw[0]? ++ ldwBytes p.ldw[1]? ++ movBytes p.mov ++ List.replicate 32 0 ++
  (List.range 1024).flatMap (fun i => leBytes 4 (tabGet 0 p.acc i).toNat) ++
  (List.range 64).flatMap (fun i => leBytes 4 (tabGet 0 p.ps0 i).toNat) ++
  (List.range 1024).flatMap (fun i => leBytes 4 (tabGet 0 p.act0 i).toNat)

/-- The 32-bit word at a byte of a context. -/
def ctxWord (b : List Byte) (i : Nat) : Word := BitVec.ofNat 32 (uN b i 4)

/-- An LDW remainder read back. -/
def readLdw (b : List Byte) (i : Nat) : List LdwCopy :=
  if uN b (i + 8) 4 = 0 then [] else [{ src := 64 * uN b i 4, dst := uN b (i + 4) 4, left := uN b (i + 8) 4 }]

/-- A MOV remainder read back. -/
def readMov (seq : Nat) (b : List Byte) (i : Nat) : Option MovCopy :=
  let w := uN b (i + 8) 4
  let st := uN b (i + 12) 4
  match hiveOf? (natBits w 17 7) with
  | none => none
  | some h => if w % 2 ^ 17 = 0 then none else
    some { seq := seq, src := uN b i 4, dst := uN b (i + 4) 4, left := w % 2 ^ 17, hive := h
           station := if st.testBit 6 then some (BitVec.ofNat 6 st) else none }

/-- A program as a context's bytes give it; `bar` is the barrier that the instruction at its PC waits on. -/
def readCtx (slot : Nat) (home : HiveId) (seq : Nat) (bar : Option (Fin 32)) (b : List Byte) : Prog :=
  let pc := ctxWord b 72
  let st := ctxWord b 76
  let o := ctxWord b 84
  { slot := slot, home := home
    g := Vector.ofFn fun i => ctxWord b (4 * i.val), l := Vector.ofFn fun i => BitVec.ofNat 16 (uN b (64 + 2 * i.val) 2)
    pc := BitVec.ofNat 24 (fld pc 0 24), layer := BitVec.ofNat 8 (u8 b 80), e := Vector.ofFn fun i => b.getD (88 + i.val) 0
    acc := loadTab [] 0 ((List.range 1024).map fun i => ctxWord b (192 + 4 * i))
    ps0 := loadTab [] 0 ((List.range 64).map fun i => ctxWord b (4288 + 4 * i))
    act0 := loadTab [] 0 ((List.range 1024).map fun i => ctxWord b (4544 + 4 * i))
    ovs := { req := BitVec.ofNat 2 (fld o 0 2), reqV := bit o 2, pend := BitVec.ofNat 2 (fld o 3 2), pendV := bit o 5 }
    waitPend := if bit pc 24 then bar else none, inStream := if bit st 28 then some (fld st 0 24) else none
    slab := fld st 24 4
    ldw := readLdw b 120 ++ readLdw b 132, mov := readMov seq b 144, ctx := .supers }

-- checkpoints (R339)

/-- The program of a job on a logical hive as a checkpoint records it: one that runs with context 0 of its hive's honey
unit. -/
def State.ckptProg (s : State) (slot : Nat) (home : HiveId) : Option Prog :=
  let at_ := fun (p : Prog) => p.slot == slot && p.home == home
  allHives.findSome? fun h =>
    match (s.hv h).run with
    | some p =>
      if at_ p then
        let c := (s.hv h).hny[(0 : Fin 2)]
        some { p with ctx := .supers, ps0 := c.ps, act0 := c.act, paused := none, win := none }
      else ((s.hv h).wait.find? at_).map fun p => { p with ctx := .supers, paused := none, win := none }
    | none => ((s.hv h).wait.find? at_).map fun p => { p with ctx := .supers, paused := none, win := none }

/-- Hives of a job's directory. -/
def State.dirHives (s : State) (part : Nat) : List HiveId := ((s.model? part).map fun m => m.dir.map (·.hive)).getD []

/-- The copy that this station makes of a job (R339): its programs' contexts and its SCRATCH ranges. -/
def State.ownCopy (s : State) (j : Job) (k : Nat) : OwnCkpt :=
  let hs := s.dirHives j.part.val
  { slot := j.slot, k := k, bars := j.bars, progs := hs.filterMap (s.ckptProg j.slot)
    scratch := hs.flatMap fun h => (s.scratchOf j.part.val h).map fun x => (h.val, x.1, s.winRead j.part.val (j.winHive h) x.1 x.2) }

/-- Bytes that a copy takes in the system region. -/
def OwnCkpt.bytes (c : OwnCkpt) : Nat := 8640 * c.progs.length + (c.scratch.map fun x => x.2.2.length).sum

/-- The copy finds room in the system region (R222; log entry 59). -/
def State.ckptRoom (s : State) (c : OwnCkpt) : Bool :=
  decide ((s.swarm.ckpts.map OwnCkpt.bytes).sum + c.bytes ≤ 0x4000000)

/-- Before a new copy of a job is added, keep the newest of those held: a station holds the two newest (R339). -/
def keepTwo (slot : Nat) (l : List OwnCkpt) : List OwnCkpt :=
  let top := ((l.filter fun c => c.slot == slot).map (·.k)).foldl max 0
  l.filter fun c => c.slot != slot || c.k == top

/-- CKPT_DATA messages of one hive: pieces of 256 bytes of its context, then of its SCRATCH bytes (log entry 58). -/
def sendPieces (dst : StnId) (j : Job) (k : Nat) (h : HiveId) : Nat → List (List Byte) → State → State
  | _, [], s => s
  | off, b :: r, s => sendPieces dst j k h (off + b.length) r (sendSw dst j (.ckptData k h off b) s)

/-- The bytes of one hive of a copy. -/
def OwnCkpt.hiveBytes (c : OwnCkpt) (p : Prog) : List Byte :=
  ctxBytes p ++ (c.scratch.filter fun x => x.1 == p.home.val).flatMap (·.2.2)

/-- Send a copy home. -/
def sendCopy (dst : StnId) (j : Job) (c : OwnCkpt) : List Prog → State → State
  | [], s => s
  | p :: r, s =>
    let b := c.hiveBytes p
    sendCopy dst j c r (sendPieces dst j c.k p.home 0 (chunksOf 256 (b.length) b) s)

/-- Checkpoints without those that two newer ones have replaced. -/
def twoNewest (l : List Ckpt) : List Ckpt := l.filter fun c => decide ((l.filter fun d => decide (c.k < d.k)).length < 2)

/-- Change checkpoint k as the home station records it, which holds the two newest (R339). -/
def putCkpt (k : Nat) (f : Ckpt → Ckpt) (l : List Ckpt) : List Ckpt :=
  let l := if l.any fun c => c.k == k then l else l ++ [{ k := k }]
  twoNewest (l.map fun c => if c.k == k then f c else c)

/-- A station has recorded a checkpoint. -/
def ckptDoneBy (slot k : Nat) (stn : Nat) (s : State) : State :=
  updJob slot (fun j => { j with ckpt := putCkpt k (fun c => { c with done := if c.done.contains stn then c.done else c.done ++ [stn] }) j.ckpt }) s

/-- A release of barrier 31 of a swarm job with CHECKPOINT on this station (R339). -/
def takeCkpt (slot : Nat) (s : State) : State :=
  match s.job? slot with
  | none => s
  | some j =>
    let k := j.ckptK + 1
    let s := updJob slot (fun j => { j with ckptK := k }) s
    let c := s.ownCopy j k
    let kept := keepTwo slot s.swarm.ckpts
    let t := { s with swarm := { s.swarm with ckpts := kept } }
    if !t.ckptRoom c then s
    else
      let t := { t with swarm := { t.swarm with ckpts := kept ++ [c] } }
      if j.isHome then ckptDoneBy slot k t.stn.val t
      else sendSw (t.homeOf j) j (.ckptDone k) (sendCopy (t.homeOf j) j c c.progs t)

/-- A release of a barrier is a checkpoint (R339). -/
def State.isCkpt (s : State) (j : Job) (b : Fin 32) : Bool := b == 31 && j.d.checkpoint && s.isSwarmJob j

-- arrivals

/-- Change one barrier of a job. -/
def updBar (slot : Nat) (b : Fin 32) (f : Barrier → Barrier) (s : State) : State :=
  updJob slot (fun j => { j with bars := updAt j.bars b f }) s

/-- An arrival takes effect at the home queen (R203, R335). -/
def arriveAt (slot : Nat) (b : Fin 32) (s : State) : State :=
  match s.job? slot with
  | none => s
  | some j =>
    let x := j.bars[b]
    if x.count + 1 < x.target || x.target = 0 then updBar slot b (fun x => { x with count := x.count + 1 }) s
    else
      let s := updBar slot b (fun x => { x with count := 0, gen := x.gen + 1 }) s
      let s := if s.isCkpt j b then takeCkpt slot s else s
      sendSwAll j (.release b (x.gen + 1)) (s.others j) s

/-- A count or a result that a program issued before an arrival is on its way. -/
def State.countLate (s : State) (slot : Nat) (home : HiveId) (seq : Nat) : Bool :=
  s.hives.toList.any fun hv => match hv.run with
    | some p => p.slot == slot && p.home == home && hv.late.any fun x => (x.kind == .count || x.isResult) && decide (x.seq < seq)
    | none => false

/-- Everything that a program issued before an arrival has landed (R204). -/
def State.arrivalDue (s : State) (a : Arrival) : Bool :=
  !(s.mesh.any fun m => m.slot == a.slot && m.src == a.hive && decide (m.seq < a.seq)) &&
  match s.progOf a.slot a.hive with
  | none => true
  | some p => !(p.fins.any fun f => decide (f.seq < a.seq)) && !(s.countLate a.slot a.hive a.seq) && (match p.mov with | some m => decide (a.seq < m.seq) | none => true)

/-- BARRIER_ARRIVAL (R203, R204, R335): arrival i of those on their way takes effect at the home queen; on another station
it goes home in an ARRIVE message. -/
def execBarrierArrival (i : Nat) (s : State) : Host.Outcome State Fault Refusal :=
  match s.arrivals[i]? with
  | none => .next s
  | some a =>
    if !s.arrivalDue a then .next s
    else
      let t := { s with arrivals := dropAt s.arrivals i }
      match t.job? a.slot with
      | none => .next t
      | some j => .next (if j.isHome then arriveAt a.slot a.bar t else sendSw (t.homeOf j) j (.arrive a.bar (j.bars[a.bar]).gen) t)

end Sys2Proof.Machine
end

