-- ==== Sys2Proof/Machine/Timebase.lean ====
section
/-! DEFINITION. Machine/Timebase.lean: edges, holdover, SETSEC, rollover and PPS_OUT (spec/17). -/

namespace Sys2Proof.Machine

/-- The offset e of an edge at which TB_SUB held `sub`. -/
def edgeOffs (sub : Nat) : Int := if sub < 750000000 then (sub : Int) else (sub : Int) - 1500000000

/-- The clamp of TB_FTRIM (R397). -/
def clampTrim (v : Int) : Int := if v < -450000 then -450000 else if 450000 < v then 450000 else v

/-- round(e / 4); the manual does not say which way a tie goes, so `up` decides it (log entry 23). -/
def roundQuarter (e : Int) (up : Bool) : Int := if e % 4 = 2 then e / 4 + (b2n up : Int) else (e + 2) / 4

/-- TB_SEC has changed: PPS_OUT rises while it is enabled and the state is not FREE (R405). -/
def secChanged (t : TbSt) : TbSt := if t.poutEn && t.st != .free then { t with ppsOut := true } else t

/-- The root sends TICK at each TB_SUB = 0 along the shortest routes of the map in force (R338). -/
def sendTicks (s : State) : State :=
  if s.isRoot && s.swarm.members != 0 && s.swarm.st != .detached then sendMgmt (.tick s.tb.sec 0) s.tickNext s else s

/-- TB_SEC advances to a new value; a waiting SETSEC supplies it and is reported (R404). -/
def advanceSec (v : Word) (s : State) : State :=
  if s.tb.setsecPend && !s.swarm.tsrc then
    postEvent .tb 16 { s with tb := secChanged { s.tb with sec := s.tb.setsec, setsecPend := false } }
  else { s with tb := secChanged { s.tb with sec := v } }

/-- A step (R399): the edge's time, 3 cycles before this one, corresponds to 0; TB_SEC advances when e is negative. -/
def tbStep (e : Int) (s : State) : State :=
  let s := { s with tb := { s.tb with sub := 3, slew := 0 } }
  if e < 0 then advanceSec (s.tb.sec + 1) s else s

/-- Remove e by STEP or SLEW (R400). -/
def removeOffs (e : Int) (s : State) : State :=
  if s.tb.mode then { s with tb := { s.tb with slew := e } } else tbStep e s

/-- An edge of LOCKED or HOLDOVER (R399, R401). -/
def edgeLocked (e : Int) (s : State) : State :=
  if e.natAbs ≤ 1500 then
    let was := s.tb.st
    let s := if e % 4 = 2 then s.tickFree else s
    let trim := clampTrim (s.tb.ftrim - roundQuarter e (s.free 1 == 1))
    let s := removeOffs e { s with tb := { s.tb with ftrim := trim, badrun := 0, st := .locked } }
    if was == .holdover then postEvent .tb 8 s else s
  else if s.tb.badrun.toNat < 2 then
    postEvent .tb 1 { s with tb := { s.tb with badrun := s.tb.badrun + 1 } }
  else
    postEvent .tb 3 (tbStep e { s with tb := { s.tb with badrun := 0, st := .acquire, acq := 0 } })

/-- An edge of ACQUIRE (R399). -/
def edgeAcquire (e : Int) (interval : Nat) (s : State) : State :=
  if 1499250000 ≤ interval ∧ interval ≤ 1500750000 then
    let s := tbStep e { s with tb := { s.tb with ftrim := clampTrim (1500000000 - (interval : Int)), acq := s.tb.acq + 1 } }
    if 2 ≤ s.tb.acq then postEvent .tb 8 { s with tb := { s.tb with st := .locked, acq := 0, badrun := 0 } } else s
  else tbStep e { s with tb := { s.tb with acq := 0 } }

/-- The edge is accepted (Table 17.2). -/
def edgeAccepted (st : TbState) (e : Int) (interval : Nat) : Bool :=
  match st with
  | .free => true
  | .acquire => decide (1499250000 ≤ interval) && decide (interval ≤ 1500750000)
  | .locked | .holdover => decide (e.natAbs ≤ 1500)

/-- An edge (R399): e is noted in TB_OFFS, then the state decides. -/
def tbEdge (e : Int) (interval : Nat) (s : State) : State :=
  let s := { s with tb := { s.tb with offs := BitVec.ofInt 32 e } }
  match s.tb.st with
  | .free => tbStep e { s with tb := { s.tb with st := .acquire, acq := 0 } }
  | .acquire => edgeAcquire e interval s
  | .locked | .holdover => edgeLocked e s

/-- PPS_EDGE (R396, R399): `sub` is TB_SUB at the edge's time and `interval` the cycles since the edge
before. PPS_IN is ignored until READY (Table 23.3). -/
def execPpsEdge (sub interval : Nat) (s : State) : Host.Outcome State Fault Refusal :=
  if s.swarm.tsrc || !s.tb.ppsEn || !s.isReady then .next s else .next (tbEdge (edgeOffs (sub % 1500000000)) interval s)

/-- HOLDOVER_TIMEOUT (R399, R403): no edge was accepted in LOCKED for 1.5 s. -/
def execHoldoverTimeout (s : State) : Host.Outcome State Fault Refusal :=
  if s.tb.st == .locked then .next (postEvent .tb 4 { s with tb := { s.tb with st := .holdover } }) else .next s

/-- SETSEC (R404). -/
def execSetsec (s : State) : Host.Outcome State Fault Refusal :=
  .next (if s.swarm.tsrc then s else { s with tb := { s.tb with setsecPend := true } })

/-- TB_SECOND_ROLLOVER (R397, R338): TB_SUB returns to 0 and TB_SEC advances. -/
def execTbSecondRollover (s : State) : Host.Outcome State Fault Refusal :=
  .next (sendTicks (advanceSec (s.tb.sec + 1) { s with tb := { s.tb with sub := 0 } }))

/-- PPS_OUT_END (R405). -/
def execPpsOutEnd (s : State) : Host.Outcome State Fault Refusal :=
  .next { s with tb := { s.tb with ppsOut := false } }

/-- TB_SLEW_DONE (R400). -/
def execTbSlewDone (s : State) : Host.Outcome State Fault Refusal :=
  .next { s with tb := { s.tb with slew := 0 } }

end Sys2Proof.Machine
end

