-- ==== Sys2Proof/Machine/Swarm.lean ====
section
/-! DEFINITION. Machine/Swarm.lean: swarm messages at the station that they reach, the loss of stations and of their jobs, and
the swarm commands (spec/14). -/

namespace Sys2Proof.Machine

-- messages

/-- The row of a message takes it out of the receive buffer of its port, whose credits are then returned (R306). -/
def takeMsg (m : MsgHdr) (kind op : Nat) (s : State) : State :=
  let hit := fun (x : InMsg) => x.port == m.port && x.kind == kind && x.payload.getD 6 0 == BitVec.ofNat 8 op &&
    x.payload.getD 1 0 == BitVec.ofNat 8 m.src.val && x.payload.getD 3 0 == BitVec.ofNat 8 m.home.val && uN x.payload 4 2 == m.tag.toNat
  match s.inbox.find? hit with
  | none => s
  | some x =>
    updPort m.port (oweCredits (creditIdx kind x.vc) x.nflits) { s with inbox := s.inbox.erase x }

/-- The home job that a message names. -/
def State.homeJob (s : State) (m : MsgHdr) : Option Job :=
  if m.home == s.stn then s.jobs.find? fun j => j.isHome && j.tag == m.tag else none

/-- The slot that the model gives a job of another home station (log entry 66). -/
def farSlot (m : MsgHdr) : Nat := 1024 + m.home.val * 65536 + m.tag.toNat

/-- The job of another home station that a message names. -/
def State.farJob (s : State) (m : MsgHdr) : Option Job := if m.home == s.stn then none else s.job? (farSlot m)

/-- The job that a message names on this station. -/
def State.anyJob (s : State) (m : MsgHdr) : Option Job := if m.home == s.stn then s.homeJob m else s.farJob m

/-- Answer the home station of a message's job. -/
def answer (m : MsgHdr) (x : SwMsg) (s : State) : State := sendMsg m.home m.home m.tag x s

/-- The completion code of a number (Table 0.6). -/
def codeOfNum (n : Nat) : Code :=
  (([.ok, .okDegraded, .doesNotFit, .waxMismatch, .seedUnavailable, .swarmLost, .linkTimeout, .sealedAbort, .rngFail, .powerShed,
     .hiveFault, .cancelled] : List Code).find? fun c => c.num == n).getD .internal

/-- A job of another station as DISPATCH brings it (R333). -/
def farJobOf (m : MsgHdr) (d : DispatchMsg) : Job := {
  slot := farSlot m, gen := 0, col := d.col, kind := .swarm (BitVec.ofNat 6 m.home.val) m.tag
  d := { cls := d.cls, replayable := d.replayable, checkpoint := d.checkpoint, waxVer := d.waxVer, spillOk := d.spillOk
         inHive := (d.hives.map (·.1)).getD 0, outHive := (d.hives.map (·.2)).getD 0 }
  key := d.key, part := colPart d.col, span := d.span ||| BitVec.ofNat 64 (2 ^ m.home.val) }

/-- DISPATCH is checked and answered (R246, R330, R331, R333). A station that accepts no swarm job rejects it (log entry
63). -/
def takeDispatch (m : MsgHdr) (d : DispatchMsg) (s : State) : State :=
  let j := farJobOf m d
  let s := { s with lostJobs := s.lostJobs.filter fun x => x.slot != j.slot }
  if s.swarm.st == .draining || s.swarm.st == .detached then
    answer m (.reject Code.swarmLost.num (BitVec.ofNat 64 s.stn.val)) s
  else match s.checkFail j.part.val j.d d.hives.isSome with
  | some e => answer m (.reject e.code.num e.detail) s
  | none =>
    let j := { j with reach := s.reachOf j.span, sealed := s.isSealed j.col }
    startJob j.slot (answer m .accept { s with jobs := s.jobs ++ [j] })

/-- DISPATCH (R333): it waits while the queen holds the partition (R246), and is ignored for a job that this station holds. -/
def execDispatch (m : MsgHdr) (d : DispatchMsg) (s : State) : Host.Outcome State Fault Refusal :=
  if s.holds (colPart d.col) then .next s
  else if m.home == s.stn || (s.farJob m).isSome then .next (takeMsg m 4 1 s)
  else .next (takeDispatch m d (takeMsg m 4 1 s))

/-- ACCEPT (R333): with the last one the home job starts. -/
def execAccept (m : MsgHdr) (s : State) : Host.Outcome State Fault Refusal :=
  let s := takeMsg m 4 2 s
  match s.homeJob m with
  | none => .next s
  | some j =>
    let j := { j with accepted := j.accepted ||| BitVec.ofNat 64 (2 ^ m.src.val) }
    let s := updJob j.slot (fun _ => j) s
    .next (if j.st == .running && !j.started && (s.others j).all (fun a => j.accepted.getLsbD a.val) then startJob j.slot s else s)

/-- SW_STOP (R208, R337): the programs of the job stop here and DONE answers; a station that has no such job answers at
once. -/
def execSwStop (m : MsgHdr) (reason : Nat) (s : State) : Host.Outcome State Fault Refusal :=
  let s := takeMsg m 4 4 s
  match s.farJob m with
  | none => .next (if m.home == s.stn then s else answer m .done s)
  | some j =>
    .next (endJob j.slot { code := .cancelled, detail := BitVec.ofNat 64 reason } .swarm
      (updJob j.slot (fun j => { j with stopSent := true }) s))

/-- DONE (R334, R337). -/
def execDone (m : MsgHdr) (s : State) : Host.Outcome State Fault Refusal :=
  let s := takeMsg m 4 5 s
  match s.homeJob m with
  | none => .next s
  | some j => .next (finishStop j.slot (updJob j.slot (fun j => { j with done := j.done ||| BitVec.ofNat 64 (2 ^ m.src.val) }) s))

/-- LINK_TIMEOUT with its detail (R310). -/
def linkTimeout (dst port : Nat) : Ending := { code := .linkTimeout, detail := BitVec.ofNat 64 (dst % 256 + 256 * (port % 256)) }

/-- TIMEOUT (R310): the home job completes with LINK_TIMEOUT. -/
def execTimeout (m : MsgHdr) (dst port : Nat) (s : State) : Host.Outcome State Fault Refusal :=
  let s := takeMsg m 4 6 s
  match s.homeJob m with
  | none => .next s
  | some j => .next (endJob j.slot (linkTimeout dst port) (.cancel 0) s)

-- barriers and data (R335, R336)

/-- ARRIVE_MSG (R335): the arrival takes effect at the home queen. -/
def execArriveMsg (m : MsgHdr) (bar : Fin 32) (s : State) : Host.Outcome State Fault Refusal :=
  let s := takeMsg m 5 1 s
  match s.homeJob m with
  | none => .next s
  | some j => .next (arriveAt j.slot bar s)

/-- RELEASE (R335, R339): the generation that this station's WAITs see. -/
def execRelease (m : MsgHdr) (bar : Fin 32) (gen : Byte) (s : State) : Host.Outcome State Fault Refusal :=
  let s := takeMsg m 5 2 s
  match s.farJob m with
  | none => .next s
  | some j =>
    let s := updBar j.slot bar (fun x => { x with gen := gen }) s
    .next (if s.isCkpt j bar then takeCkpt j.slot s else s)

/-- The partition of a job owns a hive. -/
def State.jobOwns (s : State) (j : Job) (h : HiveId) : Bool := s.ownsHive j.part.val h.val

/-- ADD (R75, R336): the counts of one chain, 24 bits each, land in accumulators of the job on a hive. -/
def execAdd (m : MsgHdr) (hive : HiveId) (acc : Nat) (vals : List Nat) (s : State) : Host.Outcome State Fault Refusal :=
  let s := takeMsg m 3 1 s
  match s.anyJob m with
  | none => .next s
  | some j => .next (addCounts j.slot hive acc (vals.map fun v => BitVec.ofNat 32 (toField (sext v 24) 32)) s)

/-- MOVE (R192, R336): bytes land in a window of the job; a hive that the partition does not own discards them. -/
def execMove (m : MsgHdr) (hive : HiveId) (off : Nat) (data : List Byte) (s : State) : Host.Outcome State Fault Refusal :=
  let s := takeMsg m 2 1 s
  match s.anyJob m with
  | none => .next s
  | some j => .next (if s.jobOwns j hive then landBytes j.slot hive off data s else colErr j.col 6 s)

-- time (R338)

/-- D of one hop over the fibre of a port (R304, R335). -/
def hopTime (x : Port) : Nat := 32 + (x.rtt.toNat - 72 + 1) / 2

/-- D of one hop with the 40 cycles of passing on (R335). -/
def hopDelay (x : Port) : Nat := hopTime x + 40

/-- A time of TB_SUB less a delay. -/
def subLess (sub delay : Nat) : Nat := (sub + (1500000000 - delay % 1500000000)) % 1500000000

/-- TICK (R338): it goes on with this hop's D; `sub` is TB_SUB at its arrival, which less the accumulated delay is an edge for a
station with TSRC = 1; an edge that is accepted brings the root's second. -/
def execTick (m : MsgHdr) (sec : Word) (delay : Nat) (sub interval : Nat) (s : State) : Host.Outcome State Fault Refusal :=
  let s := takeMsg m 5 3 s
  let s := sendMgmt (.tick sec (delay + hopDelay s.ports[m.port])) s.tickNext s
  if !s.swarm.tsrc || s.isRoot || !s.isReady then .next s
  else
    let e := edgeOffs (subLess sub (delay + hopTime s.ports[m.port]))
    let t := tbEdge e interval s
    .next (if edgeAccepted s.tb.st e interval then { t with tb := { t.tb with sec := sec } } else t)

-- checkpoints (R339)

/-- CKPT_DATA (R339): a piece of a station's copy reaches the home station. -/
def execCkptData (m : MsgHdr) (k : Nat) (hive : HiveId) (off : Nat) (data : List Byte) (s : State) : Host.Outcome State Fault Refusal :=
  let s := takeMsg m 2 2 s
  match s.homeJob m with
  | none => .next s
  | some j =>
    .next (updJob j.slot (fun j => { j with
      ckpt := putCkpt k (fun c => { c with data := c.data ++ [(m.src.val, hive, off, data)] }) j.ckpt }) s)

/-- CKPT_DONE (R339): checkpoint k of a station is recorded. -/
def execCkptDone (m : MsgHdr) (k : Nat) (s : State) : Host.Outcome State Fault Refusal :=
  let s := takeMsg m 4 8 s
  match s.homeJob m with
  | none => .next s
  | some j => .next (ckptDoneBy j.slot k m.src.val s)

/-- The last checkpoint of a home job: the greatest that every station of its span has recorded; 0 with none. -/
def State.lastCkpt (s : State) (j : Job) : Nat :=
  ((j.ckpt.filter fun c => (s.stn :: s.others j).all fun a => c.done.contains a.val).map (·.k)).foldl max 0

-- lost jobs (R341 to R343)

/-- SWARM_LOST naming a station. -/
def swarmLost (a : StnId) : Ending := { code := .swarmLost, detail := BitVec.ofNat 64 a.val }

/-- Partial sums of a job that a port holds for this station are discarded (R341): those received in part are received no
further, and their buffers are free (R306). -/
def dropSums (home : Nat) (tag : BitVec 16) (x : Port) : Port :=
  let hit := fun (m : RxMsg) => m.kind == 3 && m.dest == .here && namesJob home tag (m.flits.headD [])
  (x.rxPart.filter hit).foldl (fun y m => oweCredits (creditIdx m.kind m.vc) m.flits.length y)
    { x with rxPart := x.rxPart.map fun m => if hit m then { m with dest := .drop, flits := [] } else m }

/-- Messages with partial sums of a job, received whole and not yet added. -/
def State.sumsIn (s : State) (home : Nat) (tag : BitVec 16) : List InMsg :=
  s.inbox.filter fun m => m.kind == 3 && namesJob home tag m.payload

/-- Partial sums in flight of a job are discarded: those received, and those that wait to be sent (R341). -/
def discardSums (home : Nat) (tag : BitVec 16) (s : State) : State :=
  let s := cutAll (fun m => m.kind == 3 && namesJob home tag m.head) { s with ports := s.ports.map (dropSums home tag) }
  (s.sumsIn home tag).foldl (fun t m => updPort m.port (oweCredits (creditIdx m.kind m.vc) m.nflits) t)
    { s with inbox := s.inbox.filter fun m => !(m.kind == 3 && namesJob home tag m.payload) }

/-- The programs of a job stop at once; their counts in flight, accumulators and contexts are gone (R341). -/
def clearPrograms (slot : Nat) (s : State) : State :=
  let t := dropPrograms slot s
  let t := match s.job? slot with
    | some j => discardSums (s.homeOf j).val j.tag (updJob slot (fun j => { j with movedAt := [], lentAt := none }) t)
    | none => t
  { t with
    mesh := t.mesh.filter fun m => m.slot != slot, arrivals := t.arrivals.filter fun a => a.slot != slot
    guard := { t.guard with saves := t.guard.saves.filter fun x => x.slot != slot } }

/-- A job of another station is lost here; a replayable one leaves its copies behind for a ROLLBACK. -/
def loseFar (j : Job) (s : State) : State :=
  let kept := s.swarm.ckpts.filter fun c => c.slot == j.slot
  let t := dropJob j.slot (clearPrograms j.slot s)
  let t := if j.d.replayable then
      { t with lostJobs := j :: t.lostJobs, swarm := { t.swarm with ckpts := t.swarm.ckpts ++ kept } } else t
  drainStep (scheduleAll allHives t)

/-- A home job is lost for good: no STOP is sent, since every station stops it itself. -/
def loseHome (j : Job) (a : StnId) (s : State) : State :=
  killJob j.slot (swarmLost a) (updJob j.slot (fun j => { j with stopSent := true }) s)

/-- The barrier that the instruction at a context's PC waits on. -/
def waitBar (s : State) (part : Nat) (h : HiveId) (pc : Nat) : Option (Fin 32) :=
  match decodeDance (leNat (s.winRead part h (((s.progRegion part h).getD (0, 0)).1 + 8 * pc) 8)) with
  | some (.wait b) | some (.arriveWait b) => some b
  | _ => none

/-- Place saved programs on their hives. -/
def placeSaved : List Prog → State → State
  | [], s => s
  | p :: r, s => placeSaved r (updHive p.home (fun hv => { hv with wait := hv.wait ++ [{ p with paused := none, lent := false }] }) s)

/-- Write SCRATCH bytes back to their windows. -/
def putScratchAll (part : Nat) : List (Nat × Nat × List Byte) → State → State
  | [], s => s
  | (h, off, bs) :: r, s =>
    putScratchAll part r (match hiveOf? h with
      | some h => updHive h (fun hv => { hv with cs := memWriteN hv.cs (s.winBase part + off) bs }) s
      | none => s)

/-- A job goes back to checkpoint k on this station: from its own copy, or from the start (R342). -/
def restoreOwn (slot k : Nat) (s : State) : State :=
  let s := clearPrograms slot s
  match s.job? slot, s.swarm.ckpts.find? (fun c => c.slot == slot && c.k == k && k != 0) with
  | some j, some c =>
    let s := updJob slot (fun j => { j with ckptK := k, bars := c.bars, st := .running, started := true, inputPend := false }) s
    scheduleAll allHives (placeSaved c.progs (putScratchAll j.part.val c.scratch s))
  | _, _ => startJob slot (updJob slot (fun j => { j with ckptK := 0 }) s)

/-- The roles and the span of a job after a standby took a removed station's part (R342). -/
def takeRole (gone sb : StnId) (s : State) (j : Job) : Job :=
  let span := (j.span &&& ~~~(BitVec.ofNat 64 (2 ^ gone.val))) ||| BitVec.ofNat 64 (2 ^ sb.val)
  { j with role := some (gone.val, sb.val), span := span, reach := s.reachOf span &&& ~~~(BitVec.ofNat 64 (2 ^ gone.val)) }

/-- A job without the standby that a repeat gave it before. -/
def unRole (j : Job) : Job :=
  match j.role with
  | some (_, sb) => { j with span := j.span &&& ~~~(BitVec.ofNat 64 (2 ^ sb)) }
  | none => j

/-- Send the removed station's copy of checkpoint k to the standby (R342). -/
def sendLoads (j : Job) (k : Nat) (sb : StnId) : List (Nat × HiveId × Nat × List Byte) → State → State
  | [], s => s
  | (_, h, off, d) :: r, s => sendLoads j k sb r (sendSw sb j (.ckptLoad k h off d) s)

/-- Tell the standby the generations that have been released. -/
def sendGens (j : Job) (sb : StnId) : List (Fin 32) → State → State
  | [], s => s
  | b :: r, s => sendGens j sb r (if (j.bars[b]).gen = 0 then s else sendSw sb j (.release b (j.bars[b]).gen) s)

/-- A home job is repeated with a standby (R342; log entry 64). -/
def repeatJob (j : Job) (gone sb : StnId) (s : State) : State :=
  let k := s.lastCkpt j
  let data := ((j.ckpt.find? fun c => c.k == k).map fun c => c.data.filter fun x => x.1 == gone.val).getD []
  let roles := fun (j : Job) =>
    { takeRole gone sb s j with repeats := j.repeats + 1, done := 0, stopSent := false, st := .running }
  let s := updJob j.slot (fun j => { roles j with accepted := (roles j).span &&& ~~~(BitVec.ofNat 64 (2 ^ sb.val)) }) s
  let s := restoreOwn j.slot k s
  match s.job? j.slot with
  | none => s
  | some j =>
    let s := sendSw sb j (dispatchMsg j) s
    let s := sendSwAll j (.rollback k gone sb) (s.others j) s
    if k = 0 then s else sendGens j sb (List.finRange 32) (sendLoads j k sb data s)

/-- Standby stations that may take the part of a removed one: members of EXO_SW_STBY outside the reach. Whether one carries
the partition at the same version it answers itself to the DISPATCH of the repeat (R246, R333; log entry 64). -/
def State.standbys (s : State) (j : Job) : List StnId :=
  (List.finRange 64).filter fun a => s.swarm.stby.getLsbD a.val && s.swarm.has a.val && a != s.stn && !j.reach.getLsbD a.val

/-- A REJECT that ends the home job with the code carried; the sender has no part in it left (R333). -/
def rejected (src : StnId) (j : Job) (code : Nat) (detail : DWord) (s : State) : State :=
  let s := updJob j.slot (fun j => { j with done := j.done ||| BitVec.ofNat 64 (2 ^ src.val) }) s
  finishStop j.slot (endJob j.slot { code := codeOfNum code, detail := detail } .swarm s)

/-- The standby of a repeat does not carry the partition at the accepted version: the next one is asked, and with none left the
job is lost (R342; log entry 64). -/
def nextStandby (j : Job) (gone sb : Nat) (s : State) : State :=
  if h : gone < 64 then
    let j := { j with role := none, span := (j.span &&& ~~~(BitVec.ofNat 64 (2 ^ sb))) ||| BitVec.ofNat 64 (2 ^ gone) }
    match (s.standbys j).find? fun a => decide (sb < a.val) with
    | some a => repeatJob j ⟨gone, h⟩ a s
    | none => loseHome j ⟨gone, h⟩ s
  else s

/-- REJECT (R333, R342). -/
def execReject (m : MsgHdr) (code : Nat) (detail : DWord) (s : State) : Host.Outcome State Fault Refusal :=
  let s := takeMsg m 4 3 s
  match s.homeJob m with
  | none => .next s
  | some j =>
    match j.role with
    | some (gone, sb) =>
      if sb == m.src.val && !j.accepted.getLsbD sb && j.ending.isNone then .next (nextStandby j gone sb s)
      else .next (rejected m.src j code detail s)
    | none => .next (rejected m.src j code detail s)

/-- A job whose reach includes a removed station is lost, or repeated (R341, R342). -/
def jobLosesStn (a : StnId) (s : State) (j : Job) : State :=
  if !j.isHome then loseFar j s
  else if !j.d.replayable || j.role.isSome || !j.span.getLsbD a.val || j.ending.isSome then loseHome j a s
  else match s.standbys j with
  | sb :: _ => repeatJob j a sb s
  | [] => loseHome j a s

/-- The jobs that a removed station takes with it. -/
def State.reaching (s : State) (a : StnId) : List Job :=
  s.jobs.filter fun j => j.st != .ended && s.isSwarmJob j && (!j.isHome || j.st != .queued) && j.reach.getLsbD a.val

/-- This station is named as failed (R340, R343). -/
def detach (s : State) : State :=
  let a := s.stn
  let s := swEvent 32 (updSw (fun w => { w with st := .detached }) s)
  let js := s.jobs.filter fun j => s.isSwarmJob j && j.st != .ended && (!j.isHome || j.st != .queued)
  js.foldl (fun t j => if j.isHome then loseHome j a t else loseFar j t) s

/-- A station is removed from the map (R340). -/
def removeStn (a by_ : StnId) (s : State) : State :=
  if !s.swarm.has a.val then s
  else if a == s.stn then detach s
  else
    let s := swEvent 4 (updSw (fun w => { w with
      members := w.members &&& ~~~(BitVec.ofNat 64 (2 ^ a.val)), mapGen := w.mapGen + 1, failStn := BitVec.ofNat 6 a.val
      failV := true, failBy := BitVec.ofNat 6 by_.val, failCount := satInc w.failCount }) s)
    (s.reaching a).foldl (jobLosesStn a) s

/-- A port reports the loss of the station at its other end: STN_FAIL to every member that can be reached (R322, R340). -/
def reportLoss (a : StnId) (s : State) : State :=
  if !s.swarm.has a.val then s
  else
    let t := removeStn a s.stn s
    drainStep (sendMgmt (.stnFail a s.stn) t.peers t)

/-- STN_FAIL (R340). -/
def execStnFail (m : MsgHdr) (stn by_ : StnId) (s : State) : Host.Outcome State Fault Refusal :=
  .next (drainStep (removeStn stn by_ (takeMsg m 6 5 s)))

-- ROLLBACK and CKPT_LOAD (R342)

/-- Bytes of a hive's part of a copy. -/
def State.ckptBytes (s : State) (part : Nat) (h : HiveId) : Nat := 8640 + ((s.scratchOf part h).map (·.2)).sum

/-- ROLLBACK at a station of the span: a survivor goes back to its own copy, the standby waits for that of the removed station,
or starts the job anew for checkpoint 0. -/
def rollBack (j : Job) (k : Nat) (gone sb : StnId) (s : State) : State :=
  let s := { s with
    jobs := (s.jobs.filter fun x => x.slot != j.slot) ++ [{ takeRole gone sb s (unRole j) with st := .running, ending := none, stopSent := false }]
    lostJobs := s.lostJobs.filter fun x => x.slot != j.slot }
  if sb == s.stn && k != 0 then
    updJob j.slot (fun j => { j with ckptK := k, started := true, ckpt := [] }) (clearPrograms j.slot s)
  else restoreOwn j.slot k s

/-- ROLLBACK_MSG (R342). -/
def execRollbackMsg (m : MsgHdr) (k : Nat) (role standby : StnId) (s : State) : Host.Outcome State Fault Refusal :=
  let s := takeMsg m 4 7 s
  if m.home == s.stn then .next s
  else match (s.job? (farSlot m)).or (s.lostJobs.find? fun j => j.slot == farSlot m) with
  | none => .next s
  | some j => .next (rollBack j k role standby s)

/-- The pieces of one hive's copy put together, when they are all there. -/
def pieceBytes (n : Nat) (ps : List (Nat × List Byte)) : Option (List Byte) :=
  let m : Memory := ps.foldl (fun t x => memWriteN t x.1 x.2) []
  if n ≤ (ps.map fun x => x.2.length).sum then some (memReadN m 0 n) else none

/-- Cut the SCRATCH bytes of a copy into their ranges. -/
def cutScratch (h : HiveId) : List (Nat × Nat) → List Byte → List (Nat × Nat × List Byte)
  | [], _ => []
  | (off, n) :: r, bs => (h.val, off, bs.take n) :: cutScratch h r (bs.drop n)

/-- A hive's copy is complete at the standby: its program waits there with the saved context (R211, R342). -/
def loadHive (j : Job) (h : HiveId) (bs : List Byte) (s : State) : State :=
  let part := j.part.val
  let bar := waitBar s part h (fld (ctxWord bs 72) 0 24)
  let p := { readCtx j.slot h s.seq bar bs with order := s.order, cls := j.d.cls }
  let t := putScratchAll part (cutScratch h (s.scratchOf part h) (bs.drop 8640)) { s with order := s.order + 1, seq := s.seq + 1 }
  schedule h (placeSaved [p] t)

/-- CKPT_LOAD (R342): a piece of the removed station's copy reaches the standby. -/
def execCkptLoad (m : MsgHdr) (k : Nat) (hive : HiveId) (off : Nat) (data : List Byte) (s : State) : Host.Outcome State Fault Refusal :=
  let s := takeMsg m 2 3 s
  match s.farJob m with
  | none => .next s
  | some j =>
    if j.ckptK != k || (s.progOf j.slot hive).isSome then .next s
    else
      let s := updJob j.slot (fun j => { j with
        ckpt := putCkpt k (fun c => { c with data := c.data ++ [(m.src.val, hive, off, data)] }) j.ckpt }) s
      let ps := match (s.job? j.slot).bind fun j => j.ckpt.find? fun c => c.k == k with
        | some c => (c.data.filter fun x => x.2.1 == hive).map fun x => (x.2.2.1, x.2.2.2)
        | none => []
      match pieceBytes (s.ckptBytes j.part.val hive) ps with
      | none => .next s
      | some bs => .next (loadHive j hive bs s)

-- the walk and the map (R326 to R331)

/-- The token reaches a station for the first time in this walk (R327): the address it takes, and the token's list. -/
def tokenFirst (p : PortId) (value : Nat) (root : Bool) (list : List Nat) (s : State) : State :=
  let st := s.boot.straps
  let addr : Option StnId := if st.stnMode then (if h : value < 64 then some ⟨value, h⟩ else none) else some ⟨st.stnAddr.toNat, st.stnAddr.isLt⟩
  let w : Walk := { phase := .token, arrival := p, left := visitOrder p, value := value, twoRoot := root
                    list := list ++ [(addr.map (·.val)).getD 64] }
  visitNext (updSw (fun x => { x with addr := addr, st := .walking, walk := some w }) s)

/-- TOKEN (R327): a station that the walk has reached before returns it unchanged, as does another root, which flags it. -/
def execToken (m : MsgHdr) (value : Nat) (root : Bool) (list : List Nat) (s : State) : Host.Outcome State Fault Refusal :=
  let s := takeMsg m 6 1 s
  if s.swarm.walk.isSome then .next (sendWalk m.port s.stn (.tokenRet value root list) s)
  else if s.isRoot then .next (sendWalk m.port s.stn (.tokenRet value true list) s)
  else .next (tokenFirst m.port value root list s)

/-- TOKEN_RET (R327): the walk goes on from here. -/
def execTokenRet (m : MsgHdr) (value : Nat) (root : Bool) (list : List Nat) (s : State) : Host.Outcome State Fault Refusal :=
  let s := takeMsg m 6 2 s
  match s.swarm.walk with
  | none => .next s
  | some w =>
    if w.phase != .token then .next s
    else .next (visitNext (updSw (fun x => { x with walk := some { w with value := value, twoRoot := w.twoRoot || root, list := list } }) s))

/-- LINKS (R328): the root notes the partners of a station; another station passes the message on towards the root. -/
def execLinks (m : MsgHdr) (partners : List Partner) (s : State) : Host.Outcome State Fault Refusal :=
  let s := takeMsg m 6 3 s
  match s.swarm.walk with
  | none => .next s
  | some w =>
    if !s.isRoot then .next (sendWalk w.arrival m.src (.links partners) s)
    else
      let w := { w with links := (w.links.filter fun x => x.1 != m.src) ++ [(m.src, partners)] }
      let s := updSw (fun x => { x with walk := some w }) s
      .next (if w.phase == .links && w.linked then walkEnds w s else s)

/-- MAP (R328). -/
def execMap (m : MsgHdr) (sm : SwarmMap) (s : State) : Host.Outcome State Fault Refusal := .next (mapInstall sm (takeMsg m 6 4 s))

/-- LEAVE_MSG (R331): the member is removed and no job fails. -/
def execLeaveMsg (m : MsgHdr) (s : State) : Host.Outcome State Fault Refusal :=
  let s := takeMsg m 6 6 s
  if !s.swarm.has m.src.val || m.src == s.stn then .next s
  else .next (drainStep (swEvent 16 (updSw (fun w => { w with
    members := w.members &&& ~~~(BitVec.ofNat 64 (2 ^ m.src.val)), mapGen := w.mapGen + 1 }) s)))

/-- DRAIN (R330). -/
def execDrain (m : MsgHdr) (s : State) : Host.Outcome State Fault Refusal :=
  .next (drainStep (updSw (fun w => { w with drain := true, drainOwed := true }) (takeMsg m 6 7 s)))

/-- DRAINED (R330). -/
def execDrained (m : MsgHdr) (s : State) : Host.Outcome State Fault Refusal :=
  .next (drainStep (updSw (fun w => { w with drained := w.drained ||| BitVec.ofNat 64 (2 ^ m.src.val) }) (takeMsg m 6 8 s)))

/-- ENUM (R326, R327, R330): ignored unless this station is the root, and while a walk runs. -/
def enumWrite (s : State) : State :=
  let st := s.boot.straps
  if !s.isRoot || s.swarm.walk.isSome then s
  else if !st.stnMode && st.stnAddr != 0 then swEvent 2 (updSw (fun w => { w with err := 6 }) s)
  else
    let s := updSw (fun w => { w with walk := some {}, drain := true, drained := 0, st := .walking }) s
    drainStep (sendMgmt .drain s.peers s)

/-- ENUM (R327). -/
def execEnum (s : State) : Host.Outcome State Fault Refusal := .next (enumWrite s)

/-- LEAVE (R331): ignored unless the station is a member. -/
def leaveWrite (s : State) : State :=
  if s.swarm.st == .member then drainStep (updSw (fun w => { w with st := .draining }) s) else s

/-- LEAVE (R331). -/
def execLeave (s : State) : Host.Outcome State Fault Refusal := .next (leaveWrite s)

/-- WALK_TIMEOUT (R328): the walk fails at the root; another station that it reached goes back to what it was. -/
def execWalkTimeout (s : State) : Host.Outcome State Fault Refusal :=
  .next (if s.swarm.walk.isNone && !s.swarm.drain then s
    else if s.isRoot then (if s.swarm.walk.isSome then walkFails 4 s else s)
    else updSw (fun w => { w with
      walk := none, drain := false, drainOwed := false
      st := if w.st == .walking then (if w.members != 0 then .member else .alone) else w.st }) s)

end Sys2Proof.Machine
end

