-- ==== Sys2Proof/Machine/Exo.lean ====
section
/-! DEFINITION. Machine/Exo.lean: the Exoth ports: flits received, acknowledgement, credits and retry, training, light, and loss
of a port (spec/13). -/

namespace Sys2Proof.Machine

/-- EXO_PEVT of a port. -/
def exoEvent (p : PortId) (w : Word) (s : State) : State := postEvent (.exo p) w s

-- LINK flits (R302)

/-- The CREDIT bytes: ten counts of 6 bits. -/
def creditBytes (l : List Nat) : List Byte :=
  leBytes 8 (l.foldr (fun c a => min c 63 + 64 * a) 0)

/-- The ten counts that CREDIT bytes hold. -/
def readCredits (v : Nat) : List Nat := (List.range 10).map fun i => natBits v (6 * i) 6

/-- A LINK flit (Table 13.4). -/
def linkFlit (s : State) (p : PortId) (ltype ack : Nat) (cr : List Nat) : List Byte :=
  let stn : Byte := match s.swarm.addr with | some a => BitVec.ofNat 8 (a.val + 64) | none => 0
  flitBytes 1 true true 0 (BitVec.ofNat 8 ltype :: (leBytes 2 ack ++ creditBytes cr ++ [stn, BitVec.ofNat 8 p.val]))

/-- The number of the last sequenced flit received good and in order. -/
def Port.lastGood (x : Port) : Nat := (x.rxNext + 1023) % 1024

/-- Send a LINK flit that returns no credit. -/
def sendLink (p : PortId) (ltype ack : Nat) (s : State) : State :=
  emit p (linkFlit s p ltype ack (List.replicate 10 0)) s

/-- Send STATUS: the acknowledgement, and at most 63 credits of each kind (R303). -/
def sendStatus (p : PortId) (s : State) : State :=
  let x := s.ports[p]
  emit p (linkFlit s p 1 x.lastGood x.owed)
    (updPort p (fun x => { x with owed := x.owed.map (· - 63), ackDue := x.owed.any (63 < ·) }) s)

-- TRAIN flits (R302, R311)

/-- The payload of a TRAIN flit after LTYPE: good receive set, Device Serial Number and echo, little-endian (log entry 80). -/
def trainBytes (i : TrainInfo) : List Byte := leBytes 2 i.good.toNat ++ leBytes 8 i.serial.toNat ++ leBytes 2 i.echo.toNat

/-- What the payload of a TRAIN flit reports. -/
def readTrain (b : List Byte) : TrainInfo :=
  { good := BitVec.ofNat 9 (uN b 1 2), serial := BitVec.ofNat 64 (uN b 3 8), echo := BitVec.ofNat 16 (uN b 11 2) }

/-- Send a TRAIN flit: in step 2 it reports no set, in step 4 the good receive set. A port that trains against itself has nothing
to learn from it (R315). -/
def sendTrain (p : PortId) (good : BitVec 9) (s : State) : State :=
  let echo := (((s.ports[p]).peer).map (·.echo)).getD 0
  if (s.ports[p]).loopOn then s
  else emit p (flitBytes 1 true true 0 (3 :: trainBytes { good := good, serial := Config.dsn, echo := echo })) s

/-- The training steps begin: nothing has been reported, and TRAIN flits leave (step 2 of Table 13.8). -/
def beginTrain (p : PortId) (s : State) : State := sendTrain p 0 (updPort p (fun x => { x with peer := none }) s)

/-- HEARTBEAT_SEND (R303). -/
def execHeartbeatSend (p : PortId) (s : State) : Host.Outcome State Fault Refusal :=
  .next (if (s.ports[p]).live then sendStatus p s else s)

-- loss of a port (R321, R322)

/-- A port at its training values (R322). -/
def Port.clear (x : Port) : Port := { x with
  retry := [], txNext := 0, rxNext := 0, acked := none, credits := creditInit, owed := List.replicate 10 0, ackDue := false
  discarding := false, failed := 0, resent := false, rxPart := [], mgmtWait := 0 }

/-- A message stands in the receive buffer of a port: it came in there and has not been passed on (R306, R309). -/
def OutMsg.cameIn (p : PortId) (m : OutMsg) : Bool :=
  match m.from_ with
  | some (q, _) => q == p.val
  | none => false

/-- What the loss of a port discards in the queues: messages that stand in its receive buffers, and those partly sent on it
(R322). -/
def cutLost (p : PortId) (s : State) : State := cutAll (OutMsg.cameIn p) (cutOut p (·.started) s)

/-- The port is lost with a cause; `st` and `tx` are what it does next. -/
def losePort (p : PortId) (cause : Nat) (st : PortSt) (tx : TxLight) (s : State) : State :=
  let x := s.ports[p]
  let far : Option StnId := if x.partnerV && !x.self then some ⟨x.partner.toNat, x.partner.isLt⟩ else none
  let s := updPort p (fun x => { x.clear with
    st := st, tx := tx, admitted := false, partnerV := false, partner := 0, pport := 0, self := false, half := false, loopIn := []
    peer := none, lossNow := true, lossCause := BitVec.ofNat 4 cause, lossCount := satInc x.lossCount }) (cutLost p s)
  let s := exoEvent p 1 { s with inbox := s.inbox.filter fun m => m.port != p }
  match far with
  | some a => reportLoss a s
  | none => s

/-- A cause that arises in the cycle in which the port was lost: EXO_PLOSS keeps the lowest code (R321). -/
def secondCause (p : PortId) (cause : Nat) (s : State) : State :=
  updPort p (fun x => if x.lossNow && decide (cause < x.lossCause.toNat) then { x with lossCause := BitVec.ofNat 4 cause } else x) s

/-- The port is in ACTIVE or RETRAIN, or behaves as such in LOOP (R315, R321). -/
def Port.carries (x : Port) : Bool := x.live || x.st == .retrain

/-- A loss after which the port trains again while it has light, and else stands in SAFE (R322). -/
def dropPort (p : PortId) (cause : Nat) (s : State) : State :=
  let x := s.ports[p]
  if x.loopOn then beginTrain p (losePort p cause .train .dark s)
  else if x.light then beginTrain p (losePort p cause .train .full s)
  else losePort p cause .safe .dark s

/-- A violation of the protocol (R301, R307). -/
def protoLoss (p : PortId) (s : State) : State := dropPort p 7 s

-- retry (R304)

/-- Resend held flits; the sixteenth resend without an ACK advance since the one before it loses the port. -/
def resend (p : PortId) (fs : List HeldFlit) (s : State) : State :=
  if fs.isEmpty then s
  else
    let x := s.ports[p]
    let failed := if x.resent then x.failed + 1 else x.failed
    let s := updPort p (fun x => { x with rtyCnt := x.rtyCnt + 1, failed := failed, resent := true }) s
    if 16 ≤ failed then dropPort p 3 s
    else fs.foldl (fun t f => emit p f.bytes t) s

/-- Held flits from a number on. -/
def heldFrom (n : Nat) (l : List HeldFlit) : List HeldFlit := l.dropWhile fun f => f.num != n

/-- RETRY_TIMEOUT (R304): the ACK has not advanced for 3,000 cycles. -/
def execRetryTimeout (p : PortId) (s : State) : Host.Outcome State Fault Refusal :=
  .next (if (s.ports[p]).live then resend p (s.ports[p]).retry s else s)

/-- An ACK covers a number: the flits up to it leave the retry buffer (R304). -/
def ackUpTo (n : Nat) (x : Port) : Port :=
  if x.retry.any fun f => f.num == n then
    { x with retry := (heldFrom n x.retry).drop 1, acked := some n, failed := 0, resent := false } else x

-- STATUS and NAK (R302, R304, R306, R314)

/-- What STATUS and NAK payloads have in common: credits, the partner's address and port. -/
def linkCommon (p : PortId) (b : List Byte) (s : State) : State :=
  let cr := readCredits (uN b 3 8)
  updPort p (fun x => { x with
    credits := x.credits.zipWith (· + ·) cr, partner := BitVec.ofNat 6 (u8 b 11), partnerV := (u8 b 11).testBit 6
    pport := BitVec.ofNat 2 (u8 b 12) }) s

/-- What a STATUS payload brings: an acknowledgement, credits, and the partner's address. -/
def takeAck (p : PortId) (b : List Byte) (s : State) : State := updPort p (ackUpTo (uN b 1 2 % 1024)) (linkCommon p b s)

/-- A STATUS payload takes effect; a port that retrains keeps what it brings, and sends nothing (R313). -/
def takeStatus (p : PortId) (b : List Byte) (s : State) : State :=
  if (s.ports[p]).carries then pump p (takeAck p b s) else s

/-- A NAK payload takes effect: the held flits from the number named are resent; a port that retrains makes no resend. -/
def takeNak (p : PortId) (b : List Byte) (s : State) : State :=
  let t := linkCommon p b s
  if (s.ports[p]).live then pump p (resend p (heldFrom (uN b 1 2 % 1024) (t.ports[p]).retry) t)
  else if (s.ports[p]).carries then t
  else s

/-- A retrain begins (R313): RETRAIN is sent, sequenced flits stop; retry buffer, credits and numbers stay. -/
def enterRetrain (p : PortId) (s : State) : State :=
  if (s.ports[p]).st == .active then
    beginTrain p (updPort p (fun x => { x with st := .retrain }) (sendLink p 4 (s.ports[p]).lastGood s))
  else s

/-- A RETRAIN payload: the partner's ACK and credits count, and the port retrains with it (R313). -/
def takeRetrain (p : PortId) (b : List Byte) (s : State) : State :=
  if (s.ports[p]).carries then enterRetrain p (takeAck p b s) else s

/-- The port is in its training steps (R311). -/
def inTrain (p : PortId) (s : State) : State :=
  updPort p (fun x => if x.st == .relit then { x with st := .train } else x) s

/-- The port runs the steps of Table 13.8. -/
def Port.training (x : Port) : Bool := x.st == .relit || x.st == .train || x.st == .retrain

/-- A TRAIN payload, used only in training: the port is in its training steps, and notes what the partner reports; a flit with no
good set reports nothing yet. -/
def takeTrain (p : PortId) (b : List Byte) (s : State) : State :=
  if !(s.ports[p]).training then s
  else
    let i := readTrain b
    inTrain p (if i.good = 0 then s else updPort p (fun x => { x with peer := some i }) s)

/-- The flit is good: 16 bytes whose CRC matches. -/
def crcOk (bs : List Byte) : Bool := bs.length == 16 && uN bs 14 2 == (crc16 0xFFFF (bs.take 14)).toNat

/-- A LINK flit takes effect by its LTYPE; one with a reserved LTYPE is discarded. -/
def takeLink (p : PortId) (b : List Byte) (s : State) : State :=
  match u8 b 0 with
  | 1 => takeStatus p b s
  | 2 => takeNak p b s
  | 3 => takeTrain p b s
  | 4 => takeRetrain p b s
  | _ => s

/-- A received flit is a good LINK flit of a type. -/
def isLink (ltype : Nat) (bs : List Byte) : Bool := crcOk bs && u8 bs 0 % 32 == 25 && u8 bs 1 == ltype

/-- STATUS (R302 to R306, R314): a STATUS flit of 16 bytes. -/
def execStatus (p : PortId) (bytes : List Byte) (s : State) : Host.Outcome State Fault Refusal :=
  .next (if isLink 1 bytes then takeStatus p ((bytes.drop 1).take 13) s else s)

/-- NAK (R302, R304): a NAK flit of 16 bytes. -/
def execNak (p : PortId) (bytes : List Byte) (s : State) : Host.Outcome State Fault Refusal :=
  .next (if isLink 2 bytes then takeNak p ((bytes.drop 1).take 13) s else s)

/-- TRAIN (R302, R311): a TRAIN flit of 16 bytes. -/
def execTrain (f : RxFlit) (s : State) : Host.Outcome State Fault Refusal :=
  .next (if isLink 3 f.bytes then takeTrain f.port ((f.bytes.drop 1).take 13) s else s)

/-- RETRAIN (R313): a RETRAIN flit of 16 bytes. -/
def execRetrain (f : RxFlit) (s : State) : Host.Outcome State Fault Refusal :=
  .next (if isLink 4 f.bytes then takeRetrain f.port ((f.bytes.drop 1).take 13) s else s)

-- received flits (R301, R306, R307, R309)

/-- Longest message of a class in flits (Table 13.5). -/
def longest (kind : Nat) : Nat := match kind with | 2 | 3 => 64 | 5 => 4 | _ => 16

/-- OPs of a class (Table 14.2). -/
def opKnown (kind op : Nat) : Bool :=
  decide (1 ≤ op) && decide (op ≤ match kind with | 2 => 3 | 3 => 1 | 4 => 8 | 5 => 3 | _ => 8)

/-- A message that the station at the other end of the port takes whatever its DST: TOKEN, TOKEN_RET, LINKS (log entry 62). -/
def isWalkMsg (kind op : Nat) : Bool := kind == 6 && decide (1 ≤ op) && decide (op ≤ 3)

/-- The first payload with another VC. -/
def setVc (vc : Nat) (b : List Byte) : List Byte :=
  b.set 0 (BitVec.ofNat 8 (u8 b 0 % 64 + 64 * vc + u8 b 0 / 128 * 128))

/-- Where the first flit of a message sends it, with the VC of its next hop (R309, R314, R329). -/
def rxTo (p : PortId) (kind : Nat) (b : List Byte) (s : State) : RxTo × Nat :=
  let op := u8 b 6
  let dst := u8 b 0 % 64
  let vc := u8 b 0 / 64 % 2
  let here := isWalkMsg kind op || (match s.swarm.addr with | some a => dst == a.val | none => kind == 6)
  if !(s.ports[p]).admitted && kind != 6 then (.drop, vc)
  else if here then (if opKnown kind op then .here else .drop, vc)
  else match (s.swarm.wayFrom (u8 b 1 % 64) s.stn.val dst).2 with
  | n :: _ =>
    match s.swarm.portTo s.stn.val n with
    | none => (.drop, vc)
    | some q => (.pass q, s.swarm.vcOf (u8 b 1 % 64) s.stn.val n dst)
  | [] => (.drop, vc)

/-- The first flit of a message that is passed on (R309): its port sends it when it holds the credits. -/
def passFirst (p q : PortId) (kind vc out n : Nat) (b : List Byte) (s : State) : State :=
  enq q { kind := kind, vc := out, flits := [setVc out b], head := setVc out b, more := n - 1, from_ := some (p.val, creditIdx kind vc) } s

/-- A message under way through this station that still waits for flits from a port's class and VC. -/
def OutMsg.isOpen (p : PortId) (i : Nat) (m : OutMsg) : Bool := m.from_ == some (p.val, i) && m.more != 0

/-- A further flit of a message that is passed on; one whose message is gone is discarded. -/
def passNext (p q : PortId) (i : Nat) (b : List Byte) (s : State) : State :=
  match (s.ports[q]).outq.find? (OutMsg.isOpen p i) with
  | none => updPort p (oweCredits i 1) s
  | some m =>
    pump q (updPort q (fun x => { x with outq := x.outq.replace m { m with flits := m.flits ++ [b], more := m.more - 1 } }) s)

/-- A message for this station has been received whole. -/
def gotMessage (p : PortId) (m : RxMsg) (s : State) : State :=
  { s with inbox := s.inbox ++ [{ port := p, kind := m.kind, vc := m.vc, payload := m.flits.flatten, nflits := m.flits.length }] }

/-- A flit of a message takes effect by where the message goes. -/
def rxFlit (p : PortId) (m : RxMsg) (b : List Byte) (s : State) : State :=
  let i := creditIdx m.kind m.vc
  match m.dest with
  | .drop => updPort p (oweCredits i 1) s
  | .pass q => passNext p q i b s
  | .here => if m.got = m.len then gotMessage p m s else s

/-- A message partly received is discarded, as is what waits of it to be passed on; its credits are returned. -/
def dropPart (p : PortId) (m : RxMsg) (s : State) : State :=
  let i := creditIdx m.kind m.vc
  match m.dest with
  | .drop => s
  | .pass q => cutOut q (OutMsg.isOpen p i) s
  | .here => updPort p (oweCredits i m.flits.length) s

/-- Set what a port holds of a class's message; a message whose flits are all here is held no longer. -/
def holdPart (m : RxMsg) (x : Port) : Port :=
  let rest := x.rxPart.filter fun e => e.kind != m.kind
  { x with rxPart := if m.got = m.len then rest else rest ++ [m] }

/-- The first flit of a message. Where the one before it in its class has not ended, its sender has given it up: it is never
delivered in part (R322; log entry 80). -/
def firstFlit (p : PortId) (kind : Nat) (eom : Bool) (b : List Byte) (s : State) : State :=
  let n := u8 b 2 % 64 + 1
  if decide (longest kind < n) || (eom != (n == 1)) then protoLoss p s
  else
    let s := match (s.ports[p]).rxPart.find? fun e => e.kind == kind with
      | some old => dropPart p old s
      | none => s
    let (dest, out) := rxTo p kind b s
    let m : RxMsg := { kind := kind, vc := u8 b 0 / 64 % 2, len := n, got := 1, dest := dest, flits := if dest == .here then [b] else [] }
    let s := updPort p (holdPart m) s
    match dest with
    | .pass q => passFirst p q kind m.vc out n b s
    | _ => rxFlit p m b s

/-- A good sequenced flit begins its class's message, extends it, or completes it (R307, R308). -/
def gotFlit (p : PortId) (kind : Nat) (som eom : Bool) (payload : List Byte) (s : State) : State :=
  if som then firstFlit p kind eom payload s
  else match (s.ports[p]).rxPart.find? fun e => e.kind == kind with
  | none => protoLoss p s
  | some m =>
    let m := { m with got := m.got + 1, flits := if m.dest == .here then m.flits ++ [payload] else [] }
    if eom != (m.got == m.len) then protoLoss p s else rxFlit p m payload (updPort p (holdPart m) s)

/-- A flit that is not good: the sequenced flits up to the expected one are discarded, and a NAK names it (R301). -/
def badFlit (p : PortId) (s : State) : State :=
  let x := s.ports[p]
  if x.discarding || !x.live then s
  else updPort p (fun x => { x with discarding := true }) (sendLink p 2 x.rxNext s)

/-- A flit whose CRC matches (R301). -/
def goodFlit (p : PortId) (bs : List Byte) (s : State) : State :=
  let h := u8 bs 0
  let kind := h % 8
  let som := h.testBit 3
  let eom := h.testBit 4
  let payload := (bs.drop 1).take 13
  if kind = 7 || (kind = 0 && (som || eom)) || (kind = 1 && !(som && eom)) then
    (if (s.ports[p]).carries then protoLoss p s else s)
  else if kind = 0 then s
  else if kind = 1 then takeLink p payload s
  else if !(s.ports[p]).live then s
  else if h / 32 != (s.ports[p]).rxNext % 8 then badFlit p s
  else
    gotFlit p kind som eom payload (updPort p (fun x => { x with
      rxNext := (x.rxNext + 1) % 1024, rxfCnt := x.rxfCnt + 1, discarding := false, ackDue := true }) s)

/-- 16 bytes arrive while the port trains or carries flits. -/
def receive (p : PortId) (bytes : List Byte) (s : State) : State :=
  let x := s.ports[p]
  if bytes.length != 16 || !(x.carries || x.training) then s
  else if crcOk bytes then goodFlit p bytes s
  else badFlit p (updPort p (fun x => { x with crcCnt := x.crcCnt + 1 }) s)

/-- FLIT_RECEIVE (R301). -/
def execFlitReceive (p : PortId) (bytes : List Byte) (s : State) : Host.Outcome State Fault Refusal := .next (receive p bytes s)

/-- The flits that a port with LOOP = 1 has sent reach its own receiver (R315). -/
def loopBack (s : State) (p : PortId) : State :=
  (s.ports[p]).loopIn.foldl (fun t b => receive p b t) (updPort p (fun x => { x with loopIn := [] }) s)

-- timeouts (R310, R313, R321)

/-- HEARTBEAT_TIMEOUT (R321). -/
def execHeartbeatTimeout (p : PortId) (s : State) : Host.Outcome State Fault Refusal :=
  .next (if (s.ports[p]).live then dropPort p 2 s else secondCause p 2 s)

/-- RETRAIN_TIMEOUT (R313, R321). -/
def execRetrainTimeout (p : PortId) (s : State) : Host.Outcome State Fault Refusal :=
  .next (if (s.ports[p]).st == .retrain then dropPort p 4 s else secondCause p 4 s)

/-- A message that waits for its credits is of the exchange named. -/
def ofExchange (dst home : StnId) (tag : BitVec 16) (m : OutMsg) : Bool :=
  !m.started && u8 m.head 0 % 64 == dst.val && namesJob home.val tag m.head

/-- EXCHANGE_TIMEOUT (R310): the exchange ends; its job completes with LINK_TIMEOUT, or its home station is told. -/
def execExchangeTimeout (p : PortId) (dst home : StnId) (tag : BitVec 16) (s : State) : Host.Outcome State Fault Refusal :=
  let s := exoEvent p 64 (cutOut p (ofExchange dst home tag) s)
  if home != s.stn then .next (sendMsg home home tag (.timeout dst.val p.val) s)
  else match s.jobs.find? fun j => j.isHome && j.tag == tag with
  | none => .next s
  | some j => .next (endJob j.slot (linkTimeout dst.val p.val) (.cancel 0) s)

-- light (R317 to R320)

/-- Loss of light (R318, R321). -/
def goDark (p : PortId) (s : State) : State :=
  let x := s.ports[p]
  if x.loopOn then s
  else match x.st with
  | .active | .retrain => exoEvent p 2 (losePort p 1 .safe .dark s)
  | .relit | .train => exoEvent p 2 (updPort p (fun x => { x with st := .safe, tx := .dark }) (secondCause p 1 s))
  | .answer => updPort p (fun x => { x with st := .safe, tx := .dark }) s
  | .down | .safe | .loop => s

/-- LOSS_OF_LIGHT (R317, R318, R321): `pwr` is the received power. At −14 dBm or more the RX has light, and none is lost. -/
def execLossOfLight (p : PortId) (pwr : BitVec 16) (s : State) : Host.Outcome State Fault Refusal :=
  let lit := lightAt false pwr
  let s := updPort p (fun x => { x with light := lit, rxPwr := pwr }) s
  .next (if lit then s else goDark p s)

/-- PROBE (R319): one probe of 1 ms leaves the port, which stays in SAFE. -/
def execProbe (p : PortId) (s : State) : Host.Outcome State Fault Refusal :=
  .next (if (s.ports[p]).st == .safe then s.send (.probe p) else s)

/-- ANSWER (R320). -/
def execAnswer (p : PortId) (s : State) : Host.Outcome State Fault Refusal :=
  .next (updPort p (fun x => if x.st == .safe then { x with st := .answer, tx := .answer, light := true } else x) s)

/-- RELIT (R320). -/
def execRelit (p : PortId) (s : State) : Host.Outcome State Fault Refusal :=
  let x := s.ports[p]
  .next (if x.st == .safe || x.st == .answer then
    exoEvent p 4 (beginTrain p (updPort p (fun x => { x with st := .relit, tx := .full, light := true }) s)) else s)

-- training (R311 to R314)

/-- The wavelengths that a direction uses (R312): the 8 lowest good ones, or the 4 lowest; none below 4. -/
def useSet (m : BitVec 9) : Option (BitVec 9) :=
  let g := goodOnes m
  if g.length < 4 then none
  else some (BitVec.ofNat 9 (((if 8 ≤ g.length then g.take 8 else g.take 4).map (2 ^ ·)).sum))

/-- A set of four wavelengths: half width. -/
def halfSet (u : BitVec 9) : Bool := (goodOnes u).length == 4

/-- The set uses the spare: eight wavelengths, the last among them. -/
def spareSet (u : BitVec 9) : Bool := (goodOnes u).length == 8 && u.getLsbD 8

/-- Log entries of one direction (Table 19.5); no origin of R434 is that of a training, so the byte is free. -/
def logWave (p : PortId) (dir : Nat) (u : BitVec 9) (s : State) : State :=
  let put := fun (code : Byte) (b : List Byte) (s : State) => (logNow code (s.free 8) b s).tickFree
  let s := if spareSet u then put 7 [BitVec.ofNat 8 p.val, BitVec.ofNat 8 dir, 8] s else s
  if halfSet u then put 8 [BitVec.ofNat 8 p.val, BitVec.ofNat 8 dir] s else s

/-- Training from a state that was not ACTIVE sets sequence numbers and credits; a retrain keeps them (R311, R313). -/
def trained (x : Port) : Port := if x.st == .retrain then x else x.clear

/-- Training completes with the sets in use (R312, R314, R315); the scrambler seeds have been agreed anew (R296), so the draw
that stands for them is taken. -/
def portUp (p : PortId) (tu ru : BitVec 9) (serial : BitVec 64) (rtt freq : BitVec 16) (s : State) : State :=
  let old := s.ports[p]
  let half := halfSet tu || halfSet ru
  let at_ := s.freeCtr
  let s := updPort p (fun x => { trained x with
    st := if x.loopOn then .loop else .active, half := half, self := x.loopOn || serial == Config.dsn, txUse := tu, rxUse := ru
    rtt := rtt, freq := freq, slotN := 0, seedAt := at_, peer := none, lossNow := false }) s.tickFree
  let s := logWave p 1 ru (logWave p 0 tu s)
  let ev := b2n (!old.loopOn) * 8 + b2n (spareSet tu || spareSet ru) * 16 + b2n half * 32
  let s := if ev = 0 then s else exoEvent p (BitVec.ofNat 32 ev) s
  if old.st == .retrain then pump p (resend p (s.ports[p]).retry s) else s

/-- The difference of the two clocks is within 1,000 ppm (R297). -/
def freqOk (f : BitVec 16) : Bool := decide (-16000 ≤ f.toInt) && decide (f.toInt ≤ 16000)

/-- The set and serial number that the partner reports: by its TRAIN flits, else as the command gives them (log entry 80). -/
def Port.report (x : Port) (good : BitVec 9) (serial : BitVec 64) : BitVec 9 × BitVec 64 :=
  match x.peer with
  | some i => (i.good, i.serial)
  | none => (good, serial)

/-- TRAINING_DONE (R311 to R314): `txGood` is the set that the partner reports, `rxGood` this receiver's own, which the TRAIN
flits of step 4 report to the partner. -/
def execTrainingDone (p : PortId) (txGood rxGood : BitVec 9) (serial : BitVec 64) (rtt freq : BitVec 16) (s : State) :
    Host.Outcome State Fault Refusal :=
  let x := s.ports[p]
  if !x.training then .next s
  else
    let (tg, sn) := x.report txGood serial
    let s := sendTrain p rxGood s
    match useSet tg, useSet rxGood with
    | some tu, some ru =>
      if freqOk freq then .next (portUp p tu ru sn rtt freq s) else .next (inTrain p s)
    | _, _ => if x.st == .retrain then .next (dropPort p 5 s) else .next (inTrain p s)

/-- TRAIN_RETRY (R311): fewer than 4 wavelengths are good in a direction; the port stays in TRAIN and repeats the steps. -/
def execTrainRetry (p : PortId) (txGood rxGood : BitVec 9) (s : State) : Host.Outcome State Fault Refusal :=
  let x := s.ports[p]
  .next (if (x.st == .relit || x.st == .train) && ((useSet txGood).isNone || (useSet rxGood).isNone) then
    beginTrain p (inTrain p s) else s)

/-- WAVELENGTH_LOST (R313). -/
def execWavelengthLost (p : PortId) (k : Fin 9) (s : State) : Host.Outcome State Fault Refusal :=
  .next (if (s.ports[p]).rxUse.getLsbD k.val then enterRetrain p s else s)

-- EXO_PCTL (R315)

/-- A port that is enabled comes up: into SAFE, or to train against itself. -/
def portRise (p : PortId) (s : State) : State :=
  if (s.ports[p]).loopOn then beginTrain p (updPort p (fun x => { x with st := .train, tx := .dark }) s)
  else updPort p (fun x => { x with st := .safe, tx := .dark }) s

/-- A write of EN. -/
def writeEn (p : PortId) (v : Bool) (s : State) : State :=
  let x := s.ports[p]
  let s := updPort p (fun x => { x with en := v }) s
  if v then (if x.en || !s.isReady then s else portRise p s)
  else if x.carries then losePort p 6 .down .dark s
  else updPort p (fun x => { x with st := .down, tx := .dark }) (secondCause p 6 s)

/-- EN (R315). -/
def execEn (p : PortId) (v : Bool) (s : State) : Host.Outcome State Fault Refusal := .next (writeEn p v s)

/-- A write of LOOP. -/
def writeLoop (p : PortId) (v : Bool) (s : State) : State :=
  let x := s.ports[p]
  let s := updPort p (fun x => { x with loopOn := v }) s
  if x.loopOn == v then s
  else
    let s := if x.carries then losePort p 6 .safe .dark s else secondCause p 6 s
    if (s.ports[p]).st == .down then s else portRise p s

/-- LOOP (R315). -/
def execLoop (p : PortId) (v : Bool) (s : State) : Host.Outcome State Fault Refusal := .next (writeLoop p v s)

/-- PORT_RETRAIN (R313): ignored unless the port is ACTIVE. -/
def execPortRetrain (p : PortId) (s : State) : Host.Outcome State Fault Refusal := .next (enterRetrain p s)

end Sys2Proof.Machine
end

