-- ==== Sys2Proof/Machine/Cycle.lean ====
section
/-! DEFINITION. Machine/Cycle.lean: what one cycle without a command does for the whole block (log entries 1, 80). -/

namespace Sys2Proof.Machine

/-- What the charge held back starts when it admits it: inspections, and in a stage above 0 programs (R418, R442). -/
def startHeld (s : State) : State := startWaiting (if s.pwr.stage == 0 then s else scheduleAll allHives s)

/-- One cycle in which no command comes; flits on their way in internal loopback arrive first (R315). -/
def blockCycle (s : State) : State := startHeld (idleCycle ((List.finRange 4).foldl loopBack s))

end Sys2Proof.Machine
end

