-- ==== Sys2Proof/Machine/Bmc.lean ====
section
/-! DEFINITION. Machine/Bmc.lean: SMBus commands, the alert latch and the TAP (spec/23). -/

namespace Sys2Proof.Machine

/-- Give bytes on SMBus or TDO, or nothing. -/
def bmcOut (o : Option (List Byte)) (s : State) : State := { s with bmc := { s.bmc with out := o } }

/-- The part acknowledges its SMBus address: from the ROM stage onward (R508). The TAP works while the PLL is locked (R505). -/
def State.pllOn (s : State) : Bool := s.boot.stage != 0 && !s.boot.dark

/-- A Read Word of the part: low byte first (R509). -/
def smbWord (w : Nat) (s : State) : State := if s.pllOn then bmcOut (some (leBytes 2 w)) s else bmcOut none s

/-- CAP_ID. -/
def capId : Word := 0x4B960031

/-- CAP_BOOT. -/
def State.capBoot (s : State) : Word :=
  mkWord [(0, 4, s.boot.stage.toNat), (4, 2, s.boot.fwSrc.toNat), (8, 4, s.boot.rcode.toNat), (12, 4, s.boot.cause.toNat),
    (16, 7, s.boot.flags.toNat)]

/-- A rail is on (Table 18.1). -/
def State.railOn (s : State) (i : Nat) : Bool :=
  let p := s.pwr
  let down := p.st == .standby
  let cut := s.boot.thermtrip || s.boot.tripPend
  if i = 1 || i = 14 then true
  else if i = 15 || cut then false
  else if i = 0 || i = 10 || i = 11 || i = 13 then !down
  else if i = 12 then !(down || p.st == .stopping) && p.stage == 0
  else !(down || p.st == .stopping) && !p.held

/-- SMB_STATUS (R510): the read clears the alert latch. -/
def execSmbStatus (s : State) : Host.Outcome State Fault Refusal :=
  .next (if s.pllOn then
    smbWord (s.status.toNat + 128 * b2n s.isReady) { s with bmc := { s.bmc with alert := false } }
  else bmcOut none s)

/-- TEMP_CMP (R509). -/
def execTempCmp (tj : BitVec 16) (s : State) : Host.Outcome State Fault Refusal := .next (smbWord tj.toNat (putTj tj s))

/-- TEMP_PHX (R509). -/
def execTempPhx (temp : BitVec 16) (s : State) : Host.Outcome State Fault Refusal :=
  .next (smbWord temp.toNat { s with phx := { s.phx with temp := temp } })

/-- SMB_VIN_A_MV (R509). -/
def execSmbVinAMv (v : BitVec 16) (s : State) : Host.Outcome State Fault Refusal :=
  .next (smbWord v.toNat { s with pwr := { s.pwr with mvA := v } })

/-- SMB_VIN_A_MA (R509). -/
def execSmbVinAMa (v : BitVec 16) (s : State) : Host.Outcome State Fault Refusal :=
  .next (smbWord v.toNat { s with pwr := { s.pwr with maA := v } })

/-- SMB_VIN_B_MV (R509). -/
def execSmbVinBMv (v : BitVec 16) (s : State) : Host.Outcome State Fault Refusal :=
  .next (smbWord v.toNat { s with pwr := { s.pwr with mvB := v } })

/-- SMB_VIN_B_MA (R509). -/
def execSmbVinBMa (v : BitVec 16) (s : State) : Host.Outcome State Fault Refusal :=
  .next (smbWord v.toNat { s with pwr := { s.pwr with maB := v } })

/-- SMB_CHARGE (R413, R509). -/
def execSmbCharge (s : State) : Host.Outcome State Fault Refusal := .next (smbWord s.charge s)

/-- SMB_MEAS (R509). -/
def execSmbMeas (v : BitVec 12) (s : State) : Host.Outcome State Fault Refusal :=
  .next (smbWord v.toNat { s with pwr := { s.pwr with meas := v } })

/-- SMB_BOOT (R509). -/
def execSmbBoot (s : State) : Host.Outcome State Fault Refusal := .next (smbWord (fld s.capBoot 0 16) s)

/-- Change the telemetry of a rail. -/
def putRail (i : Fin 16) (f : BitVec 16 × BitVec 16 → BitVec 16 × BitVec 16) (s : State) : State :=
  { s with pwr := { s.pwr with rail := updAt s.pwr.rail i f } }

/-- SMB_RAIL_MV (R509): 0 while the rail is off, and for index 0xF. -/
def execSmbRailMv (i : Fin 16) (v : BitVec 16) (s : State) : Host.Outcome State Fault Refusal :=
  let v := if s.railOn i.val then v else 0
  .next (smbWord v.toNat (putRail i (fun r => (v, r.2)) s))

/-- SMB_RAIL_P (R509). -/
def execSmbRailP (i : Fin 16) (v : BitVec 16) (s : State) : Host.Outcome State Fault Refusal :=
  .next (smbWord v.toNat (putRail i (fun r => (r.1, v)) s))

/-- SMB_IDENT (Table 23.11): the twelve data bytes. -/
def execSmbIdent (s : State) : Host.Outcome State Fault Refusal :=
  .next (bmcOut (if s.pllOn then some (leBytes 4 capId.toNat ++ leBytes 8 Config.dsn.toNat) else none) s)

/-- The SMBus address (Table 23.5). -/
def State.smbAddr (s : State) : Byte := 0x58 + s.boot.straps.smbAddr.setWidth 8

/-- ALERT_RESPONSE (R510): `win` tells that the part wins the arbitration; without a latched alert it does not answer. -/
def execAlertResponse (win : Bool) (s : State) : Host.Outcome State Fault Refusal :=
  .next (if s.pllOn && s.bmc.alert && win then bmcOut (some [s.smbAddr]) { s with bmc := { s.bmc with alert := false } }
    else bmcOut none s)

/-- SMB_CLOCK_LOW_TIMEOUT (R508): the transaction is abandoned and the bus released. -/
def execSmbClockLowTimeout (s : State) : Host.Outcome State Fault Refusal := .next (bmcOut none s)

/-- A command code of Table 23.11. -/
def smbCode (c : Byte) : Bool :=
  (decide (1 ≤ c.toNat) && decide (c.toNat ≤ 10)) || (decide (16 ≤ c.toNat) && decide (c.toNat ≤ 48))

/-- SMB_OTHER_COMMAND (R509): a write, or a read of another code, is not acknowledged. -/
def execSmbOtherCommand (code : Byte) (isWrite : Bool) (s : State) : Host.Outcome State Fault Refusal :=
  .next (if isWrite || !smbCode code then bmcOut none s else s)

-- output balls

/-- Output balls of the CTL group (Table 23.4); TDO is driven by the TAP alone. -/
inductive OutPin
  | pgA
  | pgB
  | alarmN
  | thermtripN
  | ppsOut
  | smbAlertN
  deriving DecidableEq, Repr

/-- The level of an output ball in its function (Table 23.4, R409, R466, R507, R510); none: released. Until READY PPS_OUT is low
and SMB_ALERT_N is released. -/
def State.outPin (s : State) : OutPin → Option Bool
  | .pgA => some s.pwr.aGood
  | .pgB => some s.pwr.bGood
  | .alarmN => if s.alarmN then some false else none
  | .thermtripN => if s.boot.thermtrip then some false else none
  | .ppsOut => some (s.tb.ppsOut && s.isReady)
  | .smbAlertN => if s.bmc.alert && s.isReady then some false else none

-- TAP

/-- Select a TAP instruction; the pins return to their function unless it takes them. -/
def tapIr (ir : TapIr) (d : PinDrive) (o : Option (List Byte)) (s : State) : State :=
  if s.pllOn then { s with bmc := { s.bmc with tap := ir, drive := d, out := o } } else s

/-- BYPASS (R504). -/
def execBypass (s : State) : Host.Outcome State Fault Refusal := .next (tapIr .bypass .function none s)

/-- IDCODE (R504): 0x14B9_684D is shifted out. -/
def execIdcode (s : State) : Host.Outcome State Fault Refusal :=
  .next (tapIr .idcode .function (some (leBytes 4 0x14B9684D)) s)

/-- SAMPLE_PRELOAD (R504): the pins are sampled, and the boundary register is loaded when bits are shifted in. -/
def execSamplePreload (pins : List Bool) (preload : Option (List Bool)) (s : State) : Host.Outcome State Fault Refusal :=
  let t := tapIr .samplePreload .function (some (pins.map fun b => BitVec.ofNat 8 (b2n b))) s
  .next (if s.pllOn then { t with bmc := { t.bmc with boundary := preload.getD pins } } else t)

/-- An instruction that takes the pins only while RESET_N is low, and otherwise acts as BYPASS (R505). -/
def tapPins (ir : TapIr) (d : PinDrive) (s : State) : State :=
  if s.boot.resetLow then tapIr ir d none s else tapIr .bypass .function none s

/-- EXTEST (R505). -/
def execExtest (s : State) : Host.Outcome State Fault Refusal := .next (tapPins .extest .boundary s)

/-- CLAMP (R505). -/
def execClamp (s : State) : Host.Outcome State Fault Refusal := .next (tapPins .clamp .held s)

/-- HIGHZ (R505). -/
def execHighz (s : State) : Host.Outcome State Fault Refusal := .next (tapPins .highz .floating s)

/-- TAP_RESET (R505): Test-Logic-Reset selects IDCODE and releases the pins. -/
def execTapReset (s : State) : Host.Outcome State Fault Refusal :=
  .next { s with bmc := { s.bmc with tap := .idcode, drive := .function } }

end Sys2Proof.Machine
end

