-- ==== Sys2Proof/Machine/Power.lean ====
section
/-! DEFINITION. Machine/Power.lean: inputs, switchover, shed stages, hold, orderly stop and return (spec/18). -/

namespace Sys2Proof.Machine

/-- PWR_EVT. -/
def pwrEvent (w : Word) (s : State) : State := postEvent .pwr w s

/-- Hives that run a program of a class. -/
def State.runsOfClass (s : State) (cls : Nat) : Nat :=
  (allHives.filter fun h => match (s.hv h).run with | some p => p.cls == cls | none => false).length

/-- L of a shed stage in tenths of a watt (Tables 18.2 and 18.3; log entry 30). -/
def State.stageLoad (s : State) (stage : Nat) : Nat :=
  let ext := if allBanks.any (fun b => (s.phx.bank[b]).en) then 240 else 0
  let all := 480 + 32 * s.runHives
  match stage with
  | 0 => all + ext
  | 1 => all
  | 2 => all - 32 * s.runsOfClass 0
  | 3 => all - 32 * (s.runsOfClass 0 + s.runsOfClass 1)
  | 4 => all - 32 * (s.runsOfClass 0 + s.runsOfClass 1 + s.runsOfClass 2)
  | 5 => 480
  | _ => 120

/-- The smallest stage whose load the budget carries (R415). -/
def State.pickStage (s : State) : Nat := ((List.range 6).find? fun k => decide (s.stageLoad k ≤ s.budget)).getD 6

/-- Ask every hive that runs a program of a shed class for a stop (R417); a sealed job is paused under R389. -/
def shedStops : List HiveId → State → State
  | [], s => s
  | h :: r, s =>
    match (s.hv h).run with
    | some p =>
      if s.classShed p.cls && !((s.hv h).stops.contains .shed) then
        let w : StopWhy := if ((s.job? p.slot).map (·.sealed)).getD false then .seal else .shed
        shedStops r (askStop h w s)
      else shedStops r s
    | none => shedStops r s

/-- Every bank enters SHED (R416). -/
def shedBanks (s : State) : State :=
  { s with phx := { s.phx with bank := s.phx.bank.map fun x => { x with st := .shed, relocking := false, thermal := false, wasShed := x.wasShed || x.en } } }

/-- Every bank leaves SHED (R426): OFF, and an enabled one calibrates. -/
def unshedBanks (s : State) : State :=
  startCals allBanks { s with phx := { s.phx with bank := s.phx.bank.map fun x => if x.st == .shed then { x with st := .off } else x } }

/-- Rails that come back start at OVS0 (R412). -/
def railsBack (s : State) : State :=
  { s with
    freeCtr := s.freeCtr + 8
    ovs := { s.ovs with row := Vector.ofFn fun (r : RowId) =>
      { s.ovs.row[r] with level := 0, slew := false, stormUp := false, volt := s.settledMv 0 r.val } } }

/-- Leave the hold of stage 6 (R426). -/
def leaveHold (s : State) : State :=
  if s.pwr.held then railsBack { s with pwr := { s.pwr with held := false }, sup := { s.sup with selfRefresh := false } } else s

/-- Put a stage in force (R415 to R418). -/
def setStage (k : Nat) (s : State) : State :=
  let was := s.pwr.stage
  let s := { s with pwr := { s.pwr with stage := k } }
  let s := if k < 6 then leaveHold s else s
  let s := if was = 0 && k != 0 then shedBanks s else if was != 0 && k = 0 then unshedBanks s else s
  if was < k then shedStops allHives s else startPf0 (startWaiting (scheduleAll allHives s))

/-- A hive on which a job's work lies; which one, when there are several, is not stated (log entry 32). -/
def State.someHive (s : State) (slot : Nat) : Option HiveId :=
  let l := s.hivesWith slot
  if l.isEmpty then none else l[(s.free 8).toNat % l.length]?

/-- One job of an orderly stop (R421, R422). -/
def stopJob (slot : Nat) (s : State) : State :=
  match s.job? slot with
  | none => s
  | some j =>
    match (if j.sealed then s.someHive slot else none) with
    | some h => abortSealed h slot s.tickFree
    | none => killJob slot { code := .powerShed } s

/-- Step 3 of Table 18.4. -/
def standbyDown (s : State) : State :=
  { s with
    cols := s.cols.map fun c => { c with r := { c.r with sq := c.r.sq.map fun q => { q with en := false } } }
    host := { s.host with link := {}, forager := s.host.forager.map fun f => { f with en := false, halting := false, cur := none, st := .idle } }
    sup := { s.sup with mem := [], ue := [], selfRefresh := false }
    ports := s.ports.map fun p => { p with st := .down, tx := .dark }
    pwr := { s.pwr with st := .standby, held := false } }

/-- The orderly stop (R421, Table 18.4). -/
def orderlyStop (s : State) : State :=
  let s := { s with pwr := { s.pwr with st := .stopping, stops := satInc s.pwr.stops } }
  let s := latchAlert (pwrEvent 16 s)
  let s := shedBanks s
  latchAlert (standbyDown (transmitAll (onSlots stopJob s.slots s)))

/-- Shed or stop after a switchover (R415). -/
def shedOrStop (s : State) : State := if s.budget < 120 then orderlyStop s else setStage s.pickStage s

/-- RIDE (R423). -/
def rideNow (s : State) : State :=
  latchAlert (setStage 6 (pwrEvent 8 { s with pwr := { s.pwr with st := .ride, closing := false } }))

/-- The part draws from VIN_A and works on it, or has lost it. -/
def PwrSt.onA (p : PwrSt) : Bool := !p.srcB && (p.st == .main || p.st == .backup)

/-- VIN_A_FAIL (R409, R410, R423 to R425). -/
def execVinAFail (s : State) : Host.Outcome State Fault Refusal :=
  let p := s.pwr
  let s := { s with pwr := { p with aGood := false, resume := false } }
  .next (latchAlert (
    if p.onA then (if p.bGood then { s with pwr := { s.pwr with closing := true } } else rideNow s)
    else if p.st == .ride && p.bGood then { s with pwr := { s.pwr with st := .backup, srcB := true } }
    else s))

/-- VIN_B_FAIL (R423, R425): B_LOST; RIDE when it carried the load and VIN_A is not good, else the load is on VIN_A. -/
def execVinBFail (s : State) : Host.Outcome State Fault Refusal :=
  let p := s.pwr
  let s := pwrEvent 4 { s with pwr := { p with bGood := false } }
  .next (latchAlert (
    if p.closing then rideNow s
    else if p.st == .backup && p.srcB then
      (if p.aGood then { s with pwr := { s.pwr with srcB := false } } else rideNow s)
    else s))

/-- SWITCHOVER (R410, R415): the VIN_B path closes. -/
def execSwitchover (s : State) : Host.Outcome State Fault Refusal :=
  if !s.pwr.closing || !s.pwr.bGood then .next s
  else
    let s := { s with pwr := { s.pwr with closing := false, st := .backup, srcB := true, switches := satInc s.pwr.switches } }
    .next (latchAlert (shedOrStop (pwrEvent 1 s)))

/-- Claimed hives with sealed work that no save set holds, with the job of each. -/
def State.cutSealed (s : State) : List (HiveId × Nat) :=
  allHives.flatMap fun h => if (s.hv h).claimed then
      ((s.workOn h).filter fun n => ((s.job? n).map (·.sealed)).getD false).map fun n => (h, n)
    else []

/-- Abort the sealed jobs whose hives lose their rail (R393, R420). -/
def cutAborts : List (HiveId × Nat) → State → State
  | [], s => s
  | (h, n) :: r, s => cutAborts r (if (s.job? n).isSome then abortSealed h n s else s)

/-- HOLD_ENTER (R420): the shed stops have been reached in stage 6. -/
def execHoldEnter (s : State) : Host.Outcome State Fault Refusal :=
  if s.pwr.stage != 6 || s.pwr.held || allHives.any (fun h => match (s.hv h).run with | some p => s.classShed p.cls | none => false) then
    .next s
  else
    let s := { s with pwr := { s.pwr with held := true }, sup := { s.sup with selfRefresh := true } }
    .next (cutAborts s.cutSealed s)

/-- RETURN_TO_MAIN (R425, R426): VIN_A has been good for 100 ms. -/
def execReturnToMain (s : State) : Host.Outcome State Fault Refusal :=
  if !(s.pwr.st == .backup || s.pwr.st == .ride) || !s.pwr.aGood || !s.pwr.resume then .next s
  else
    let s := setStage 0 { s with pwr := { s.pwr with st := .main, srcB := false, resume := false } }
    .next (latchAlert (pwrEvent 2 s))

/-- BUDGET_WRITE (R414, R421, R428). -/
def execBudgetWrite (v : Word) (s : State) : Host.Outcome State Fault Refusal :=
  let b := fld v 0 7
  if 0x5F < b then .next s
  else
    let s := { s with pwr := { s.pwr with bkup := BitVec.ofNat 7 b } }
    if s.pwr.st != .backup then .next s
    else if s.budget < 120 then .next (if s.pwr.srcB then orderlyStop s else s)
    else if s.pickStage = s.pwr.stage then .next s
    else .next (pwrEvent 32 (setStage s.pickStage s))

end Sys2Proof.Machine
end

