-- ==== Sys2Proof/Machine/Repair.lean ====
section
/-! DEFINITION. Machine/Repair.lean: inspections, retirements, map records, and comb store rows (spec/19, R235). -/

namespace Sys2Proof.Machine

/-- INSPECTION_PERIODIC (R442): the next idle physical hive of a row's round. -/
def execInspectionPeriodic (row pcol : Nat) (s : State) : Host.Outcome State Fault Refusal :=
  .next (if s.rpr.period != 0 && s.pwr.stage == 0 && decide (row < 8) && s.nextInsp row == some pcol then
    startInsp row pcol .periodic none { s with rpr := { s.rpr with inspNext := s.rpr.inspNext.set row ((pcol + 1) % 13) } }
  else s)

/-- INSPECTION_GO (R442): TARGET is written with GO = 1, which is ignored while it reads 1; a reserved target starts
nothing. -/
def execInspectionGo (v : BitVec 7) (s : State) : Host.Outcome State Fault Refusal :=
  if s.rpr.inspGo || 0x68 ≤ v.toNat then .next { s with rpr := { s.rpr with inspTarget := v } }
  else .next (startPf0 { s with rpr := { s.rpr with inspTarget := v, inspGo := true } })

/-- Comb and lane of a finding for the log (Table 19.5); with no finding no comb is stated (log entry 36). -/
def findPlace (s : State) : List MapEnt → List Byte
  | [] => [s.free 8, 0xFF, 0xFF]
  | e :: _ => if e.ty == 3 then [e.b4, e.b6, e.b7] else [e.b4, 0xFF, 0xFF]

/-- Log code 0x09. -/
def logInsp (res cause row pcol : Nat) (ents : List MapEnt) (s : State) : State :=
  let b := [BitVec.ofNat 8 row, BitVec.ofNat 8 pcol, BitVec.ofNat 8 cause] ++ findPlace s ents
  logWith 9 (BitVec.ofNat 8 res) b (if ents.isEmpty then s.tickFree else s)

/-- Release the programs that an inspection kept paused. -/
def unpauseInsp (h : Option HiveId) (s : State) : State :=
  match h with
  | none => s
  | some h => schedule h (updHive h (fun hv => { hv with wait := hv.wait.map (releaseFrom .inspect) }) s)

/-- An inspection of a physical hive has ended FAIL. -/
def inspFail (i : Insp) (cause : Nat) (ents : List MapEnt) (s : State) : State :=
  let s := inspResult 2 cause i.target (logInsp 2 cause i.row i.pcol ents s)
  unpauseInsp i.held (saveMap (hiveFails i.row i.pcol cause 2 s))

/-- An inspection has found faults that spares cover (R445). -/
def inspRepaired (i : Insp) (ents : List MapEnt) (s : State) : State :=
  let s := addAll ents (logInsp 1 0 i.row i.pcol ents s)
  unpauseInsp i.held (saveMap (rprEvent 4 (inspResult 1 0 i.target s)))

/-- The entries of an inspection's findings: cells and lanes of the hive under inspection, with origin 0x2 (R445). -/
def Insp.entries (i : Insp) (es : List MapEnt) : List MapEnt :=
  (es.map fun e => { e with org := 2, b2 := BitVec.ofNat 8 i.row, b3 := BitVec.ofNat 8 i.pcol }).filter fun e =>
    (e.ty == 2 || e.ty == 3) && entElement e

/-- What the test of an inspection found counts as (R436, R446). -/
def inspEnd (i : Insp) (f : InspFound) (s : State) : State :=
  let ents := match f with
    | .repaired e => withCells s.rpr.map (i.entries e)
    | .fail _ e => i.entries e
    | _ => []
  match i.why with
  | .slab => inspFail i 5 ents s
  | .rows => inspFail i 4 ents s
  | _ =>
    match f with
    | .pass => unpauseInsp (s.hosted i.row i.pcol) (inspResult 0 0 i.target s)
    | .aborted => unpauseInsp (s.hosted i.row i.pcol) (inspResult 3 0 i.target s)
    | .repaired _ => if thirdCell s.rpr.map ents then inspFail i 1 ents s else inspRepaired i ents s
    | .fail cause _ => inspFail i cause.toNat ents s

/-- INSPECTION_DONE (R445, R446): the inspection of a row ends; a persistent-slab or rows-exhausted one is never abandoned
(R443). -/
def execInspectionDone (row : RowId) (f : InspFound) (s : State) : Host.Outcome State Fault Refusal :=
  match s.rpr.insp.find? fun i => i.row == row.val with
  | none => .next s
  | some i =>
    if f == .aborted && (i.why == .slab || i.why == .rows) then .next s
    else
    let s := { s with rpr := { s.rpr with
      insp := s.rpr.insp.filter fun x => x.row != row.val, inspGo := if i.why == .pf0 then false else s.rpr.inspGo } }
    .next (startPf0 (startWaiting (inspEnd i f s)))

/-- Serve the failures that waited for a row, in their order: the hive that the failed host now has becomes barren (R451; log
entry 35). -/
def serveFails : List Retire → State → State
  | [], s => s
  | r :: t, s =>
    serveFails t (match s.hosted r.row r.pcol with
      | some h => if (s.hv h).barren then s else makeBarren h r.org s
      | none => s)

/-- What the scrubber has found in rows of a host stays with the host: each moving hive has its right neighbour's host now, the
last one the spare (R235, R447). -/
def moveRows : List HiveId → State → State
  | [], s => s
  | h :: r, s =>
    let q := match r with
      | g :: _ => ((s.hv g).csQueue, (s.hv g).csSeen)
      | [] => ([], [])
    moveRows r (updHive h (fun hv => { hv with csQueue := q.1, csSeen := q.2 }) s)

/-- The hosts of a retirement have moved (R447, R448, R451). -/
def finishRetire (r : Retire) (s : State) : State :=
  let bits : BitVec 96 := BitVec.ofNat 96 ((r.moving.map fun h => 2 ^ h.val).sum)
  let s := { s with rpr := { s.rpr with
    retire := s.rpr.retire.filter fun x => x.row != r.row, onSpare := s.rpr.onSpare ||| bits, pcol := hostCols s.rpr.map } }
  let s := scheduleAll r.moving (rprEvent 1 (moveRows r.moving s))
  let q := s.rpr.failQ.filter fun x => x.row == r.row
  serveFails q { s with rpr := { s.rpr with failQ := s.rpr.failQ.filter fun x => x.row != r.row } }

/-- RETIREMENT_DONE (R447, R448): every moving hive has stopped and its state is copied. -/
def execRetirementDone (row : RowId) (s : State) : Host.Outcome State Fault Refusal :=
  match s.rpr.retire.find? fun r => r.row == row.val with
  | none => .next s
  | some r =>
    if r.moving.any (fun h => (s.hv h).run.isSome || !((s.hv h).wait.all fun p => p.paused != some .seal)) then .next s
    else .next (finishRetire r s)

/-- Write log entries into the ring. -/
def logAll : List (List Byte) → RprSt → RprSt
  | [], r => r
  | b :: t, r => logAll t (logPut b r)

/-- GEN of the map record in force. -/
def RprSt.gen (r : RprSt) : Nat :=
  match r.mapSrc.toNat with
  | 1 => (r.m0.map (·.gen)).getD 0
  | 2 => (r.m1.map (·.gen)).getD 0
  | _ => 0

/-- A map record becomes complete (R433, R454). -/
def commitMap (r : RprSt) : RprSt :=
  let rec' : MapRec := { gen := r.gen + 1, ents := r.writing }
  let r := if r.nextM1 then { r with m1 := some rec', mapSrc := 2 } else { r with m0 := some rec', mapSrc := 1 }
  let r := logAll r.logWriting r
  kickMap { r with wrBusy := false, writing := [], logWriting := [] }

/-- MAP_RECORD_COMMIT (R433). -/
def execMapRecordCommit (s : State) : Host.Outcome State Fault Refusal :=
  .next (if s.rpr.wrBusy then { s with rpr := commitMap s.rpr } else s)

/-- CLEAR_FIELD (R452). -/
def execClearField (s : State) : Host.Outcome State Fault Refusal :=
  .next { s with rpr := { s.rpr with clearPend := true } }

/-- Rows whose third pass with corrected errors this is, and the counts after it (R235). -/
def scrubRows : List Nat → List (Nat × Nat) → List Nat × List (Nat × Nat)
  | [], t => ([], t)
  | r :: rs, t =>
    let n := tabGet 0 t r + 1
    let rest := scrubRows rs (tabSet 0 t r (if n < 3 then n else 0))
    (if n < 3 then rest.1 else r :: rest.1, rest.2)

/-- What one pass of the scrubber found in a hive (R235): a row is queued for an uncorrectable error, or for corrected
errors in three different passes. -/
def scrubOne (f : ScrubFind) (s : State) : State :=
  let s := if f.corrected = 0 then s else cntHive f.hive 8 f.corrected s
  updHive f.hive (fun hv =>
    let third := scrubRows (f.rows.filter (· < 1536)).eraseDups hv.csSeen
    { hv with
      csUe := (hv.csUe ++ f.uncorrectable.filter (· < 196608)).eraseDups
      csSeen := third.2
      csQueue := (hv.csQueue ++ third.1 ++ (f.uncorrectable.filter (· < 196608)).map (· / 128)).eraseDups }) s

/-- `scrubOne` for several hives. -/
def scrubFound : List ScrubFind → State → State
  | [], s => s
  | f :: r, s => scrubFound r (scrubOne f s)

/-- COMB_STORE_SCRUB (R235): a pass of the scrubber over the hives; rows are queued for remapping. -/
def execCombStoreScrub (found : List ScrubFind) (s : State) : Host.Outcome State Fault Refusal := .next (scrubFound found s)

/-- CSROW_REMAP (R235, R437, R442): the oldest queued row of an idle hive moves to a spare row; without one the hive is
inspected. -/
def execCsrowRemap (h : HiveId) (s : State) : Host.Outcome State Fault Refusal :=
  match (s.hv h).csQueue with
  | [] => .next s
  | row :: rest =>
    let r := h.val / 12
    let pc := s.rpr.pcol.getD h.val 0
    if !s.idleHive h then .next s
    else if s.rowsUsed r pc < 64 then
      let s := updHive h (fun hv => { hv with csQueue := rest }) s
      .next (saveMap (rprEvent 8 (addLogged { ty := 4, org := 3, b2 := BitVec.ofNat 8 r, b3 := BitVec.ofNat 8 pc
                                              b4 := BitVec.ofNat 8 row, b5 := BitVec.ofNat 8 (row / 256) } s)))
    else .next (wantInsp h .rows s)

end Sys2Proof.Machine
end

