-- ==== Sys2Proof/Machine/Boot.lean ====
section
/-! DEFINITION. Machine/Boot.lean: cold and warm resets, boot, RECOVERY, queen fault and thermal trip (spec/20), with the
rows of power and clock that lead to a reset (R394, R409, R424, R427). -/

namespace Sys2Proof.Machine

-- what a reset keeps (Table 20.2, R458)

/-- The final record of a full commit completes (R458, Table 8.5). -/
def commitCompletes (s : State) : State :=
  match s.wax.st, s.wax.staged with
  | .committing, some x => if x.partialImg then s else putCommit (commitOf s x.slotB x.img.signed x.bytes) s
  | _, _ => s

/-- The map record that is being written completes (R458). -/
def mapCompletes (r : RprSt) : RprSt := if r.wrBusy then commitMap { r with dirty := false } else r

/-- Brood store writes in progress when a reset arrives. -/
def flashCompletes (s : State) : State :=
  let s := keyCompletes (commitCompletes s)
  { s with rpr := mapCompletes s.rpr }

/-- The Guard as its fuses and its brood store records leave it. -/
def keptGuard (g : GuardSt) : GuardSt :=
  { lc := g.lc, drk := g.drk, drkBlank := g.drkBlank, recA := g.recA, recB := g.recB, log := g.log }

/-- The wax part of the brood store. -/
def keptWax (w : WaxSt) : WaxSt :=
  { slotA := w.slotA, slotB := w.slotB, secX := w.secX, secY := w.secY, none_ := true }

/-- The supers: a warm reset keeps what lies outside the system region. -/
def keptSup (cold : Bool) (x : SupSt) : SupSt :=
  if cold then { ppr := x.ppr }
  else { mem := tabClear x.mem 0 0x4000000, ue := x.ue.filter (fun a => decide (0x4000000 ≤ a)), ppr := x.ppr }

/-- The timebase, its state and its trim; the TB registers return to reset. -/
def keptTb (cold : Bool) (t : TbSt) : TbSt :=
  if cold then {} else { sec := t.sec, sub := t.sub, ftrim := t.ftrim, st := t.st, acq := t.acq, badrun := t.badrun, slew := t.slew
                         phase := t.phase, slewPhase := t.slewPhase }

/-- The inputs and the load's place, and PWR_CNT on a warm reset. A part in STANDBY powers up. -/
def keptPwr (cold : Bool) (p : PwrSt) : PwrSt :=
  let down := p.st == .standby || p.st == .stopping
  { st := if down then (if p.aGood then .main else .backup) else p.st
    stage := if down then 0 else p.stage, held := if down then false else p.held
    aGood := p.aGood, bGood := p.bGood, closing := p.closing, srcB := if down then !p.aGood else p.srcB
    resume := if down then false else p.resume
    switches := if cold then 0 else p.switches, stops := if cold then 0 else p.stops }

/-- The repair map's records and log. -/
def keptRpr (r : RprSt) : RprSt :=
  { factory := r.factory, m0 := r.m0, m1 := r.m1, clearPend := r.clearPend, log := r.log, logHead := r.logHead }

/-- A cold or warm reset with a cause (R455 to R457): every register and memory that Table 20.2 does not keep returns to its
reset value; a cold reset restarts at stage PLL, a warm one at stage ROM (R456: a warm trigger during a cold boot keeps the
work of a cold boot, log entry 47). -/
def resetPart (cold : Bool) (cause : BitVec 4) (s : State) : State :=
  let b := s.boot
  let s := flashCompletes s
  latchAlert {
    pending := s.pending, resp := s.resp, tx := s.tx, wired := s.wired, txFloor := s.tx.length, freeCtr := s.freeCtr
    guard := keptGuard s.guard, wax := keptWax s.wax, sup := keptSup cold s.sup, tb := keptTb cold s.tb
    phx := { tempHold := s.phx.tempHold, temp := s.phx.temp }, ovs := { hot := s.ovs.hot }
    pwr := keptPwr cold s.pwr, rpr := keptRpr s.rpr
    boot := { stage := if cold || b.stage = 0 then 0 else 1, cause := cause
              fwSrc := if cold then 0 else b.fwSrc, rcode := if cold then 0 else b.rcode
              flags := if cold then 0 else b.flags, us := if cold then 0 else b.us
              cold := cold || (b.cold && b.stage != 6 && b.stage != 7)
              resetLow := b.resetLow, perstLow := b.perstLow, straps := b.straps }
    bmc := { status := 0x7F, tap := s.bmc.tap, drive := s.bmc.drive, boundary := s.bmc.boundary, out := s.bmc.out } }

/-- A cold reset. -/
def coldReset (cause : BitVec 4) (s : State) : State := resetPart true cause s

/-- A warm reset. -/
def warmReset (cause : BitVec 4) (s : State) : State := resetPart false cause s

/-- No reset or boot can run: power is lost, or a thermal trip holds the rails down. -/
def State.noBoot (s : State) : Bool := s.boot.dark || s.boot.thermtrip || s.boot.tripPend

/-- RESET_N (R455): low for 1 µs. -/
def execResetN (s : State) : Host.Outcome State Fault Refusal :=
  let s := { s with boot := { s.boot with resetLow := true } }
  .next (if s.noBoot then s else coldReset 2 s)

/-- PLL_LOCK_LOSS (R394). -/
def execPllLockLoss (s : State) : Host.Outcome State Fault Refusal := .next (if s.noBoot then s else coldReset 3 s)

/-- PERST_N (R455). -/
def execPerstN (s : State) : Host.Outcome State Fault Refusal :=
  let s := { s with boot := { s.boot with perstLow := true } }
  .next (if s.noBoot then s else warmReset 8 s)

/-- LINK_HOT_RESET (R455): a link that is up meets a hot reset or DL_Down, or one that was lost by surprise. -/
def execLinkHotReset (s : State) : Host.Outcome State Fault Refusal :=
  .next (if s.noBoot || !(s.host.link.up || s.host.link.lost) then s else warmReset 9 s)

/-- A request reaches CAP_RST: READY or RECOVERY (R460, R463). -/
def State.capAnswers (s : State) : Bool := s.isReady || s.boot.stage == 7

/-- WARM (R455): PF0 writes CAP_RST.WARM. -/
def execWarm (s : State) : Host.Outcome State Fault Refusal :=
  .next (if s.noBoot || !s.capAnswers then s else warmReset 0xA s)

/-- COLD (R455): PF0 writes CAP_RST.COLD. -/
def execCold (s : State) : Host.Outcome State Fault Refusal :=
  .next (if s.noBoot || !s.capAnswers then s else coldReset 5 s)

/-- RCV_GO (R463): `ok` tells that the image at BAR2 offset 0 verifies. -/
def execRcvGo (ok : Bool) (s : State) : Host.Outcome State Fault Refusal :=
  if s.boot.stage != 7 || s.boot.rcode == 2 then .next s
  else if ok then .next (coldReset 5 s)
  else .next { s with boot := { s.boot with rcode := 3 } }

-- power and clock

/-- An input becomes good (R409): power-up from no power, RIDE to BACKUP (R424), or the count of R425 and R427. -/
def execVinGood (i : Supply) (s : State) : Host.Outcome State Fault Refusal :=
  let a := i == .a
  let s := { s with pwr := { s.pwr with aGood := s.pwr.aGood || a, bGood := s.pwr.bGood || !a } }
  if s.boot.dark then
    let s := { s with
      boot := { s.boot with dark := false, tripPend := false }
      pwr := { s.pwr with st := if a then .main else .backup, srcB := !a, stage := 0, held := false, resume := false } }
    .next (coldReset (if s.boot.cause = 4 then 4 else 1) s)
  else if a then
    let p := s.pwr
    .next (if p.st == .main then s
      else latchAlert { s with pwr := { p with resume := true, srcB := if p.st == .ride then false else p.srcB } })
  else if s.pwr.st == .ride && !s.pwr.aGood then
    .next (latchAlert { s with pwr := { s.pwr with st := .backup, srcB := true } })
  else .next s

/-- STANDBY_RETURN (R427): VIN_A has been good for 100 ms. -/
def execStandbyReturn (s : State) : Host.Outcome State Fault Refusal :=
  .next (if s.pwr.st == .standby && s.pwr.aGood && s.pwr.resume then warmReset 0xB s else s)

/-- A burn of the root key that loses its power leaves fuses that fail their check (spec/16). -/
def burnLost (g : GuardSt) : GuardSt :=
  if g.busy && g.op == 6 && g.verdict.isNone && g.drawn.isSome then { g with drk := none, drkBlank := false } else g

/-- POWER_LOSS (R424, R433, R379, Table 8.5): the hold-up no longer carries VAON; what is being written stays incomplete.
The part stays dark until an input becomes good. -/
def execPowerLoss (s : State) : Host.Outcome State Fault Refusal :=
  if !(s.pwr.st == .ride || s.pwr.st == .standby) then .next s
  else
    let trip := s.boot.thermtrip || s.boot.tripPend
    let s := { s with
      guard := burnLost { s.guard with busy := s.guard.busy && s.guard.op == 6 }
      wax := { s.wax with st := .idle }, rpr := { s.rpr with wrBusy := false } }
    let t := coldReset (if trip then 4 else 1) s
    .next { t with
      boot := { t.boot with dark := true, thermtrip := false, tripPend := false, straps := {} }
      pwr := { aGood := false, bGood := false } }

/-- PLL_LOCK (R394, R496): boot starts; a cold boot samples the straps. -/
def execPllLock (straps : Straps) (s : State) : Host.Outcome State Fault Refusal :=
  if s.boot.stage != 0 || s.noBoot then .next s
  else .next { s with boot := { s.boot with stage := 1, straps := if s.boot.cold then straps else s.boot.straps } }

-- boot stages (R459)

/-- Set a bit of the flags of the boot in progress. -/
def bootFlag (i : Nat) (on : Bool) (s : State) : State :=
  if on then { s with boot := { s.boot with newFlags := s.boot.newFlags ||| BitVec.ofNat 7 (2 ^ i) } } else s

/-- Enter a stage. -/
def bootStage (k : BitVec 4) (s : State) : State := { s with boot := { s.boot with stage := k } }

/-- CAP_BOOT is rewritten at the end of a boot. -/
def bootEnds (k : BitVec 4) (rcode : BitVec 4) (us : BitVec 24) (s : State) : State :=
  { s with boot := { s.boot with
      stage := k, rcode := rcode, fwSrc := s.boot.newSrc, flags := s.boot.newFlags, us := us, pcie := !s.boot.perstLow } }

/-- ROM: the fuses are read and the root key is checked (R370); the boot goes on once RESET_N is high. -/
def romDone (i : BootInfo) (s : State) : State :=
  let g := s.guard
  let bad := !g.drkBlank && !(i.drkOk && g.drk.isSome)
  let g := { g with keysValid := i.drkOk && g.drk.isSome, locked := g.lc == 3 }
  let s := { s with guard := g, boot := { s.boot with resetLow := false, newFlags := 0, newSrc := 0 } }
  bootStage 2 (bootFlag 2 bad { s with bmc := { s.bmc with drive := .function } })

/-- FW: copy A, else copy B, else RECOVERY (R462). -/
def fwDone (i : BootInfo) (s : State) : State :=
  let s := bootFlag 6 i.flashWait (bootFlag 0 (!i.fwA) s)
  if i.fwA then bootStage 3 s
  else if i.fwB then bootStage 3 { s with boot := { s.boot with newSrc := 1 } }
  else bootEnds 7 1 0 { s with boot := { s.boot with newSrc := 3 } }

/-- GUARD: key records are read, the link controller is released (R377, R460). -/
def guardDone (i : BootInfo) (s : State) : State :=
  let g := { s.guard with inForce := s.guard.pick }
  let s := { s with guard := { g with updateLost := g.lostUpdate }, boot := { s.boot with pcie := !s.boot.perstLow } }
  let s := bootFlag 6 i.flashWait s
  bootStage 4 (if s.guard.updateLost then raise .pf0 0 s else s)

/-- The map record in force at boot: M1 when it alone is there or is newer. -/
def RprSt.pick (r : RprSt) : BitVec 2 :=
  match r.m0, r.m1 with
  | none, none => 0
  | some _, none => 1
  | none, some _ => 2
  | some a, some b => if a.gen < b.gen then 2 else 1

/-- Entries of a record. -/
def RprSt.entsOf (r : RprSt) (src : BitVec 2) : List MapEnt :=
  match src.toNat with
  | 1 => (r.m0.map (·.ents)).getD []
  | 2 => (r.m1.map (·.ents)).getD []
  | _ => []

/-- The map record is read; without one the boot goes on with MAP_LOST (R441); a pending CLEAR_FIELD acts at a cold boot
(R452). -/
def bootMap (s : State) : State :=
  let src := s.rpr.pick
  let s := { s with rpr := { s.rpr with mapSrc := src, field := s.rpr.entsOf src } }
  let s := if src = 0 then bootFlag 3 true (rprEvent 16 (logWith 11 1 [0, 0, 0, 0] s)) else s
  if s.boot.cold && s.rpr.clearPend then
    rprEvent 128 (logWith 12 0 [] { s with rpr := { s.rpr with clearPend := false, field := [], dirty := true } })
  else s

/-- Queued post-package repairs are performed at a cold boot (R236), each with a log entry. -/
def bootPpr (s : State) : State :=
  if s.boot.cold && !s.sup.ppr.isEmpty then
    let t := s.sup.ppr.foldl (fun t a => logNow 10 0 (BitVec.ofNat 8 (natBits a 8 1) :: Config.argBytes 257 0 [a]) t) s
    bootFlag 5 true { t with sup := { t.sup with ppr := [] } }
  else s

/-- Hives whose combs would hold a third CELL entry (R436). -/
def thirdCellHives (m : List MapEnt) : List (Nat × Nat) :=
  ((m.filter fun e => e.ty == 2 && decide (3 ≤ cellsOf m e)).map fun e => (e.b2.toNat, e.b3.toNat)).eraseDups

/-- Hives that would need a 65th spare row (R437). -/
def fullRowHives (m : List MapEnt) : List (Nat × Nat) :=
  ((m.filter fun e => e.ty == 4 && decide (64 < (m.filter fun x => x.ty == 4 && x.b2 == e.b2 && x.b3 == e.b3).length)).map
    fun e => (e.b2.toNat, e.b3.toNat)).eraseDups

/-- A hive that fails at boot is retired at once, or is barren (R440, R447, R450). -/
def bootFail (row pcol : Nat) (s : State) : State :=
  let s := hiveFails row pcol 1 1 s
  match s.rpr.retire.find? fun r => r.row == row with
  | some r => finishRetire { r with moving := [] } s
  | none => s

/-- `bootFail` for several physical hives. -/
def bootFails : List (Nat × Nat) → State → State
  | [], s => s
  | (r, c) :: t, s => bootFails t (bootFail r c s)

/-- Physical hives, each once, in ascending physical column (R451). -/
def inColumnOrder (l : List (Nat × Nat)) : List (Nat × Nat) :=
  (List.range 13).flatMap fun c => (l.eraseDups.filter fun x => x.2 == c && decide (x.1 < 8))

/-- Barren hives and retired channels as the map gives them (R438, R450). -/
def mapInForce (s : State) : State :=
  let m := s.rpr.map
  { s with
    rpr := { s.rpr with pcol := hostCols m }
    hives := Vector.ofFn fun h => { s.hv h with barren := m.any fun e => e.ty == 6 && e.b2.toNat == h.val }
    phx := { s.phx with bank := Vector.ofFn fun b =>
      let bad := (m.filter fun e => e.ty == 5 && e.b2.toNat == b.val).map fun e => e.b3.toNat
      { s.phx.bank[b] with retired := bad, spares := min 8 bad.length } } }

/-- ARRAY: map, self-test and logical maps (R440, R441), then supers bring-up; the wax image is then applied (R179). -/
def arrayDone (i : BootInfo) (s : State) : State :=
  let s := bootFlag 6 i.flashWait (bootMap s)
  let found := (i.findings.map fun e => { e with org := 1 }).filter entElement
  let s := mapInForce (addAll (withCells s.rpr.map found) s)
  let fails := i.hiveFails ++ thirdCellHives s.rpr.map ++ fullRowHives s.rpr.map
  let s := mapInForce (saveMap (bootFails (inColumnOrder fails) s))
  let s := { s with sup := { s.sup with s0Up := i.sup0, s1Up := i.sup1, selfRefresh := false } }
  if !i.sup0 || !i.sup1 then bootEnds 7 2 0 s
  else
    let s := waxBoot (bootPpr s)
    bootStage 5 (bootFlag 4 (s.wax.bootSrc != 0) s)

/-- WAX ends when no bank in use calibrates or acquires (R115) and PERST_N is high (spec/23): READY. Ports enter SAFE, a strapped address is taken. -/
def waxDone (i : BootInfo) (s : State) : State :=
  if s.boot.perstLow || (banksOf s.wax.img).any (fun b => (s.phx.bank[b]).st == .cal || (s.phx.bank[b]).st == .acquiring) then s
  else
    let s := bootEnds 6 0 i.us (bootFlag 6 i.flashWait s)
    let st := s.boot.straps
    { s with
      ports := s.ports.map fun p => if p.en then { p with st := .safe } else p
      swarm := { s.swarm with addr := if st.stnMode then none else some ⟨st.stnAddr.toNat, st.stnAddr.isLt⟩ } }

/-- BOOT_STAGE_DONE (R459, Table 20.3). -/
def execBootStageDone (i : BootInfo) (s : State) : Host.Outcome State Fault Refusal :=
  if s.noBoot then .next s
  else match s.boot.stage.toNat with
    | 1 => .next (romDone i s)
    | 2 => .next (fwDone i s)
    | 3 => .next (guardDone i s)
    | 4 => .next (arrayDone i s)
    | 5 => .next (waxDone i s)
    | _ => .next s

/-- FW_REWRITE_DONE (R462): copy A has been rewritten from copy B. -/
def execFwRewriteDone (s : State) : Host.Outcome State Fault Refusal :=
  .next (if s.isReady && s.boot.fwSrc == 1 && s.boot.flags.getLsbD 0 then
    { s with boot := { s.boot with flags := s.boot.flags ||| 2 } } else s)

/-- PERST_N_RELEASE (R460). -/
def execPerstNRelease (s : State) : Host.Outcome State Fault Refusal :=
  let past := decide (4 ≤ s.boot.stage.toNat)
  .next { s with boot := { s.boot with perstLow := false, pcie := s.boot.pcie || past } }

-- self resets

/-- Write the records of a colony that waited for queue space, in their order, over the CQ head (R266 step 3). -/
def flushWaiting (c : ColId) : List CplRec → State → State
  | [], s => s
  | r :: t, s => flushWaiting c t (writeRec c r s)

/-- Every waiting record of a colony is written. -/
def drainRecs (c : ColId) (s : State) : State :=
  releaseXp c (flushWaiting c (s.co c).r.waiting (updVf c (fun v => { v with waiting := [] }) s))

/-- `drainRecs` for several colonies. -/
def drainAllRecs : List ColId → State → State
  | [], s => s
  | c :: r, s => drainAllRecs r (drainRecs c s)

/-- Raise vector 0 of every VF with a record not yet signalled. -/
def signalAll : List ColId → State → State
  | [], s => s
  | c :: r, s =>
    signalAll r (if 0 < (s.co c).r.modPend then raise (.vf c) 0 (updVf c (fun v => { v with modPend := 0 }) s) else s)

/-- A queen fault ends one job (R465). -/
def faultJob (slot : Nat) (s : State) : State := killJob slot { code := .internal, detail := 2 } s

/-- QUEEN_FAULT (R465). -/
def execQueenFault (s : State) : Host.Outcome State Fault Refusal :=
  if s.noBoot || !(decide (4 ≤ s.boot.stage.toNat) && decide (s.boot.stage.toNat ≤ 6)) then .next s
  else
    let s := { s with cols := s.cols.map fun c => { c with resetBusy := true } }
    let s := drainAllRecs (List.finRange 64) s
    .next (warmReset 0xC (transmitAll (raise .pf0 0 (signalAll (List.finRange 64) (onSlots faultJob s.slots s)))))

/-- THERMAL_TRIP (R466): every rail but VAON and VIO is cut; no record is written; every laser is dark. -/
def execThermalTrip (s : State) : Host.Outcome State Fault Refusal :=
  if s.noBoot then .next s
  else .next (latchAlert { s with
    jobs := [], lostJobs := [], mesh := [], arrivals := [], models := [], inbox := []
    hives := Vector.replicate 96 {}
    sup := { ppr := s.sup.ppr }
    host := { s.host with link := {} }
    ports := s.ports.map fun p => { p with st := .down, tx := .dark }
    boot := { s.boot with thermtrip := true, tripPend := true } })

/-- THERMTRIP_N_DEASSERT (R466): the die is below 100 C. -/
def execThermtripNDeassert (tj : BitVec 16) (s : State) : Host.Outcome State Fault Refusal :=
  .next (if tj.toInt < 25600 then latchAlert { s with boot := { s.boot with thermtrip := false } } else s)

/-- THERMTRIP_RELEASE (R466): RESET_N rises after THERMTRIP_N is released. -/
def execThermtripRelease (s : State) : Host.Outcome State Fault Refusal :=
  if s.boot.dark then .next s
  else
    let s := { s with boot := { s.boot with resetLow := false }, bmc := { s.bmc with drive := .function } }
    .next (if s.boot.tripPend && !s.boot.thermtrip then coldReset 4 s else s)

end Sys2Proof.Machine
end

