-- ==== Sys2Proof/Machine/Colony.lean ====
section
/-! DEFINITION. Machine/Colony.lean: express requests, cancellation, colony reset, queue configuration and the mailbox
(R258 to R267, R281). -/

namespace Sys2Proof.Machine

-- express requests

/-- Slot of the express request of a colony (R239). -/
def xpSlot (c : ColId) : Nat := 960 + c.val

/-- An express request of the colony is in flight. -/
def State.xpBusy (s : State) (c : ColId) : Bool := (s.job? (xpSlot c)).isSome

/-- XP_LEN is refused: IN or OUT above 512 or no multiple of 4 (R259). -/
def XpSt.badLen (x : XpSt) : Bool :=
  decide (512 < x.lenIn.toNat) || decide (512 < x.lenOut.toNat) || x.lenIn.toNat % 4 != 0 || x.lenOut.toNat % 4 != 0

/-- The payload as it is written to the window: with PACK each byte b becomes the 16-bit word b << 4 (R258). -/
def payloadOf (pack : Bool) (bs : List Byte) : List Byte :=
  if pack then bs.flatMap fun b => leBytes 2 (b.toNat * 16) else bs

/-- The express request as the part holds it when XP_DB arrives (R258). -/
def xpJob (c : ColId) (r : VfRegs) : Job :=
  let x := r.xp
  let d : Desc := {
    cls := 3, inHive := x.inHive.toNat, outHive := x.outHive.toNat, waxVer := x.ver, key := x.key
    inOff := alignDown x.inOff.toNat 2, outAddr := BitVec.ofNat 64 (alignDown x.dst.toNat 6), outLen := x.lenOut.toNat
    outOff := alignDown x.outOff.toNat 2, g2 := x.g2, g3 := BitVec.ofNat 32 x.lenIn.toNat, user := x.user }
  { slot := 0, gen := 0, col := c, kind := .express (memReadN r.mailbox 0 x.lenIn.toNat) x.pack x.cpl, d := d, key := x.key, part := 0x40 }

/-- Express requests of a colony are admitted by the wax in force (R149, R259). -/
def State.xpAdmits (s : State) (c : ColId) : Bool :=
  s.wax.img.hasExpress && ((s.wax.img.express.map fun e => e.colmask.getLsbD c.val).getD false)

/-- The check of an express request that fails first (R259); those of R246 wait for a hold to end. -/
def State.xpFail (s : State) (c : ColId) (d : Desc) : Option Ending :=
  if !s.xpAdmits c then some (mismatchEnd s 0x40 2)
  else if s.holds 0x40 then none else s.checkFail 0x40 d true

/-- XP_DB (R258, R259, R266): refused while busy or for length, else a request in slot 960 + c. -/
def execXpDb (c : ColId) (_v : Word) (s : State) : Host.Outcome State Fault Refusal :=
  let r := (s.co c).r
  let bits := (if s.xpBusy c then bitAt 2 else 0) ||| (if r.xp.badLen then bitAt 3 else 0)
  if (s.co c).resetBusy then .next s
  else if bits != 0 then .next (raise (.vf c) 2 (updVf c (fun r => { r with err := r.err ||| bits }) s))
  else
    let j := xpJob c r
    let s := fillSlot (xpSlot c) j s
    match s.xpFail c j.d with
    | some e => .next (endJob (xpSlot c) e (.cancel 0) s)
    | none => .next s

/-- The express request of a colony is next in the order of arrival (R260). -/
def State.xpNext (s : State) (j : Job) : Bool :=
  j.st == .queued && !s.xpRuns && !(s.jobs.any fun i => i.isExpress && i.st == .queued && decide (i.order < j.order))

/-- Write the payload to the window of XP_IN.HIVE (R258). -/
def placePayload (j : Job) (s : State) : State :=
  match j.kind, hiveOf? j.d.inHive with
  | .express bs pack _, some h => winWrite j.slot 0x40 h h j.d.inOff (payloadOf pack bs) s
  | _, _ => s

/-- EXPRESS_START (R260, R419): the request that is next is checked, its lent hives are reclaimed, and it is dispatched. -/
def execExpressStart (c : ColId) (s : State) : Host.Outcome State Fault Refusal :=
  match s.job? (xpSlot c) with
  | none => .next s
  | some j =>
    if !s.xpNext j || s.holds 0x40 || s.classShed 3 || !s.isReady then .next s
    else match s.xpFail c j.d with
    | some e => .next (endJob j.slot e (.cancel 0) s)
    | none => .next (startJob j.slot (placePayload j (glassDispatch j (updJob j.slot (fun j => { j with st := .running }) s))))

-- cancellation (R263 to R265)

/-- CANCELLED with a reason of Table 11.4. -/
def cancelled (reason : Nat) : Ending := { code := .cancelled, detail := BitVec.ofNat 64 reason }

/-- The job's own end has come: nothing of it runs any more (R264). -/
def State.pastCancel (s : State) (j : Job) : Bool :=
  j.st == .ended || (j.st == .running && j.started && !s.jobHasProg j.slot && s.othersDone j)

/-- COL_CANCEL (R263, R264). -/
def execColCancel (c : ColId) (tag : BitVec 16) (s : State) : Host.Outcome State Fault Refusal :=
  match (s.queueJobs c).find? fun j => j.tag == tag with
  | none => .next (colErr c 7 s)
  | some j => if s.pastCancel j then .next (colErr c 7 s) else .next (endJob j.slot (cancelled 1) (.cancel 1) s)

/-- Cancel a job unless its own end has come. -/
def cancelOne (reason : Nat) (slot : Nat) (s : State) : State :=
  match s.job? slot with
  | none => s
  | some j => if s.pastCancel j then s else unthrottle (endJob slot (cancelled reason) (.cancel reason) s)

/-- Cancel every queue job of a colony in flight. -/
def cancelQueue (c : ColId) (reason : Nat) (s : State) : State :=
  onSlots (cancelOne reason) ((s.queueJobs c).map (·.slot)) s

/-- CANCEL_ALL (R265); its action counts as ended at once, so that COL_CTL.CANCEL_ALL reads 0 (log entry 78). -/
def execCancelAll (c : ColId) (s : State) : Host.Outcome State Fault Refusal := .next (cancelQueue c 1 s)

-- colony reset (R266)

/-- Write the records that wait for the completion queue, without regard to its head. -/
def writeWaiting (c : ColId) : List CplRec → State → State
  | [], s => s
  | r :: t, s => writeWaiting c t (writeRec c r s)

/-- Start a colony reset; with an FLR the configuration space of the VF goes back too. It ends here, or when the last job
of the colony completes. -/
def colonyReset (c : ColId) (flr : Bool) (s : State) : State :=
  if (s.co c).resetBusy then updCol c (fun x => { x with flr := x.flr || flr }) s
  else
    let s := updCol c (fun x => { x with resetBusy := true, flr := flr, r := { x.r with sq := x.r.sq.map fun q => { q with en := false } } }) s
    let w := (s.co c).r.waiting
    let s := releaseXp c (writeWaiting c w (updVf c (fun r => { r with waiting := [] }) s))
    endReset c (cancelQueue c 2 s)

/-- COLONY_RESET (R266). -/
def execColonyReset (c : ColId) (s : State) : Host.Outcome State Fault Refusal := .next (colonyReset c false s)

/-- VF_FLR (R266): the VF must exist. -/
def execVfFlr (c : ColId) (s : State) : Host.Outcome State Fault Refusal :=
  .next (if s.vfExists c then colonyReset c true s else s)

-- queue configuration (R267)

/-- A LOG2 that a ring may have. -/
def goodLog2 (n : Nat) : Bool := decide (4 ≤ n) && decide (n ≤ 12)

/-- A write of SQ_CFG. -/
def sqCfg (c : ColId) (q : Fin 4) (v : Word) (s : State) : State :=
  let x := s.sq c q
  let log2 := if !x.en && goodLog2 (fld v 0 4) then BitVec.ofNat 4 (fld v 0 4) else x.log2
  let en := if bit v 4 then x.en || (s.co c).r.cqEn else false
  updSq c q (fun x => if en && !x.en then { x with log2 := log2, en := true, head := 0, tail := 0 } else { x with log2 := log2, en := en }) s

/-- A job of the colony is in flight. -/
def State.inFlight (s : State) (c : ColId) : Bool := s.jobs.any fun j => j.isHome && j.col == c

/-- A write of CQ_CFG. -/
def cqCfg (c : ColId) (v : Word) (s : State) : State :=
  let r := (s.co c).r
  let log2 := if !r.cqEn && goodLog2 (fld v 0 4) then BitVec.ofNat 4 (fld v 0 4) else r.cqLog2
  let en := if bit v 4 then true else r.cqEn && (r.sq.toList.any (·.en) || s.inFlight c)
  updVf c (fun r => if en && !r.cqEn then { r with cqLog2 := log2, cqEn := true, cqTail := 0, cqHead := 0, cqPhase := true }
    else { r with cqLog2 := log2, cqEn := en }) s

/-- A write of a queue register of a VF by its offset (R267). -/
def queueWrite (c : ColId) (off : Nat) (v : Word) (s : State) : State :=
  let r := (s.co c).r
  if off = 0x1000 then if r.cqEn then s else updVf c (fun r => { r with cqBase := setLo r.cqBase v }) s
  else if off = 0x1004 then if r.cqEn then s else updVf c (fun r => { r with cqBase := setHi r.cqBase v }) s
  else if off = 0x1008 then cqCfg c v s
  else if off = 0x100C then updVf c (fun r => { r with modCnt := BitVec.ofNat 8 (fld v 0 8), modUsec := BitVec.ofNat 16 (fld v 8 16) }) s
  else if off < 0x1040 || 0x1080 ≤ off then s
  else
    let q : Fin 4 := ⟨(off - 0x1040) / 16 % 4, Nat.mod_lt _ (by decide)⟩
    match (off - 0x1040) % 16 with
    | 0 => updSq c q (fun x => if x.en then x else { x with base := setLo x.base v }) s
    | 4 => updSq c q (fun x => if x.en then x else { x with base := setHi x.base v }) s
    | 8 => sqCfg c q v s
    | _ => s

/-- QUEUE_CONFIG_WRITE (R267). -/
def execQueueConfigWrite (c : ColId) (off : Nat) (v : Word) (s : State) : Host.Outcome State Fault Refusal :=
  .next (queueWrite c off v s)

/-- Write bytes with their byte enables: a disabled byte keeps its value. -/
def putEnabled (m : Memory) : Nat → List (Option Byte) → Memory
  | _, [] => m
  | a, none :: r => putEnabled m (a + 1) r
  | a, some b :: r => putEnabled (memWrite m a b) (a + 1) r

/-- Bytes written into the mailbox (R281, R518). -/
def mailboxPut (c : ColId) (off : Nat) (bytes : List (Option Byte)) (s : State) : State :=
  if 512 < off + bytes.length then refusePosted (.vf c) .ca s
  else (updVf c (fun r => { r with mailbox := putEnabled r.mailbox off bytes }) s).cpl .sc

/-- MAILBOX_WRITE (R281, R518): a write within the mailbox stores its bytes; one that crosses its end is a Completer
Abort. -/
def execMailboxWrite (c : ColId) (off : Nat) (bytes : List (Option Byte)) (s : State) : Host.Outcome State Fault Refusal :=
  .next (mailboxPut c off bytes s)

end Sys2Proof.Machine
end

