-- ==== Sys2Proof/Machine/Host.lean ====
section
/-! DEFINITION. Machine/Host.lean: virtual functions, Bus Master Enable, vectors, foragers, and what a failed transaction
does (spec/12). -/

namespace Sys2Proof.Machine

-- functions (R274 to R279)

/-- VF_ENABLE (R274, R275, R463): VF Enable is written 1. -/
def execVfEnable (s : State) : Host.Outcome State Fault Refusal :=
  .next (if s.isReady && s.host.sriov.pageSize == 1 then
    { s with host := { s.host with sriov := { s.host.sriov with vfEnable := true } } } else s)

/-- The colony reset of several colonies at once (R275). -/
def resetCols : List ColId → State → State
  | [], s => s
  | c :: r, s => resetCols r (colonyReset c true s)

/-- VF Enable changes from 1 to 0 (R275). -/
def vfsOff (s : State) : State :=
  let s := resetCols ((List.finRange 64).filter s.vfExists) s
  { s with host := { s.host with sriov := { s.host.sriov with vfEnable := false } } }

/-- VF_DISABLE (R275). -/
def execVfDisable (s : State) : Host.Outcome State Fault Refusal := .next (vfsOff s)

/-- A channel at its reset values; the Guard's claim of it stands (R277, R286; log entry 55). -/
def resetFor (f : ForSt) : ForSt := { claimed := f.claimed }

/-- PF0_FLR (R277). -/
def execPf0Flr (s : State) : Host.Outcome State Fault Refusal :=
  let s := vfsOff s
  .next { s with host := { s.host with
    sriov := {}, pf0 := FnSt.pf0Reset, forager := s.host.forager.map resetFor
    reads := s.host.reads.filter fun x => match x.2 with
      | .forDesc _ | .forData _ => false
      | _ => true }, shadows := tabSet none s.shadows 0 none }

/-- Vectors of a function. -/
def vecsOf : Fn → List Nat
  | .pf0 => List.range 64
  | .vf _ => List.range 4

/-- The records of a function that waited for Bus Master Enable are written (R238, R276). -/
def releaseWaiting (fn : Fn) (s : State) : State :=
  match fn with
  | .pf0 => s
  | .vf c => let t := releaseXp c s
    drainStep (releaseRecs c (t.co c).r.waiting t)

/-- BUS_MASTER_ENABLE (R276, R278): waiting writes, then the records that waited, and pending messages leave. -/
def execBusMasterEnable (fn : Fn) (s : State) : Host.Outcome State Fault Refusal :=
  .next (flushPba fn (vecsOf fn) (releaseWaiting fn (flushHeld fn (updFn fn (fun f => { f with bme := true }) s))))

/-- Change one MSI-X entry. -/
def updMsix (fn : Fn) (v : Nat) (g : MsixEnt → MsixEnt) (s : State) : State :=
  updFn fn (fun f => if v < f.msix.length then { f with msix := f.msix.set v (g (f.ent v)) } else f) s

/-- MSIX_UNMASK (R278): the entry is unmasked and its pending message leaves. -/
def execMsixUnmask (fn : Fn) (v : Nat) (s : State) : Host.Outcome State Fault Refusal :=
  .next (flushPba fn (vecsOf fn) (updMsix fn v (fun e => { e with masked := false }) s))

/-- LINK_UP (R269, R290): training completes at x16, x8 or x4, and the part advertises its credits. -/
def execLinkUp (width speed : Nat) (s : State) : Host.Outcome State Fault Refusal :=
  .next (if s.boot.pcie && !s.boot.perstLow && (width == 16 || width == 8 || width == 4) && decide (1 ≤ speed) && decide (speed ≤ 5) then
    { s with host := { s.host with link := { up := true, width := width, speed := speed, adv := FcCredits.part } } } else s)

-- foragers (R282 to R286)

/-- A channel. -/
def State.forg (s : State) (k : ChanId) : ForSt := s.host.forager[k]

/-- FORAGER_TAIL (R282, R286). -/
def execForagerTail (k : ChanId) (v : Word) (s : State) : Host.Outcome State Fault Refusal :=
  .next (if (s.forg k).claimed || decide (ringLen (s.forg k).log2 ≤ fld v 0 12) then s
    else updFor k (fun f => { f with tail := fld v 0 12 }) s)

/-- FORAGER_ENABLE (R282, R286): EN is written 1 with a ring size; a descriptor still in progress is none of the new ring. -/
def execForagerEnable (k : ChanId) (log2 : BitVec 4) (s : State) : Host.Outcome State Fault Refusal :=
  .next (if (s.forg k).claimed || (s.forg k).en then s
    else updFor k (fun f => { f with
      cur := f.cur.map fun d => { d with stale := true }
      log2 := if goodLog2 log2.toNat then log2 else f.log2, en := true, halting := false, head := 0, tail := 0, st := .run, bytes := 0 }) s)

/-- FORAGER_DISABLE (R282, R286): the channel halts, after the descriptor in progress. -/
def execForagerDisable (k : ChanId) (s : State) : Host.Outcome State Fault Refusal :=
  .next (if (s.forg k).claimed || !(s.forg k).en then s
    else updFor k (fun f => if f.cur.isSome then { f with en := false, halting := true } else { f with en := false, st := .idle }) s)

/-- RESUME (R284). -/
def execResume (k : ChanId) (s : State) : Host.Outcome State Fault Refusal :=
  .next (updFor k (fun f => if f.st == .stopped then { f with st := .run } else f) s)

/-- A write of FOR_CFG.GATE (R286). -/
def forGate (on : Bool) (f : ForSt) : ForSt :=
  if on then
    if f.claimed then { f with gate := true, claimDefer := true }
    else if f.en then f else { f with gate := true, gated := true }
  else { f with gate := false, claimDefer := false, gated := false }

/-- GATE (R286). -/
def execGate (k : ChanId) (on : Bool) (s : State) : Host.Outcome State Fault Refusal := .next (updFor k (forGate on) s)

/-- FORAGER_ERR_CLEAR (R283). -/
def execForagerErrClear (k : ChanId) (s : State) : Host.Outcome State Fault Refusal :=
  .next (updFor k (fun f => { f with err := false, st := if f.st == .error then .run else f.st }) s)

/-- The fields of a descriptor (Table 12.3). -/
def parseFor (b : List Byte) : ForDesc :=
  { dir := u8 b 0 % 4, wb := (u8 b 0).testBit 2, stop := (u8 b 0).testBit 3, len := uN b 4 4, src := uN b 8 8, dst := uN b 16 8 }

/-- A supers range within the bounds of R283. -/
def supRangeOk (a n : Nat) : Bool := inSupers a n

/-- Supers ranges of a descriptor. -/
def ForDesc.supRanges (d : ForDesc) : List Nat :=
  match d.dir with
  | 0 => [d.dst]
  | 1 => [d.src]
  | _ => [d.src, d.dst]

/-- Cellar ranges of a descriptor. -/
def ForDesc.cellRanges (d : ForDesc) : List Nat :=
  match d.dir with
  | 0 => [d.src]
  | 1 => [d.dst]
  | _ => []

/-- The code among 0x01 to 0x03 that a descriptor fails first (Table 12.4). -/
def forFail (b : List Byte) : Option Byte :=
  let d := parseFor b
  if u8 b 0 / 16 != 0 || d.dir = 3 || uN b 1 3 != 0 then some 1
  else if d.len % 4 != 0 || d.len = 0 || decide (16777216 < d.len) || d.src % 4 != 0 || d.dst % 4 != 0 then some 2
  else if !(d.supRanges.all fun a => supRangeOk a d.len) || (d.cellRanges.any fun a => decide (2 ^ 64 < a + d.len)) then some 3
  else none

/-- Where the descriptor at FOR_HEAD lies (R282). -/
def ForSt.descAt (f : ForSt) : Nat := alignDown f.base.toNat 12 + 32 * f.head

/-- A descriptor ends with a code (R283, R284): STATUS, FOR_HEAD, the state of the channel; the Guard may then claim it. One
of a ring that EN has replaced moves no FOR_HEAD (R282, log entry 55). -/
def forEnd (k : ChanId) (d : ForDesc) (code : Byte) (moved : Nat) (s : State) : State :=
  let f := s.forg k
  let s := readsEnd (.forData k) s
  let s := if d.wb then cellarWrite .pf0 (.foragerStatus k) d.statAt (leBytes 4 (code.toNat + 256)) s else s
  let st : ForState := if code != 0 then .error else if d.stale then f.st else if f.halting then .idle else if d.stop then .stopped else .run
  claimChannel (updFor k (fun f => { f with
    head := if d.stale then f.head else (f.head + 1) % ringLen f.log2, code := code, err := f.err || code != 0, st := st, halting := false, cur := none
    bytes := f.bytes + BitVec.ofNat 64 moved }) s)

/-- The channel may take its next descriptor (R276, R282, R286, R420). -/
def State.forTakes (s : State) (k : ChanId) : Bool :=
  let f := s.forg k
  s.isReady && f.en && f.st == .run && !f.gated && !f.claimed && f.cur.isNone && f.head != f.tail && !s.pwr.held && s.host.pf0.bme

/-- The destination of a descriptor touches the allocation of a sealed colony (R386). -/
def State.forSealed (s : State) (d : ForDesc) : Bool := d.dir != 1 && s.sealedHit d.dst d.len

/-- The read of the descriptor at FOR_HEAD. -/
def readDesc (k : ChanId) (s : State) : State :=
  readsEnd (.forDesc k) (cellarRead .pf0 (.forDesc k) (s.forg k).descAt 32 s)

/-- FORAGER_DESCRIPTOR (R282, R283, R386): the descriptor at FOR_HEAD is read, is checked and starts; a transfer from the
cellar reads its source. -/
def execForagerDescriptor (k : ChanId) (bytes : List Byte) (s : State) : Host.Outcome State Fault Refusal :=
  if !s.forTakes k || bytes.length != 32 then .next s
  else
    let d := { parseFor bytes with statAt := (s.forg k).descAt + 24 }
    let s := readDesc k s
    match forFail bytes with
    | some code =>
      let s := if code == 3 && d.supRanges.any (fun a => sysHit a d.len) then supEvent 2 s else s
      .next (forEnd k d code 0 s)
    | none =>
      .next (if s.forSealed d then forEnd k d 3 0 (supEvent 2 s)
        else
          let s := updFor k (fun f => { f with cur := some d }) s
          if d.dir = 0 then cellarRead .pf0 (.forData k) d.src d.len s else s)

/-- Write forager data into the supers; the bytes in a held source are discarded. Answers how many moved. -/
def forWrite (a : Nat) (bs : List Byte) (s : State) : Nat × State :=
  (((List.range bs.length).filter fun i => !s.heldAt (a + i)).length, supWriteOut a bs s)

/-- Write data to the cellar in requests of at most Max_Payload_Size that cross no 4 KiB boundary, those with an uncorrectable
word poisoned (R283, R285). -/
def forSend (k : ChanId) (src dst : Nat) (bs : List Byte) (s : State) : State :=
  (splitWrites s.maxPayload (bs.length / s.maxPayload + 2) dst bs).foldl (fun t w =>
    let kind : TxKind := if (t.ueIn (src + (w.1 - dst)) w.2.length).isEmpty then .foragerData k else .foragerPoisoned k
    cellarWrite .pf0 kind w.1 w.2 t) s

/-- Words of a destination that bad source words make uncorrectable (R283). -/
def ueMoved (ws : List Nat) (src dst n : Nat) : List Nat :=
  ((ws.flatMap fun w => ((List.range 8).filter fun i => decide (src ≤ w + i) && decide (w + i < src + n)).map fun i =>
    alignDown (dst + (w + i - src)) 3)).eraseDups

/-- The code with which a descriptor that moved its data ends. -/
def forCode (held media : Bool) : Byte := if held then 4 else if media then 6 else 0

/-- FORAGER_DESCRIPTOR_DONE (R276, R283, R284, R386): the data has moved; `data` is what the cellar gave. A transfer within the
supers issues no request and needs no Bus Master Enable. -/
def execForagerDescriptorDone (k : ChanId) (data : List Byte) (s : State) : Host.Outcome State Fault Refusal :=
  match (s.forg k).cur with
  | none => .next s
  | some d =>
    if (s.forg k).gated || s.pwr.held || (d.dir != 2 && !s.host.pf0.bme) then .next s
    else if s.forSealed d then .next (forEnd k d 3 0 (supEvent 2 s))
    else match d.dir with
    | 0 =>
      if data.length != d.len then .next s
      else
        let (n, t) := forWrite d.dst data s
        .next (forEnd k d (forCode (n != d.len) false) n t)
    | 1 =>
      let ws := s.ueIn d.src d.len
      let t := forSend k d.src d.dst (memReadN s.sup.mem d.src d.len) s
      .next (forEnd k d (forCode false (!ws.isEmpty)) d.len (noteUe ws t))
    | _ =>
      let ws := s.ueIn d.src d.len
      let (n, t) := forWrite d.dst (memReadN s.sup.mem d.src d.len) s
      let t := { t with sup := { t.sup with ue := (t.sup.ue ++ (ueMoved ws d.src d.dst d.len).filter fun w => !s.heldAt w).eraseDups } }
      .next (forEnd k d (forCode (n != d.len) (!ws.isEmpty)) n (noteUe ws t))

-- failed reads and errors (R291 to R293)

/-- Byte 9 of DETAIL for a failed input read (Table 11.4). -/
def rdReason : RdRes → Nat
  | .ok => 0
  | .ur => 1
  | .ca => 2
  | .poisoned => 3
  | .timeout => 4

/-- The function whose read failed. -/
def rdFn (s : State) : RdPurpose → Fn
  | .descriptor c _ => .vf c
  | .input n => match s.job? n.val with
    | some j => .vf j.col
    | none => .pf0
  | _ => .pf0

/-- AER of a failed completion: EP and timeout have a status bit, UR and CA have none at the requester (log entry 6). -/
def aerRead (fn : Fn) (why : RdRes) (s : State) : State :=
  match why with
  | .poisoned => aerUnc fn 12 s
  | .timeout => aerUnc fn 14 s
  | _ => s

/-- A read of the part fails (R292). -/
def readFails (p : RdPurpose) (why : RdRes) (s : State) : State :=
  match p with
  | .descriptor c q => if s.nextFetch == some (c, q) then badDesc c q 5 (aerRead (.vf c) why (readEntry c q s)) else s
  | .input n =>
    match s.job? n.val with
    | some j =>
      if j.inputPend && j.st == .running then
        endJob n.val { code := .internal, detail := BitVec.ofNat 64 (3 + 256 * rdReason why) } (.cancel 0)
          (updJob n.val (fun j => { j with inputPend := false }) (aerRead (.vf j.col) why (readsEnd (.input j.slot j.gen) s)))
      else s
    | none => s
  | .forDesc k =>
    if s.forTakes k then
      forEnd k { dir := 0, wb := false, stop := false, len := 0, src := 0, dst := 0 } 5 0 (aerRead .pf0 why (readDesc k s))
    else s
  | .forData k moved =>
    match (s.forg k).cur with
    | some d =>
      if d.dir = 0 && moved.length < d.len then
        let (n, t) := forWrite d.dst moved (aerRead .pf0 why s)
        forEnd k d 5 n t
      else s
    | none => s

/-- The completion timeout of a function runs (R293). -/
def State.timesOut (s : State) (p : RdPurpose) : Bool := !(s.fn (rdFn s p)).ctoDis

/-- CELLAR_READ_FAIL (R292). -/
def execCellarReadFail (p : RdPurpose) (why : RdRes) (s : State) : Host.Outcome State Fault Refusal :=
  .next (if why == .ok || (why == .timeout && !s.timesOut p) then s else readFails p why s)

/-- COMPLETION_TIMEOUT (R293). -/
def execCompletionTimeout (p : RdPurpose) (s : State) : Host.Outcome State Fault Refusal :=
  .next (if s.timesOut p then readFails p .timeout s else s)

/-- TLP_ERROR (R291): the event is logged in the AER registers of its function, else of PF0; a non-posted request refused
gets its completion status, a bad write or TLP is discarded, and a surprise takes the link down (bit places as the Base
specification has them, log entry 6). -/
def execTlpError (e : TlpErr) (r : TlpReq) (s : State) : Host.Outcome State Fault Refusal :=
  let f := r.fn.getD .pf0
  .next (match e with
  | .dlProtocol => aerUnc .pf0 4 s
  | .surpriseDown =>
    let t := aerUnc .pf0 5 s
    { t with host := { t.host with link := { lost := s.host.link.up || s.host.link.lost } } }
  | .poisoned => aerUnc f 12 s
  | .flowControl => aerUnc .pf0 13 s
  | .completerAbort => if r.posted then refusePosted f .ca s else refuseReq f .ca s
  | .unexpectedCpl => aerUnc f 16 s
  | .receiverOverflow => aerUnc .pf0 17 s
  | .malformed => aerUnc .pf0 18 s
  | .ecrc => aerUnc .pf0 19 s
  | .unsupported => if r.posted then refusePosted f .ur s else refuseReq f .ur s
  | .receiverError => aerCor .pf0 0 s
  | .badTlp => aerCor .pf0 6 s
  | .badDllp => aerCor .pf0 7 s
  | .replayRollover => aerCor .pf0 8 s
  | .replayTimeout => aerCor .pf0 12 s)

end Sys2Proof.Machine
end

