-- ==== Sys2Proof/Machine/ExModel.lean ====
section
/-! DEFINITION. Machine/ExModel.lean: the load-time cost model of the express partition (R216, Table 9.7, R84, R85). -/

namespace Sys2Proof.Machine

/-- A write that the model still expects: first byte when known, bytes, and the cycle in which it is written. -/
structure XPend where
  lo : Option Nat
  n : Nat
  at_ : Nat
  deriving DecidableEq, Repr

/-- One program of the image in the model. -/
structure XProg where
  hive : HiveId
  pc : Nat := 0
  /-- Index of the instruction it executes or waits to start. -/
  cur : Nat := 0
  t : Nat := 0
  /-- Registers; none where the model cannot know the value. -/
  g : List (Option Word)
  l : Vector Nat 4 := Vector.replicate 4 0
  layer : Nat
  e : Vector Nat 32 := Vector.replicate 32 0
  steps : Nat := 1
  /-- Cycles since the last yield point, and whether the last cycles were a wait. -/
  since : Nat := 0
  waited : Bool := false
  writes : List XPend := []
  counts : List XPend := []
  movFree : Nat := 0
  /-- Requantisations by cycle (R84). -/
  honey : List (Nat × Nat) := []
  /-- When everything sent so far has landed, when every result and copy is done, when the last requantisation has passed
  step 1 of R39. -/
  land : Nat := 0
  out : Nat := 0
  step1 : Nat := 0
  blocked : Option (Fin 32) := none
  done : Bool := false
  stepAt : Option Nat := none
  cycAt : Option Nat := none
  deriving DecidableEq, Repr

/-- A barrier in the model: arrivals not used by a release, and the cycles of the releases. -/
structure XBar where
  arr : List Nat := []
  rel : List Nat := []
  deriving DecidableEq, Repr

/-- What the model runs on. -/
structure XEnv where
  wax : WaxImg
  pcol : List Nat
  /-- Window size, MAX_STEPS, MAX_CYC. -/
  q : Nat
  maxSteps : Nat
  maxCyc : Nat
  targets : List Nat
  /-- Instructions by directory entry. -/
  progs : List (List (Option DOp))
  deriving DecidableEq, Repr

/-- Cycles at which the model stops: past MAX_CYC and past what CYC can show. -/
def XEnv.cap (x : XEnv) : Nat := max x.maxCyc 0x7FF + 1

-- mesh times (R85, R86)

/-- Cycles from the sending of a flit to its arrival: 2 a hop, 1 for each physical hive passed by the row bypass. -/
def meshTime (x : XEnv) (a d : HiveId) : Nat := meshCycles x.wax x.pcol a d

/-- The time to the most distant hive of the partition. -/
def farTime (x : XEnv) (a : HiveId) : Nat :=
  ((allHives.filter fun h => x.wax.owner? h.val == some 0x40).map fun h => meshTime x a h).foldl max 0

-- time

/-- A yield point is passed. -/
def xYield (x : XEnv) (p : XProg) : XProg :=
  { p with steps := p.steps + 1, since := 0, stepAt := if x.maxSteps < p.steps + 1 && p.stepAt.isNone then some p.cur else p.stepAt }

/-- Time goes on to a cycle. -/
def xTime (x : XEnv) (t : Nat) (p : XProg) : XProg :=
  { p with t := t, cycAt := if x.maxCyc < t && p.cycAt.isNone then some p.cur else p.cycAt }

/-- A unit of c cycles (R207). -/
def xUnit (x : XEnv) (c : Nat) (p : XProg) : XProg :=
  let p := if 432 < p.since + c then xYield x p else p
  xTime x (p.t + c) { p with since := p.since + c, waited := false }

/-- Wait until a cycle before a unit: a run of wait cycles is one yield point. -/
def xWait (x : XEnv) (t : Nat) (p : XProg) : XProg :=
  if t ≤ p.t then p
  else xTime x t { (if p.waited then p else xYield x p) with waited := true }

/-- Two ranges meet in a space of q; an unknown start meets everything. -/
def xMeets (q : Nat) (a : Option Nat) (n : Nat) (b : Option Nat) (m : Nat) : Bool :=
  match a, b with
  | some a, some b => meets q a n b m
  | _, _ => n != 0 && m != 0

/-- The last expected write that meets a range; 0 with none. -/
def xLast (q : Nat) (l : List XPend) (lo : Option Nat) (n : Nat) : Nat :=
  ((l.filter fun w => xMeets q lo n w.lo w.n).map (·.at_)).foldl max 0

/-- Wait until the cycle after the last write into a range (R193). -/
def xRead (x : XEnv) (lo : Option Nat) (n : Nat) (p : XProg) : XProg :=
  let w := xLast x.q p.writes lo n
  if w = 0 then p else xWait x (w + 1) p

-- registers

/-- A register. -/
def XProg.reg (p : XProg) (r : Reg4) : Option Word := (p.g.getD r.val none)

/-- Write a register. -/
def XProg.put (p : XProg) (r : Reg4) (v : Option Word) : XProg := { p with g := p.g.set r.val v }

/-- A register as an address. -/
def XProg.addr (p : XProg) (r : Reg4) : Option Nat := (p.reg r).map (·.toNat)

-- STREAM

/-- The index of a comb-pass in the order of R196. -/
def passIdx (a : StreamArgs) (x : PassAt) : Nat :=
  let ne := a.shape.combs.length
  x.r * (a.shape.passes * a.b * ne) + (x.p * a.b + x.b) * a.shape.inRound a.nout x.r + (x.o - x.r * ne)

/-- The passes of step k. -/
def xStepPasses (a : StreamArgs) (k : Nat) : List PassAt :=
  let (r, p, b, os) := a.shape.stepAt a.nout a.b k
  os.map fun o => { r := r, p := p, b := b, o := o }

/-- The latch wait after step k. -/
def xLatch (a : StreamArgs) (k : Nat) : Nat :=
  match (xStepPasses a k).getLast? with
  | some x => latchWait a a.shape.mode.randw (passIdx a x)
  | none => 0

/-- Requantisations in a cycle. -/
def xBusy (l : List (Nat × Nat)) (c : Nat) : Nat := ((l.filter fun e => e.1 == c).map (·.2)).sum

/-- Put n requantisations into cycle c and those after it, 32 a cycle: the cycle of the last of them (R84). -/
def xHoney (k : Nat) (l : List (Nat × Nat)) (c n : Nat) : List (Nat × Nat) × Nat :=
  match k with
  | 0 => (l, c)
  | k + 1 =>
    let room := 32 - xBusy l c
    if n ≤ room then ((c, n) :: l, c) else xHoney k ((c, room) :: l) (c + 1) (n - room)

/-- Where the counts of a STREAM go: this hive, or the cycles to another. -/
def xDest (x : XEnv) (p : XProg) (ga : Option Word) : Option Nat :=
  match ga with
  | none => some (farTime x p.hive)
  | some w =>
    if bit w 23 then some (farTime x p.hive)
    else if fld w 10 7 = 0x7F || fld w 10 7 = p.hive.val then none
    else match hiveOf? (fld w 10 7) with
      | some d => some (meshTime x p.hive d)
      | none => some (farTime x p.hive)

/-- The counts and the result of a chain whose last slab has issued w cycles before the cycle before t (R83 to R85, R198). -/
def xChain (dst : Option Nat) (fin : Bool) (base out : Option Nat) (i sub w : Nat) (p : XProg) : XProg :=
  let last := p.t - 1 - w
  match dst with
  | some d => { p with land := max p.land (last + 9 + d), out := max p.out (last + 9 + d) }
  | none =>
    let p := { p with
      counts := { lo := base.map (· + i), n := sub, at_ := last + 9 } :: p.counts, land := max p.land (last + 9), out := max p.out (last + 9) }
    if fin then
      let (l, c) := xHoney (p.t + 64) p.honey (last + 9) sub
      { p with
        writes := { lo := out.map (· + 4 * i), n := 4 * sub, at_ := c + 4 } :: p.writes, honey := l
        land := max p.land (c + 4), out := max p.out (c + 4), step1 := max p.step1 (c + 1) }
    else p

/-- The steps of a STREAM from k on: n bounds their number, the cap their time. -/
def xSteps (x : XEnv) (o : StreamOp) (a : StreamArgs) (dst : Option Nat) (base out : Option Nat) : Nat → Nat → XProg → XProg
  | 0, _, p => p
  | n + 1, k, p =>
    if a.shape.steps a.nout a.b ≤ k || decide (x.cap ≤ p.t) then p
    else
      let p := xUnit x (a.shape.slabs + xLatch a k) p
      let ends := (xStepPasses a k).filter fun y => y.p + 1 == a.shape.passes
      let p := ends.foldl (fun p y => xChain dst o.fin base out ((y.o * a.b + y.b) * a.shape.sub) a.shape.sub (xLatch a k) p) p
      xSteps x o a dst base out n (k + 1) p

/-- STREAM in the model (R196, R199). -/
def xStream (x : XEnv) (o : StreamOp) (p : XProg) : XProg :=
  match shapeFor x.wax 0x40 p.layer p.hive 0 o.cmask with
  | none => xUnit x 1 p
  | some sh =>
    if sh.combs.isEmpty then xUnit x 1 p
    else
      let a : StreamArgs := { shape := sh, nout := o.nout, b := o.b, input := 0, weights := 0, out := 0, acc := 0, hive := 0
                              station := none, here := true, spill := none }
      let p := xUnit x (1 + sh.sub) p
      let p := xWait x (max (xLast x.q p.writes (p.addr o.gi) a.inBytes) (xLast x.q p.writes (p.addr o.gw) a.wBytes)) p
      xSteps x o a (xDest x p (p.reg o.ga)) ((p.reg o.ga).map fun w => fld w 0 10) (p.addr o.go) x.cap 0 p

-- HONEY

/-- The results of HONEY REQ group by group: 32 a cycle with those of chains, the last four cycles after the instruction when
nothing else is requantised then (R84, Table 9.7). -/
def xReq (out : Option Nat) (n : Nat) (t0 : Nat) (p : XProg) : XProg :=
  (List.range ((n + 31) / 32)).foldl (fun p g =>
    let m := min 32 (n - 32 * g)
    let (l, c) := xHoney (p.t + 64) p.honey (t0 + g + 1) m
    { p with
      writes := { lo := out.map (· + 128 * g), n := 4 * m, at_ := c + 4 } :: p.writes, honey := l
      land := max p.land (c + 4), out := max p.out (c + 4), step1 := max p.step1 (c + 1) }) p

-- costs without waits

/-- Cycles of a STREAM without waits (R199). -/
def xStreamCost (x : XEnv) (h : HiveId) (layer : Nat) (o : StreamOp) : Nat :=
  match shapeFor x.wax 0x40 layer h 0 o.cmask with
  | none => 1
  | some sh =>
    let rs := (List.range (sh.rounds o.nout)).map fun r =>
      let m := if sh.mode.randw then sh.inRound o.nout r else 1
      sh.passes * max (o.b * sh.slabs * m) sh.sub
    if sh.combs.isEmpty then 1 else 1 + sh.sub + rs.sum

/-- Cycles of an instruction without waits (Table 9.7). -/
def xCost (x : XEnv) (h : HiveId) (layer : Nat) (op : DOp) : Nat :=
  match op with
  | .stream o => xStreamCost x h layer o
  | .ld .. | .get .. => 2
  | .ldp _ table _ _ count => 1 + (count * (if table then 4 else 16) + 255) / 256
  | .clr _ n => 1 + (n + 63) / 64
  | .req _ _ _ _ n => 1 + (n + 31) / 32
  | .draw .. => 73
  | _ => 1

-- one instruction

/-- Go on to the next instruction. -/
def xNext (p : XProg) : XProg := { p with pc := p.pc + 1 }

/-- Whether a WAIT with an expectation is met: the cycle of the release that it needs. -/
def XBar.when (b : XBar) (e : Nat) : Option Nat := if e = 0 then some 0 else b.rel[e - 1]?

/-- A WAIT: after the cycle in which it issues it waits for its release when that is known, and else it blocks. -/
def xWaitBar (x : XEnv) (b : Fin 32) (bars : Vector XBar 32) (p : XProg) : XProg :=
  let e := if p.blocked.isSome then p.e[b] else p.e[b] + 1
  let p := { (if p.blocked.isSome then p else xUnit x 1 p) with e := p.e.set b e }
  match (bars[b]).when e with
  | some t => xNext (xWait x t { p with blocked := none })
  | none => { p with blocked := some b }

/-- An arrival: it takes effect when everything sent before has landed (R204). -/
def xArrive (b : Fin 32) (p : XProg) (bars : Vector XBar 32) : Vector XBar 32 :=
  updAt bars b fun y => { y with arr := max p.t p.land :: y.arr }

/-- The target of a conditional branch that the program is about to run, unless that is the next instruction, and where its two
ways meet: behind the jump that ends the way not taken, and else at the target. -/
def xBranch (ops : List (Option DOp)) (p : XProg) : Option (Nat × Nat) :=
  match ops.getD p.pc none with
  | some (.br c _ _ t) =>
    if c = 0 || t = p.pc + 1 then none
    else match ops.getD (t - 1) none with
    | some (.br 0 _ _ u) => some (t, if t ≤ u then u else t)
    | _ => some (t, t)
  | _ => none

/-- One instruction of a program in the model, other than a branch with two ways (xBranch). -/
def xStep (x : XEnv) (ops : List (Option DOp)) (p0 : XProg) (bars : Vector XBar 32) : XProg × Vector XBar 32 :=
  let p := { p0 with cur := p0.pc }
  match ops.getD p.pc none with
  | none => ({ p with done := true }, bars)
  | some op =>
    match op with
    | .endProg =>
      let p := xUnit x 1 p
      let p := if p.t < p.out then xYield x p else p
      ({ xTime x (max p.t p.out) p with done := true }, bars)
    | .yield => (xNext (xYield x (xUnit x 1 p)), bars)
    | .li rd imm => (xNext (xUnit x 1 (p.put rd (some imm))), bars)
    | .alu rd ra rb fn useImm imm =>
      let b := if useImm then some imm else p.reg rb
      let v := match p.reg ra, b with
        | some a, some b => some (aluOp fn a b)
        | _, _ => none
      (xNext (xUnit x 1 (p.put rd v)), bars)
    | .ld rd ra imm =>
      let lo := (p.reg ra).map fun a => wordAddr a imm
      (xNext (xUnit x 2 ((xRead x lo 4 p).put rd none)), bars)
    | .mov ra _ _ len =>
      let p := xWait x p.movFree (xRead x (p.addr ra) len p)
      let flits := (len / 256) * 5 + (if len % 256 = 0 then 0 else (len % 256 + 8 + 63) / 64)
      let done := p.t + flits
      let land := p.t + flits - 1 + farTime x p.hive
      (xNext (xUnit x 1 { p with movFree := done, land := max p.land land, out := max p.out land }), bars)
    | .ldp _ table ra _ count =>
      let n := count * (if table then 4 else 16)
      let p := xRead x (p.addr ra) n p
      let p := if p.step1 = 0 then p else xWait x (p.step1 + 1) p
      (xNext (xUnit x (xCost x p.hive p.layer op) p), bars)
    | .stream o => (xNext (xStream x o p), bars)
    | .req ra rb _ _ n =>
      let w := xLast 1024 p.counts ((p.reg ra).map fun a => fld a 0 10) n
      let p := if w = 0 then p else xWait x (w + 1) p
      let t0 := p.t
      (xNext (xReq (p.addr rb) n t0 (xUnit x (xCost x p.hive p.layer op) p)), bars)
    | .draw ra _ _ _ _ _ _ => (xNext (xUnit x 73 (xRead x (p.addr ra) 16384 p)), bars)
    | .get ra rd =>
      let w := xLast 1024 p.counts ((p.reg ra).map fun a => fld a 0 10) 1
      let p := if w = 0 then p else xWait x (w + 1) p
      (xNext (xUnit x 2 (p.put rd none)), bars)
    | .seed y => (xNext (xUnit x 1 { p with layer := y }), bars)
    | .arrive b => (xNext (xUnit x 1 p), xArrive b p bars)
    | .wait b => (xWaitBar x b bars p, bars)
    | .arriveWait b =>
      let bars := if p.blocked.isSome then bars else xArrive b p bars
      (xWaitBar x b bars p, bars)
    | .br _ _ _ t => ({ xUnit x 2 p with pc := t }, bars)
    | .lset lc _ _ c => (xNext (xUnit x 1 { p with l := p.l.set lc c }), bars)
    | .lend lc t =>
      if p.l[lc] ≤ 1 then (xNext (xUnit x 1 { p with l := p.l.set lc 0 }), bars)
      else ({ xUnit x 2 { p with l := p.l.set lc (p.l[lc] - 1) } with pc := t }, bars)
    | .nop | .st .. | .ldw .. | .clr .. | .vset .. | .hint .. => (xNext (xUnit x (xCost x p.hive p.layer op) p), bars)

-- all programs

/-- Sort times. -/
def insNat (a : Nat) : List Nat → List Nat
  | [] => [a]
  | b :: r => if a ≤ b then a :: b :: r else b :: insNat a r

/-- The cycle of the next release of a barrier: 40 after its last arrival (R205, R216). -/
def XBar.next (b : XBar) (target : Nat) : Option Nat :=
  if target = 0 then none else ((b.arr.foldr insNat [])[target - 1]?).map (· + 40)

/-- The barrier that releases first. -/
def xFirst (x : XEnv) (bars : Vector XBar 32) : Option (Fin 32 × Nat) :=
  (List.finRange 32).foldl (fun (o : Option (Fin 32 × Nat)) b =>
    match (bars[b]).next (x.targets.getD b.val 0), o with
    | some t, some (_, u) => if t < u then some (b, t) else o
    | some t, none => some (b, t)
    | none, _ => o) none

/-- The program that runs next: the one of lowest time that can go on. -/
def xPick (x : XEnv) (ps : List XProg) : Option Nat :=
  (ps.zipIdx.foldl (fun (o : Option (Nat × Nat)) (q : XProg × Nat) =>
    if q.1.done || q.1.blocked.isSome || decide (x.cap ≤ q.1.t) then o
    else match o with
      | some (_, t) => if q.1.t < t then some (q.2, q.1.t) else o
      | none => some (q.2, q.1.t)) none).map (·.1)

/-- A program has reached an instruction. -/
def xMet (stop : Option (Nat × Nat)) (ps : List XProg) : Bool :=
  match stop with
  | none => false
  | some (i, t) => (ps[i]?).any fun p => p.pc == t && p.blocked.isNone && !p.done

/-- A cost is below another: cycles, and yield points between equals. -/
def xLess (a b : Nat × Nat) : Bool := decide (a.1 < b.1) || (a.1 == b.1 && decide (a.2 < b.2))

/-- The cost of one program so far. -/
def xCostAt (i : Nat) (ps : List XProg) : Nat × Nat := ((ps[i]?).map fun p => (p.t, p.steps)).getD (0, 0)

/-- The cost of a whole run; one that has not ended costs the cap. -/
def xTotal (x : XEnv) (ps : List XProg) : Nat × Nat :=
  (min x.cap ((ps.map fun p => if p.done then p.t else x.cap).foldl max 0), (ps.map (·.steps)).foldl max 0)

/-- Run every program until one of them reaches an instruction (true), or until nothing can go on. A conditional branch goes
along the costlier path: up to where its ways meet, or else to the end of the run; the taken one between equals (R216; log
entry 60). `n` bounds the instructions of one path. -/
def xSys (x : XEnv) : Nat → Option (Nat × Nat) → List XProg → Vector XBar 32 → List XProg × Vector XBar 32 × Bool
  | 0, _, ps, bars => (ps, bars, false)
  | n + 1, stop, ps, bars =>
    if xMet stop ps then (ps, bars, true)
    else match xPick x ps with
    | none =>
      match xFirst x bars with
      | none => (ps, bars, false)
      | some (b, t) =>
        let bars := updAt bars b fun y => { arr := (y.arr.foldr insNat []).drop (x.targets.getD b.val 0), rel := y.rel ++ [t] }
        let ps := ps.zipIdx.map fun (q : XProg × Nat) =>
          if q.1.blocked == some b then (xStep x (x.progs.getD q.2 []) q.1 bars).1 else q.1
        xSys x n stop ps bars
    | some i =>
      match ps[i]? with
      | none => (ps, bars, false)
      | some p =>
        let ops := x.progs.getD i []
        match xBranch ops p with
        | none =>
          let r := xStep x ops p bars
          xSys x n stop (ps.set i r.1) r.2
        | some (t, u) =>
          let (fps, fbars, fhit) := xSys x n (some (i, u)) (ps.set i (xNext (xUnit x 1 { p with cur := p.pc }))) bars
          let taken := ps.set i { xUnit x 2 { p with cur := p.pc } with pc := t }
          let (tps, tbars, thit) := if u = t then (taken, bars, true) else xSys x n (some (i, u)) taken bars
          if fhit && thit then
            if xLess (xCostAt i tps) (xCostAt i fps) then xSys x n stop fps fbars else xSys x n stop tps tbars
          else
            let (fps, fbars, _) := if fhit then xSys x n none fps fbars else (fps, fbars, false)
            let (tps, tbars, _) := if thit then xSys x n none tps tbars else (tps, tbars, false)
            if xLess (xTotal x tps) (xTotal x fps) then (fps, fbars, false) else (tps, tbars, false)

/-- A bound for the instructions and releases of one path: each instruction takes a cycle at least, and programs stop at the
cap. -/
def XEnv.bound (x : XEnv) : Nat := (4 * x.progs.length + 4) * (x.cap + 2)

/-- What the model gives: cycles to the last END, steps by program, and the index of the instruction at which each passed its
limits. -/
structure XResult where
  ends : List Nat
  steps : List Nat
  stepAt : List (Option Nat)
  cycAt : List Nat
  deriving DecidableEq, Repr

/-- Run the model on the programs of an image (R216). -/
def runModel (x : XEnv) (hives : List HiveId) (firstLayer : Nat) : XResult :=
  let ps := hives.map fun h => ({ hive := h, layer := firstLayer, g := List.replicate 4 none ++ List.replicate 12 (some 0) } : XProg)
  let qs := (xSys x x.bound none ps (Vector.replicate 32 {})).1
  { ends := qs.map fun p => if p.done then p.t else x.cap
    steps := qs.map (·.steps), stepAt := qs.map (·.stepAt), cycAt := qs.map fun p => p.cycAt.getD p.cur }

end Sys2Proof.Machine
end

