-- ==== Sys2Proof/Machine/Model.lean ====
section
/-! DEFINITION. Machine/Model.lean: the model load: the checks of a model descriptor and of its dance image (Tables 9.11,
10.2 to 10.4, R214 to R216, R227), the fit plan (R228, R229) and the load commands. -/

namespace Sys2Proof.Machine

-- the dance image (R215)

/-- A failure of Table 9.11: code, directory entry, index. -/
abbrev DFail := Byte × Nat × Nat

/-- A failure of the header or of the placement. -/
def dHead (code : Byte) : DFail := (code, 0x7F, 0xFFFFFF)

/-- A failure of a directory entry. -/
def dEnt (code : Byte) (k : Nat) : DFail := (code, k, 0xFFFFFF)

/-- The first directory entry of an image that fails a check. -/
def DanceImg.firstEnt (d : DanceImg) (code : Byte) (bad : Nat → Bool) : Option DFail :=
  ((List.range d.nProg).find? bad).map (dEnt code)

/-- The first instruction of a program that fails a check: its index. -/
def firstOp (bad : Nat → Option DOp → Bool) : Nat → List (Option DOp) → Option Nat
  | _, [] => none
  | i, o :: r => if bad i o then some i else firstOp bad (i + 1) r

/-- The first instruction of an image that fails a check: programs in directory order, instructions in index order. -/
def DanceImg.firstInstr (d : DanceImg) (code : Byte) (bad : Nat → Nat → Option DOp → Bool) : Option DFail :=
  (List.range d.nProg).findSome? fun k => (firstOp (bad k) 0 (d.ops k)).map fun i => (code, k, i)

/-- An immediate outside its stated range (R191, R194, R200, R203). -/
def opRange (targets : List Nat) (o : Option DOp) : Bool :=
  match o with
  | some (.mov _ _ _ len) => len % 2 != 0 || decide (len < 2) || decide (65536 < len)
  | some (.ldw _ _ len) => len % 64 != 0 || decide (len < 64) || decide (1572864 < len)
  | some (.ldp _ table _ first count) => decide ((if table then 1024 else 16) < first + count)
  | some (.clr _ n) | some (.req _ _ _ _ n) => decide (n < 1) || decide (1024 < n)
  | some (.arrive b) | some (.wait b) | some (.arriveWait b) => targets.getD b.val 0 == 0
  | _ => false

/-- A branch past the end of its program. -/
def opTarget (n : Nat) (o : Option DOp) : Bool :=
  match o with
  | some (.br _ _ _ t) | some (.lend _ t) => decide (n ≤ t)
  | _ => false

/-- The instruction may end a program. -/
def opTail (o : Option DOp) : Bool :=
  match o with
  | some .endProg => true
  | some (.br c _ _ _) => c == 0
  | _ => false

/-- An instruction that partition 0x40 may not hold. -/
def opShape (i : Nat) (o : Option DOp) : Bool :=
  match o with
  | some (.ldw ..) => true
  | some (.lset _ useReg _ _) => useReg
  | some (.br c _ _ t) => c != 0 && decide (t ≤ i)
  | _ => false

/-- Layers that an image names in SEED. -/
def DanceImg.seeds (d : DanceImg) : List Nat :=
  ((List.range d.nProg).flatMap fun k => (d.ops k).filterMap fun o => match o with | some (.seed y) => some y | _ => none).eraseDups

/-- Rows 3 and 4 of Table 9.11 over the image as read: the directory or a program outside LENGTH, then the CRC. -/
def ckDanceLength (d : DanceImg) : Option DFail :=
  if d.length < dirOff d.nProg then some (dHead 3)
  else (d.firstEnt 3 fun k => decide (d.length < d.entImg k + 8 * d.entN k)).or
    (if crc32 ((d.bytes.take d.length).drop 20) != BitVec.ofNat 32 (uN d.bytes 16 4) then some (dHead 4) else none)

/-- Row 5: reserved fields of the header, then of each entry and its instructions. -/
def ckDanceReserved (d : DanceImg) : Option DFail :=
  if nonZero d.bytes 20 12 then some (dHead 5)
  else (List.range d.nProg).findSome? fun k =>
    if nonZero d.bytes (dirOff k + 1) 3 || u8 d.bytes (dirOff k + 7) != 0 then some (dEnt 5 k)
    else (firstOp (fun _ o => o.isNone) 0 (d.ops k)).map fun i => (5, k, i)

/-- Rows 6 to 11. -/
def ckDanceBody (s : State) (pid : Nat) (d : DanceImg) : Option DFail :=
  (if (s.wax.img.part? d.pid).isNone || d.pid != pid || (d.waxVer != 0 && d.waxVer != tabGet 0 s.wax.pver pid) then some (dHead 6)
    else none)
  |>.or (d.firstEnt 7 fun k => s.wax.img.owner? (d.entHive k) != some pid || decide (95 < d.entHive k) ||
      (k != 0 && decide (d.entHive k ≤ d.entHive (k - 1))) || decide (1572864 < d.entCs k + 8 * d.entN k))
  |>.or (if d.nProg = 0 || decide (96 < d.nProg) || d.targets.any (fun t => decide (6144 < t)) then some (dHead 8) else none)
  |>.or ((List.range d.nProg).findSome? fun k =>
      if d.entN k = 0 || d.entImg k % 8 != 0 || d.entCs k % 8 != 0 then some (dEnt 8 k)
      else (firstOp (fun _ o => opRange d.targets o) 0 (d.ops k)).map fun i => (8, k, i))
  |>.or (d.firstInstr 9 fun k _ o => opTarget (d.entN k) o)
  |>.or (d.firstInstr 0x0A fun _ _ o => match o with | some (.seed y) => (s.wax.img.layer? pid y).isNone | _ => false)
  |>.or ((List.range d.nProg).findSome? fun k =>
      if opTail ((d.ops k).getD (d.entN k - 1) none) then none else some (0x0B, k, d.entN k - 1))

/-- The environment of the cost model for an image of partition 0x40. -/
def State.xEnv (s : State) (d : DanceImg) (x : ExpressRec) : XEnv := {
  wax := s.wax.img, pcol := s.rpr.pcol, q := s.winSize 0x40, maxSteps := x.maxSteps, maxCyc := x.maxCyc, targets := d.targets
  progs := (List.range d.nProg).map d.ops }

/-- Rows 12 to 14, for partition 0x40 (R216): the failure and the figures CYC and STEPS. -/
def ckDanceExpress (s : State) (d : DanceImg) : Option DFail × Option (Nat × Nat) :=
  match s.wax.img.express with
  | none => (none, none)
  | some x =>
    match d.firstInstr 0x10 fun _ i o => opShape i o with
    | some f => (some f, none)
    | none =>
      let hs := (List.range d.nProg).map fun k => (hiveOf? (d.entHive k)).getD 0
      let r := runModel (s.xEnv d x) hs (s.firstLayer 0x40)
      let cyc := r.ends.foldl max 0
      let fig := some (cyc, r.steps.foldl max 0)
      match (List.range d.nProg).find? fun k => decide (x.maxSteps < r.steps.getD k 0) with
      | some k => (some (0x11, k, (r.stepAt.getD k none).getD 0), fig)
      | none =>
        if cyc ≤ x.maxCyc then (none, fig)
        else
          let k := ((List.range d.nProg).find? fun k => decide (x.maxCyc < r.ends.getD k 0)).getD 0
          (some (0x12, k, r.cycAt.getD k 0), fig)

-- reading the supers

/-- Bytes of the supers; none when one of them is uncorrectable (R227). -/
def State.mediaRead (s : State) (a n : Nat) : Option (List Byte) :=
  if (s.ueIn a n).isEmpty then some (memReadN s.sup.mem a n) else none

/-- The uncorrectable words that the load meets end it with MEDIA and are noted (R227, R236). -/
def mediaFail (a n : Nat) (s : State) : LoadRes × State := ({ code := 8 }, noteUe (s.ueIn a n) s)

-- descriptor entries (Table 10.3)

/-- An entry as bytes. -/
def readEnt (b : List Byte) : MdlEnt := {
  hive := (hiveOf? (u8 b 0)).getD 0, layer := u8 b 1
  kind := match u8 b 2 with | 0 => .weights | 1 => .fixed | _ => .scratch
  csOff := uN b 4 4, len := uN b 8 4, src := uN b 16 8 }

/-- RESERVED of an entry. -/
def entReserved (b : List Byte) : Bool := nonZero b 3 1 || nonZero b 12 4 || decide (2 < u8 b 2)

/-- ENTRY of an entry (Table 10.4). -/
def entBad (s : State) (pid : Nat) (d : DanceImg) (b : List Byte) : Bool :=
  let e := readEnt b
  let cap := if pid = 0x40 then s.expressX * 1024 else 1572864
  !((List.range d.nProg).any fun k => d.entHive k == u8 b 0) ||
  e.csOff % 64 != 0 || e.len % 64 != 0 || e.len = 0 || e.src % 64 != 0 || decide (cap < e.csOff + e.len) ||
  decide (s.caBytes (s.wax.img.colonyOf pid) < e.src + e.len) ||
  (e.kind == .weights && !(((s.wax.img.layer? pid e.layer).map fun l => l.hmask.getLsbD e.hive.val).getD false)) ||
  (e.kind != .weights && e.layer != 0) || (pid = 0x40 && e.kind == .scratch && e.src != 0)

/-- Read and check n entries from an address on, in order: the entries, or CODE and the state with an uncorrectable word
noted. -/
def ckEntries (s : State) (pid : Nat) (d : DanceImg) : Nat → Nat → List MdlEnt → Except Byte (List MdlEnt)
  | _, 0, acc => .ok acc.reverse
  | a, n + 1, acc =>
    match s.mediaRead a 24 with
    | none => .error 8
    | some b =>
      if entReserved b then .error 3
      else if entBad s pid d b then .error 6
      else ckEntries s pid d (a + 24) n (readEnt b :: acc)

/-- The address of the entry at which the reading met an uncorrectable word. -/
def badEntAt (s : State) : Nat → Nat → Nat
  | a, 0 => a
  | a, n + 1 => if (s.ueIn a 24).isEmpty then badEntAt s (a + 24) n else a

-- overlaps and the plan

/-- The ranges of a hive: its program region and its entries. -/
def hiveRanges (ents : List MdlEnt) (d : DirEnt) : List (Nat × Nat) :=
  (d.csOff, 8 * d.nInstr) :: (ents.filter fun e => e.hive == d.hive).map fun e => (e.csOff, e.len)

/-- Two ranges of a list share a byte. -/
def anyOverlap : List (Nat × Nat) → Bool
  | [] => false
  | (a, n) :: r => r.any (fun x => overlaps a n x.1 x.2) || anyOverlap r

/-- top(U). -/
def topOf (ents : List MdlEnt) (d : DirEnt) (u : List Nat) : Nat :=
  ((ents.filter fun e => e.hive == d.hive && (e.kind != .weights || !u.contains e.layer)).map fun e => e.csOff + e.len).foldl max
    (d.csOff + 8 * d.nInstr)

/-- The round size of a layer on a hive. -/
def roundSize (s : State) (pid : Nat) (h : HiveId) (l : Nat) : Nat :=
  match shapeFor s.wax.img pid l h 0 0xFF with
  | some sh => sh.combs.length * sh.sub * sh.local_ * 2
  | none => 0

/-- spill(U). -/
def spillFor (s : State) (pid : Nat) (h : HiveId) (u : List Nat) : Nat :=
  if u.isEmpty then 0 else 2 * (((u.map (roundSize s pid h)).foldl max 0 + 4095) / 4096 * 4096)

/-- Insert a layer with its highest CS_OFF into a list in descending order. -/
def insLayer (x : Nat × Nat) : List (Nat × Nat) → List (Nat × Nat)
  | [] => [x]
  | y :: r => if y.2 < x.2 then x :: y :: r else y :: insLayer x r

/-- Layers with WEIGHTS on a hive, highest CS_OFF first (R229). -/
def layersBy (ents : List MdlEnt) (h : HiveId) : List Nat :=
  let ws := ents.filter fun e => e.hive == h && e.kind == .weights
  ((((ws.map (·.layer)).eraseDups).map fun l =>
    (l, ((ws.filter fun e => e.layer == l).map (·.csOff)).foldl max 0)).foldr insLayer []).map (·.1)

/-- Grow U layer by layer until it fits (R229). -/
def growU (fits : List Nat → Bool) : List Nat → List Nat → Option (List Nat)
  | u, [] => if fits u then some u else none
  | u, l :: r => if fits u then some u else growU fits (u ++ [l]) r

/-- KiB, rounded up, by which a exceeds b. -/
def kibOver (a b : Nat) : Nat := (a - b + 1023) / 1024

/-- The plan of one hive (R229) with its shortfall (Table 10.5). -/
def hivePlan (s : State) (pid : Nat) (ents : List MdlEnt) (d : DirEnt) : HivePlan :=
  let q := s.winSize pid
  let need := fun u => topOf ents d u + spillFor s pid d.hive u
  let ls := layersBy ents d.hive
  if need [] ≤ q then { hive := d.hive, plan := .resident, layers := [], spill := 0, shortKib := 0 }
  else if pid = 0x40 then { hive := d.hive, plan := .nofit, layers := [], spill := 0, shortKib := kibOver (need []) q }
  else match growU (fun u => decide (need u ≤ q)) [] ls with
  | some u => { hive := d.hive, plan := .supered, layers := u, spill := spillFor s pid d.hive u, shortKib := kibOver (need []) q }
  | none => { hive := d.hive, plan := .nofit, layers := [], spill := 0, shortKib := kibOver (need ls) q }

/-- The directory of an image. -/
def DanceImg.dir (d : DanceImg) : List DirEnt :=
  (List.range d.nProg).map fun k =>
    { hive := (hiveOf? (d.entHive k)).getD 0, nInstr := d.entN k, imgOff := d.entImg k, csOff := d.entCs k }

/-- Some instruction of an image. -/
def DanceImg.anyOp (d : DanceImg) (f : DOp → Bool) : Bool := (List.range d.nProg).any fun k => (d.ops k).any fun o => o.any f

/-- SYNC. -/
def DOp.isSync : DOp → Bool
  | .arrive .. | .wait .. | .arriveWait .. => true
  | _ => false

/-- MOV. -/
def DOp.isMov : DOp → Bool
  | .mov .. => true
  | _ => false

/-- The model of a descriptor that passed its checks, with its plan. -/
def mkModel (s : State) (pid : PartId) (image : Nat) (d : DanceImg) (ents : List MdlEnt) : Model := {
  part := pid, waxVer := d.waxVer, targets := d.targets, dir := d.dir, image := image, seeds := d.seeds
  layers := (s.firstLayer pid.val :: d.seeds).eraseDups
  usesSync := d.anyOp DOp.isSync, usesMov := d.anyOp DOp.isMov, ents := ents, plans := d.dir.map (hivePlan s pid.val ents) }

-- the load (R227, R228)

/-- The partition of a number up to 0x40. -/
def partOf? (n : Nat) : Option PartId := if h : n < 65 then some ⟨n, h⟩ else none

/-- Supers ranges that the copies of a model read (R228). -/
def copyRanges (s : State) (m : Model) : List (Nat × Nat) :=
  m.dir.flatMap fun d => m.srcRanges s d.hive

/-- Copy a model to its hives. -/
def copyAll (m : Model) : List HiveId → State → State
  | [], s => s
  | h :: r, s => copyAll m r (if (s.hv h).pwrOff then s else copyModel m h h s)

/-- Steps 3 and 4 of R227 and the copies, for an image that passed. -/
def loadEntries (pid : PartId) (nEnt image : Nat) (d : DanceImg) (exp : Option (Nat × Nat)) (s : State) : LoadRes × State :=
  let at_ := s.mld.at_ + 32
  let dld := some ((0 : Byte), 0, 0)
  if nEnt < 1 || 8192 < nEnt then ({ code := 6, dld := dld, exp := exp }, s)
  else match ckEntries s pid.val d at_ nEnt [] with
  | .error c =>
    let t := if c = 8 then (mediaFail (badEntAt s at_ nEnt) 24 s).2 else s
    ({ code := c, dld := dld, exp := exp }, t)
  | .ok ents =>
    if d.dir.any fun e => anyOverlap (hiveRanges ents e) then ({ code := 7, dld := dld, exp := exp }, s)
    else
      let m := mkModel s pid image d ents
      match (copyRanges s m).find? fun x => !(s.ueIn x.1 x.2).isEmpty with
      | some (a, n) => ({ code := 8, dld := dld, exp := exp }, (mediaFail a n s).2)
      | none => ({ model := some m, dld := dld, exp := exp }, copyAll m (m.dir.map (·.hive)) s)

/-- The dance image of a descriptor (step 2 of R227), then the rest. -/
def loadImage (pid : PartId) (nEnt off : Nat) (s : State) : LoadRes × State :=
  let col := s.wax.img.colonyOf pid.val
  let size := s.caBytes col
  let a := s.caAddr col + off
  let fail := fun (f : DFail) (e : Option (Nat × Nat)) => (({ code := 5, dld := some f, exp := e } : LoadRes), s)
  if size < off + 96 then fail (dHead 3) none
  else match s.mediaRead a 96 with
  | none => mediaFail a 96 s
  | some hd =>
    let len := uN hd 12 4
    if hd.take 4 != [0x53, 0x4B, 0x44, 0x43] then fail (dHead 1) none
    else if uN hd 4 2 != 1 then fail (dHead 2) none
    else if len % 8 != 0 || 16777216 < len || off % 64 != 0 || size < off + len then fail (dHead 3) none
    else match s.mediaRead a len with
    | none => mediaFail a len s
    | some bs =>
      let d := readDance bs
      match (ckDanceLength d).or ((ckDanceReserved d).or (ckDanceBody s pid.val d)) with
      | some f => fail f none
      | none =>
        let x := if pid.val = 0x40 then ckDanceExpress s d else (none, none)
        match x.1 with
        | some f => fail f x.2
        | none => loadEntries pid nEnt a d x.2 s

/-- The partition of a descriptor may be loaded: in force, with supers, and not sealed (Table 10.4, R386). -/
def State.loadable (s : State) (pid : PartId) : Bool :=
  let col := s.wax.img.colonyOf pid.val
  (s.wax.img.part? pid.val).isSome && s.caBytes col != 0 &&
  !(pid.val != 0x40 && ((colOf? pid.val).map s.isSealed).getD false)

/-- The checks and copies of a load (R227). -/
def performLoad (s : State) : LoadRes × State :=
  let a := s.mld.at_
  match s.mediaRead a 32 with
  | none => mediaFail a 32 s
  | some b =>
    if b.take 4 != [0x53, 0x4B, 0x4D, 0x44] then ({ code := 2 }, s)
    else if nonZero b 5 3 || nonZero b 12 4 || nonZero b 24 8 then ({ code := 3 }, s)
    else match partOf? (u8 b 4) with
    | none => ({ code := 4 }, s)
    | some pid => if s.loadable pid then loadImage pid (uN b 8 4) (uN b 16 8) s else ({ code := 4 }, s)

/-- MODEL_LOAD_GO (R227): GO is written. -/
def goLoad (s : State) : State :=
  if s.mld.busy then s
  else
    let a := alignDown s.mld.src.toNat 6 % 2 ^ 35
    let p := partOf? (memRead s.sup.mem (a + 4)).toNat
    let s := { s with mld := { s.mld with busy := true, code := 1, at_ := a, hold := p, result := none } }
    if p == some 0x40 then reclaimLent allHives s else s

/-- MODEL_LOAD_GO (R227). -/
def execModelLoadGo (s : State) : Host.Outcome State Fault Refusal := .next (goLoad s)

/-- The partition of the load has no job running, and no hive of partition 0x40 is lent. -/
def State.loadFree (s : State) : Bool :=
  match s.mld.hold with
  | none => true
  | some p => (s.runningOf p.val).isEmpty && (p.val != 0x40 || s.noneLent)

/-- MODEL_LOAD_PERFORM (R227, R228). -/
def execModelLoadPerform (s : State) : Host.Outcome State Fault Refusal :=
  if s.mld.busy && s.mld.result.isNone && s.loadFree then
    let r := performLoad s
    .next { r.2 with mld := { r.2.mld with result := some r.1 } }
  else .next s

/-- What a load writes to QN_DLD_STAT, QN_DLD_POS and QN_DLD_EXP, when it checked a dance image (R215, R216). -/
def putDld (r : LoadRes) (m : MldSt) : MldSt :=
  match r.dld with
  | none => m
  | some (c, k, i) =>
    { m with
      dldCode := c, dldProg := BitVec.ofNat 7 k, dldPos := BitVec.ofNat 24 i
      expCyc := BitVec.ofNat 11 (min 0x7FF ((r.exp.map (·.1)).getD 0)), expSteps := BitVec.ofNat 5 (min 0x1F ((r.exp.map (·.2)).getD 0)) }

/-- PLAN as its code. -/
def Plan.code : Plan → BitVec 2
  | .resident => 0
  | .supered => 1
  | .nofit => 2

/-- What a load that succeeded writes to PLAN, N_SUPERED and QN_MLD_SHORT (R228). -/
def putPlan (x : Model) (m : MldSt) : MldSt :=
  { m with
    plan := x.plan.code, nSup := BitVec.ofNat 8 (min 255 ((x.plans.map fun p => p.layers.length).sum))
    shortKib := match x.plan with
      | .resident => 0
      | k => BitVec.ofNat 24 (x.short k) }

/-- MODEL_LOAD_DONE (R228). -/
def execModelLoadDone (s : State) : Host.Outcome State Fault Refusal :=
  match s.mld.result with
  | none => .next s
  | some r =>
    let m := putDld r { s.mld with busy := false, hold := none, result := none, code := r.code }
    match r.model with
    | none => .next { s with mld := m }
    | some x => .next { s with mld := putPlan x m, models := x :: s.models.filter fun y => y.part != x.part }

end Sys2Proof.Machine
end

