-- ==== Sys2Proof/Machine/ParnikPort.lean ====
section
/-! DEFINITION. Machine/ParnikPort.lean: the Parnik sampling port of a VF (R59 to R64). The row of a read stands in
Machine/Regs.lean, with the reads of the other registers. -/

namespace Sys2Proof.Machine

/-- Change the sampling port of a colony. -/
def updSp (c : ColId) (f : SpPort → SpPort) (s : State) : State := updVf c (fun r => { r with sp := f r.sp }) s

/-- The sampling port of a colony. -/
def State.sp (s : State) (c : ColId) : SpPort := (s.co c).r.sp

/-- The value at the key, stream id and position of the port in its format (R59). -/
def SpPort.value (x : SpPort) : Word := parnikFmt x.fmt.toNat (parnik x.key x.sid x.pos)

/-- The port after a read that returns a value: the position advances modulo 2^32 and WRAP tells of the wrap (R59, R62). -/
def SpPort.next (x : SpPort) : SpPort :=
  { x with pos := x.pos + 1, stat := if x.pos = 0xFFFFFFFF then setBit x.stat 4 else x.stat }

/-- A read of PRK_SP_DATA: 0 and EARLY while a hardware seed is pending, else the value (R59, R62). -/
def spDataRead (c : ColId) (s : State) : Word × State :=
  if (s.sp c).busy then (0, updSp c (fun x => { x with stat := setBit x.stat 3 }) s)
  else ((s.sp c).value, updSp c SpPort.next s)

/-- Take the seeds of a port off the seed wire. -/
def dropSpSeeds (c : ColId) (s : State) : State := updEn (fun e => { e with wire := e.wire.filter fun x => x.1 != .sp c }) s

/-- PRK_SP_KEY_HI_WRITE (R60, R64): the software key is committed; a pending HWKEY request is cancelled. -/
def execPrkSpKeyHiWrite (c : ColId) (v : Word) (s : State) : Host.Outcome State Fault Refusal :=
  .next (unthrottle (updSp c (fun x => { x with key := pairOf v x.keyLo, hwk := false, busy := false }) s))

/-- HWKEY (R61): one hardware seed is requested, or refused by a halted expander; ignored while BUSY = 1. -/
def execHwkey (c : ColId) (s : State) : Host.Outcome State Fault Refusal :=
  .next (if (s.sp c).busy then s
    else if s.guard.en.dead then updSp c (fun x => { x with stat := setBit x.stat 2 }) s
    else updSp c (fun x => { x with busy := true }) (dropSpSeeds c s))

/-- SP_SEED_ARRIVE (R61, R64): the seed becomes the key while its request is pending, else it is discarded. -/
def execSpSeedArrive (c : ColId) (s : State) : Host.Outcome State Fault Refusal :=
  match s.guard.en.wire.find? fun x => x.1 == Consumer.sp c with
  | none => .next s
  | some (_, k) =>
    let t := dropSpSeeds c s
    .next (if (s.sp c).busy then updSp c (fun x => { x with key := k, hwk := true, busy := false }) t else t)

end Sys2Proof.Machine
end

