-- ==== Sys2Proof/Machine/RegMap.lean ====
section
/-! DEFINITION. Machine/RegMap.lean: the registers and the decoding of their addresses (R515, R516, Tables 24.1, 24.3 and
24.4). A 64-bit pair is one register with `hi` telling its half. -/

namespace Sys2Proof.Machine

/-- Registers of the CAP block. -/
inductive CapReg
  | id | boot | bootTime | rst | alarm | temp | romIdx | romData
  deriving DecidableEq, Repr

/-- Registers of the QN block. -/
inductive QnReg
  | dldStat | dldPos | dldExp | src (hi : Bool) | cmd | stat | short
  deriving DecidableEq, Repr

/-- Registers of the TB block. -/
inductive TbReg
  | ctl | stat | evt | time (hi : Bool) | offs | ftrim | setsec | cmd
  deriving DecidableEq, Repr

/-- Registers of the PWR block. -/
inductive PwrReg
  | stat | evt | bkup | charge | inA | inB | railIdx | railData | cnt
  deriving DecidableEq, Repr

/-- Registers of the RPR block. -/
inductive RprReg
  | stat | evt | cap | barren (k : Fin 3) | inspCfg | inspCmd | inspStat | mapIdx | mapW (hi : Bool) | logIdx | logHead
  | logW (k : Fin 4) | cmd
  deriving DecidableEq, Repr

/-- Registers of the WAX block. -/
inductive WaxReg
  | cmd | stat | src (hi : Bool) | wdog | drain | evt | slot | ver | prevVer | gen | boot | chkStat | chkOffs | pver (p : PartId)
  deriving DecidableEq, Repr

/-- Registers of the GRD block. -/
inductive GrdReg
  | stat | rst | enCfg | enEvt | bias | corr (k : Fin 4) | htStat | drbgCnt | drbgRseed | rngData | rngStat
  | rawCtl | rawStat | rawData | tpCtl | tpPat
  | cmd | cmdStat | cmdSrc (hi : Bool) | keyStat | keyGen | seal (hi : Bool) | sealEvt | sealCnt | sealCfg | ceCtl | ceStat
  deriving DecidableEq, Repr

/-- Registers of the EXO block. -/
inductive ExoReg
  | swCfg | stby (hi : Bool) | swCmd | swStat | swEvt | failStn | memb (hi : Bool) | span (c : ColId) (hi : Bool) | lctl
  | pctl (p : PortId) | pstat (p : PortId) | pevt (p : PortId) | ploss (p : PortId) | pmap (p : PortId) | plink (p : PortId)
  | popt (p : PortId)
  /-- EXO_PCRC, EXO_PRTY, EXO_PTXF and EXO_PRXF. -/
  | pcnt (p : PortId) (k : Fin 4) (hi : Bool)
  deriving DecidableEq, Repr

/-- Registers of the PHX block. -/
inductive PhxReg
  | gstat | temp | ctl (b : BankId) | stat (b : BankId) | evt (b : BankId) | loss (b : BankId) | err (b : BankId)
  | calIdx (b : BankId) | calData (b : BankId)
  deriving DecidableEq, Repr

/-- Registers of the SUP block. -/
inductive SupReg
  | stat | evt | bar2 | ueAddr (hi : Bool) | ceCnt
  /-- SUP_CA_BASE, SUP_CA_SIZE and SUP_CS_QUOTA. -/
  | alloc (c : ColId) (k : Fin 3)
  deriving DecidableEq, Repr

/-- Registers of the FOR block. -/
inductive ForReg
  | base (hi : Bool) | cfg | tail | head | stat | bytes (hi : Bool)
  deriving DecidableEq, Repr

/-- Registers of the OVS block. -/
inductive OvsReg
  | gctl | rctl (r : RowId) | rstat (r : RowId) | revt (r : RowId)
  /-- OVS_RSLAB, OVS_RRPL and OVS_RTOL. -/
  | rcnt (r : RowId) (k : Fin 3) (hi : Bool)
  | rstorm (r : RowId) | hreq (h : HiveId)
  deriving DecidableEq, Repr

/-- Registers of the OBS block. -/
inductive ObsReg
  | ctl | evt | csel | cval (hi : Bool) | snapTb (hi : Bool) | glCtl | glBase (hi : Bool) | glSize | glWr | glRd | glWm | glDrop
  | glMark | hmask (k : Fin 3) | cmask (hi : Bool) | smpCtl | smpDst (hi : Bool) | smpStat
  deriving DecidableEq, Repr

/-- Registers of a hive. -/
inductive HiveReg
  | id | stat | ctl | evt | fault | dncCtl | dncStat | dncPc | psIdx | psData | actIdx | actData | mshStat
  deriving DecidableEq, Repr

/-- Registers of a VF's BAR0. -/
inductive VfReg
  | dbSq (q : Fin 4) | dbCq | cqBase (hi : Bool) | cqCfg | cqMod | cqTail | sqBase (q : Fin 4) (hi : Bool) | sqCfg (q : Fin 4)
  | sqHead (q : Fin 4)
  /-- Word w of the express mailbox. -/
  | mail (w : Fin 128)
  | xpKey (hi : Bool) | xpDst (hi : Bool) | xpCpl (hi : Bool) | xpIn | xpOut | xpLen | xpG2 | xpVer | xpUser | xpDb
  | stat | err | errPos | ctl | cancel | res (hi : Bool) | xres (hi : Bool)
  | spKey (hi : Bool) | spSid | spPos | spCtl | spData | spStat
  | tbTime (hi : Bool) | tbQual
  deriving DecidableEq, Repr

/-- A register, or a word of an MSI-X table entry or of a Pending Bit Array. -/
inductive Reg
  | cap (r : CapReg) | qn (r : QnReg)
  /-- COL_PCFG and COL_PSTAT of a colony. -/
  | col (c : ColId) (stat : Bool)
  | tb (r : TbReg) | pwr (r : PwrReg) | rpr (r : RprReg) | wax (r : WaxReg) | grd (r : GrdReg) | exo (r : ExoReg)
  | phx (r : PhxReg) | sup (r : SupReg) | forg (k : ChanId) (r : ForReg) | irqSum
  | msix (f : Fn) (v : Nat) (w : Fin 4) | pba (f : Fn) (hi : Bool)
  | ovs (r : OvsReg) | obs (r : ObsReg) | hive (h : HiveId) (r : HiveReg)
  | vf (c : ColId) (r : VfReg)
  deriving DecidableEq, Repr

/-- The register has W1C fields; none of these holds a field of type RW beside them (R6, R9). -/
def Reg.hasW1c : Reg → Bool
  | .tb r => r == .stat || r == .evt
  | .pwr r => r == .evt
  | .rpr r => r == .evt
  | .wax r => r == .evt
  | .grd r => [GrdReg.enEvt, .rngStat, .rawStat, .keyStat, .sealEvt].contains r
  | .exo r => match r with
    | .swEvt | .pevt _ => true
    | _ => false
  | .phx r => match r with
    | .evt _ => true
    | _ => false
  | .sup r => r == .evt
  | .forg _ r => r == .stat
  | .ovs r => match r with
    | .revt _ => true
    | _ => false
  | .obs r => r == .evt
  | .hive _ r => r == .evt || r == .mshStat
  | .vf _ r => r == .stat || r == .err || r == .spStat
  | _ => false

/-- Number n below 4, 8 and so on as a unit number. -/
def unit (n m : Nat) [NeZero n] : Fin n := Fin.ofNat n m

/-- CAP block (Table 24.3). -/
def capReg (o : Nat) : Option CapReg :=
  match o with
  | 0x0 => some .id | 0x10 => some .boot | 0x14 => some .bootTime | 0x18 => some .rst | 0x20 => some .alarm | 0x24 => some .temp
  | 0x100 => some .romIdx | 0x104 => some .romData
  | _ => none

/-- QN block. -/
def qnReg (o : Nat) : Option QnReg :=
  match o with
  | 0x200 => some .dldStat | 0x204 => some .dldPos | 0x208 => some .dldExp | 0x210 => some (.src false)
  | 0x214 => some (.src true) | 0x218 => some .cmd | 0x21C => some .stat | 0x220 => some .short
  | _ => none

/-- TB block. -/
def tbReg (o : Nat) : Option TbReg :=
  match o with
  | 0x0 => some .ctl | 0x4 => some .stat | 0x8 => some .evt | 0x10 => some (.time false) | 0x14 => some (.time true)
  | 0x18 => some .offs | 0x1C => some .ftrim | 0x20 => some .setsec | 0x24 => some .cmd
  | _ => none

/-- PWR block. -/
def pwrReg (o : Nat) : Option PwrReg :=
  match o with
  | 0x0 => some .stat | 0x4 => some .evt | 0x8 => some .bkup | 0xC => some .charge | 0x10 => some .inA | 0x14 => some .inB
  | 0x20 => some .railIdx | 0x24 => some .railData | 0x28 => some .cnt
  | _ => none

/-- RPR block. -/
def rprReg (o : Nat) : Option RprReg :=
  match o with
  | 0x0 => some .stat | 0x4 => some .evt | 0x8 => some .cap | 0x10 => some (.barren 0) | 0x14 => some (.barren 1)
  | 0x18 => some (.barren 2) | 0x20 => some .inspCfg | 0x24 => some .inspCmd | 0x28 => some .inspStat | 0x30 => some .mapIdx
  | 0x34 => some (.mapW false) | 0x38 => some (.mapW true) | 0x40 => some .logIdx | 0x44 => some .logHead
  | 0x48 => some (.logW 0) | 0x4C => some (.logW 1) | 0x50 => some (.logW 2) | 0x54 => some (.logW 3) | 0x60 => some .cmd
  | _ => none

/-- WAX block. -/
def waxReg (o : Nat) : Option WaxReg :=
  match o with
  | 0x0 => some .cmd | 0x4 => some .stat | 0x8 => some (.src false) | 0xC => some (.src true) | 0x10 => some .wdog
  | 0x14 => some .drain | 0x18 => some .evt | 0x20 => some .slot | 0x24 => some .ver | 0x28 => some .prevVer
  | 0x2C => some .gen | 0x30 => some .boot | 0x40 => some .chkStat | 0x44 => some .chkOffs
  | _ => if 0x100 ≤ o && o ≤ 0x200 && o % 4 == 0 then some (.pver (unit 65 ((o - 0x100) / 4))) else none

/-- GRD block. -/
def grdReg (o : Nat) : Option GrdReg :=
  match o with
  | 0x4 => some .stat | 0x8 => some .rst | 0x100 => some .enCfg | 0x104 => some .enEvt | 0x108 => some .bias
  | 0x10C => some (.corr 0) | 0x110 => some (.corr 1) | 0x114 => some (.corr 2) | 0x118 => some (.corr 3)
  | 0x11C => some .htStat | 0x120 => some .drbgCnt | 0x124 => some .drbgRseed | 0x180 => some .rngData | 0x184 => some .rngStat
  | 0x1C0 => some .rawCtl | 0x1C4 => some .rawStat | 0x1C8 => some .rawData | 0x1E0 => some .tpCtl | 0x1E4 => some .tpPat
  | 0x200 => some .cmd | 0x204 => some .cmdStat | 0x208 => some (.cmdSrc false) | 0x20C => some (.cmdSrc true)
  | 0x210 => some .keyStat | 0x214 => some .keyGen | 0x220 => some (.seal false) | 0x224 => some (.seal true)
  | 0x228 => some .sealEvt | 0x22C => some .sealCnt | 0x230 => some .sealCfg | 0x240 => some .ceCtl | 0x244 => some .ceStat
  | _ => none

/-- Port registers of the EXO block, from the port's own start. -/
def portReg (p : PortId) (o : Nat) : Option ExoReg :=
  match o with
  | 0x0 => some (.pctl p) | 0x4 => some (.pstat p) | 0x8 => some (.pevt p) | 0xC => some (.ploss p) | 0x10 => some (.pmap p)
  | 0x14 => some (.plink p) | 0x18 => some (.popt p)
  | _ => if 0x20 ≤ o && o < 0x40 && o % 4 == 0 then some (.pcnt p (unit 4 ((o - 0x20) / 8)) (o % 8 == 4)) else none

/-- EXO block. -/
def exoReg (o : Nat) : Option ExoReg :=
  match o with
  | 0x0 => some .swCfg | 0x8 => some (.stby false) | 0xC => some (.stby true) | 0x10 => some .swCmd | 0x14 => some .swStat
  | 0x18 => some .swEvt | 0x1C => some .failStn | 0x20 => some (.memb false) | 0x24 => some (.memb true) | 0x800 => some .lctl
  | _ =>
    if 0x400 ≤ o && o < 0x600 && o % 4 == 0 then some (.span (unit 64 ((o - 0x400) / 8)) (o % 8 == 4))
    else if 0x1000 ≤ o && o < 0x1400 then portReg (unit 4 ((o - 0x1000) / 0x100)) (o % 0x100)
    else none

/-- Registers of one bank of the PHX block, from the bank's own start. -/
def bankReg (b : BankId) (o : Nat) : Option PhxReg :=
  match o with
  | 0x0 => some (.ctl b) | 0x4 => some (.stat b) | 0x8 => some (.evt b) | 0xC => some (.loss b) | 0x10 => some (.err b)
  | 0x14 => some (.calIdx b) | 0x18 => some (.calData b)
  | _ => none

/-- PHX block. -/
def phxReg (o : Nat) : Option PhxReg :=
  match o with
  | 0x4 => some .gstat | 0x8 => some .temp
  | _ => if 0x100 ≤ o && o < 0x300 then bankReg (unit 8 ((o - 0x100) / 0x40)) (o % 0x40) else none

/-- SUP block. -/
def supReg (o : Nat) : Option SupReg :=
  match o with
  | 0x0 => some .stat | 0x4 => some .evt | 0x8 => some .bar2 | 0x10 => some (.ueAddr false) | 0x14 => some (.ueAddr true)
  | 0x18 => some .ceCnt
  | _ =>
    if 0x100 ≤ o && o < 0x500 && o % 4 == 0 && o % 16 != 12 then some (.alloc (unit 64 ((o - 0x100) / 16)) (unit 3 (o % 16 / 4)))
    else none

/-- Registers of one channel of the FOR block, from the channel's own start. -/
def chanReg (o : Nat) : Option ForReg :=
  match o with
  | 0x0 => some (.base false) | 0x4 => some (.base true) | 0x8 => some .cfg | 0xC => some .tail | 0x10 => some .head
  | 0x14 => some .stat | 0x18 => some (.bytes false) | 0x1C => some (.bytes true)
  | _ => none

/-- Registers of one row of the OVS block, from the row's own start. -/
def rowReg (r : RowId) (o : Nat) : Option OvsReg :=
  match o with
  | 0x0 => some (.rctl r) | 0x4 => some (.rstat r) | 0x8 => some (.revt r) | 0x28 => some (.rstorm r)
  | _ => if 0x10 ≤ o && o < 0x28 && o % 4 == 0 then some (.rcnt r (unit 3 ((o - 0x10) / 8)) (o % 8 == 4)) else none

/-- OVS block. -/
def ovsReg (o : Nat) : Option OvsReg :=
  if o = 0 then some .gctl
  else if 0x100 ≤ o && o < 0x300 then rowReg (unit 8 ((o - 0x100) / 0x40)) (o % 0x40)
  else if 0x400 ≤ o && o < 0x580 && o % 4 == 0 then some (.hreq (unit 96 ((o - 0x400) / 4)))
  else none

/-- OBS block. -/
def obsReg (o : Nat) : Option ObsReg :=
  match o with
  | 0x0 => some .ctl | 0x4 => some .evt | 0x10 => some .csel | 0x14 => some (.cval false) | 0x18 => some (.cval true)
  | 0x20 => some (.snapTb false) | 0x24 => some (.snapTb true) | 0x100 => some .glCtl | 0x104 => some (.glBase false)
  | 0x108 => some (.glBase true) | 0x10C => some .glSize | 0x110 => some .glWr | 0x114 => some .glRd | 0x118 => some .glWm
  | 0x11C => some .glDrop | 0x120 => some .glMark | 0x130 => some (.hmask 0) | 0x134 => some (.hmask 1) | 0x138 => some (.hmask 2)
  | 0x140 => some (.cmask false) | 0x144 => some (.cmask true) | 0x200 => some .smpCtl | 0x204 => some (.smpDst false)
  | 0x208 => some (.smpDst true) | 0x20C => some .smpStat
  | _ => none

/-- HIVE block of one hive. -/
def hiveReg (o : Nat) : Option HiveReg :=
  match o with
  | 0x0 => some .id | 0x4 => some .stat | 0x8 => some .ctl | 0xC => some .evt | 0x10 => some .fault | 0x40 => some .dncCtl
  | 0x44 => some .dncStat | 0x48 => some .dncPc | 0x80 => some .psIdx | 0x84 => some .psData | 0x88 => some .actIdx
  | 0x8C => some .actData | 0xC0 => some .mshStat
  | _ => none

/-- MSI-X words of a function whose table starts at `base` and whose PBA starts at `base` + 0x800. -/
def msixReg (f : Fn) (base n o : Nat) : Option Reg :=
  if base ≤ o && o < base + n * 16 && o % 4 == 0 then some (.msix f ((o - base) / 16) (unit 4 (o % 16 / 4)))
  else if o = base + 0x800 then some (.pba f false)
  else if o = base + 0x804 then some (.pba f true)
  else none

/-- PF0 BAR0 (Tables 24.1 and 24.3); none at a reserved address. -/
def pf0Reg (a : Nat) : Option Reg :=
  let o := a % 0x10000
  if 0x1000000 ≤ a then
    if a < 0x1600000 then (hiveReg o).map (.hive (unit 96 ((a - 0x1000000) / 0x10000))) else none
  else match a / 0x10000 with
  | 0x0 => (capReg o).map .cap
  | 0x1 => (qnReg o).map .qn
  | 0x2 => if o % 0x400 = 0 then some (.col (unit 64 (o / 0x400)) false)
           else if o % 0x400 = 4 then some (.col (unit 64 (o / 0x400)) true) else none
  | 0x4 => (tbReg o).map .tb
  | 0x5 => (pwrReg o).map .pwr
  | 0x6 => (rprReg o).map .rpr
  | 0x7 => (waxReg o).map .wax
  | 0x8 => (grdReg o).map .grd
  | 0x9 => (exoReg o).map .exo
  | 0xA => (phxReg o).map .phx
  | 0xB => (supReg o).map .sup
  | 0xC => if 0x100 ≤ o && o < 0x500 then (chanReg (o % 0x40)).map (.forg (unit 16 ((o - 0x100) / 0x40))) else none
  | 0xD => if o = 0x1000 then some .irqSum else msixReg .pf0 0 64 o
  | 0xE => (ovsReg o).map .ovs
  | 0xF => (obsReg o).map .obs
  | _ => none

/-- Queue registers of a VF. -/
def vfQueueReg (o : Nat) : Option VfReg :=
  match o with
  | 0x0 => some (.dbSq 0) | 0x4 => some (.dbSq 1) | 0x8 => some (.dbSq 2) | 0xC => some (.dbSq 3) | 0x10 => some .dbCq
  | 0x1000 => some (.cqBase false) | 0x1004 => some (.cqBase true) | 0x1008 => some .cqCfg | 0x100C => some .cqMod
  | 0x1010 => some .cqTail
  | _ =>
    if 0x1040 ≤ o && o < 0x1080 && o % 4 == 0 then
      let q : Fin 4 := unit 4 ((o - 0x1040) / 16)
      match o % 16 / 4 with
      | 0 => some (.sqBase q false) | 1 => some (.sqBase q true) | 2 => some (.sqCfg q) | _ => some (.sqHead q)
    else none

/-- Registers of a VF's BAR0 (Table 24.4), its MSI-X words apart. -/
def vfOwnReg (o : Nat) : Option VfReg :=
  match o with
  | 0x2200 => some (.xpKey false) | 0x2204 => some (.xpKey true) | 0x2208 => some (.xpDst false) | 0x220C => some (.xpDst true)
  | 0x2210 => some (.xpCpl false) | 0x2214 => some (.xpCpl true) | 0x2218 => some .xpIn | 0x221C => some .xpOut
  | 0x2220 => some .xpLen | 0x2224 => some .xpG2 | 0x2228 => some .xpVer | 0x222C => some .xpUser | 0x2230 => some .xpDb
  | 0x3000 => some .stat | 0x3004 => some .err | 0x3008 => some .errPos | 0x300C => some .ctl | 0x3010 => some .cancel
  | 0x3020 => some (.res false) | 0x3024 => some (.res true) | 0x3028 => some (.xres false) | 0x302C => some (.xres true)
  | 0x4000 => some (.spKey false) | 0x4004 => some (.spKey true) | 0x4008 => some .spSid | 0x400C => some .spPos
  | 0x4010 => some .spCtl | 0x4014 => some .spData | 0x4018 => some .spStat
  | 0x5000 => some (.tbTime false) | 0x5004 => some (.tbTime true) | 0x5008 => some .tbQual
  | _ => if 0x2000 ≤ o && o < 0x2200 && o % 4 == 0 then some (.mail (unit 128 ((o - 0x2000) / 4))) else vfQueueReg o

/-- A VF's BAR0. -/
def vfReg (c : ColId) (o : Nat) : Option Reg :=
  match vfOwnReg o with
  | some r => some (.vf c r)
  | none => msixReg (.vf c) 0x6000 4 o

/-- Registers that PF0 and the Guard both reach ("PF0 and Guard", spec/15 to 17). -/
def Reg.guardToo : Reg → Bool
  | .tb .stat => true
  | .tb (.time _) => true
  | .grd r => match r with
    | .rst | .rawCtl | .rawStat | .rawData | .tpCtl | .tpPat => false
    | _ => true
  | _ => false

/-- A register of the CAP block, the one that responds in RECOVERY (R463). -/
def Reg.inCap : Reg → Bool
  | .cap _ => true
  | _ => false

/-- The register that a requester's address names; none where the address is reserved for it. -/
def regNamed (who : Req) (a : Nat) : Option Reg :=
  match who with
  | .pf0 => pf0Reg a
  | .vf c => vfReg c a
  | .guard => (pf0Reg a).filter Reg.guardToo

/-- The high half of the pair whose low half a register is (R407). MSI-X words and the PBA are no _LO/_HI pairs. -/
def Reg.hiOf : Reg → Option Reg
  | .qn (.src false) => some (.qn (.src true))
  | .tb (.time false) => some (.tb (.time true))
  | .wax (.src false) => some (.wax (.src true))
  | .grd (.cmdSrc false) => some (.grd (.cmdSrc true))
  | .grd (.seal false) => some (.grd (.seal true))
  | .exo (.stby false) => some (.exo (.stby true))
  | .exo (.memb false) => some (.exo (.memb true))
  | .exo (.span c false) => some (.exo (.span c true))
  | .exo (.pcnt p k false) => some (.exo (.pcnt p k true))
  | .sup (.ueAddr false) => some (.sup (.ueAddr true))
  | .forg k (.base false) => some (.forg k (.base true))
  | .forg k (.bytes false) => some (.forg k (.bytes true))
  | .ovs (.rcnt r k false) => some (.ovs (.rcnt r k true))
  | .obs (.cval false) => some (.obs (.cval true))
  | .obs (.snapTb false) => some (.obs (.snapTb true))
  | .obs (.glBase false) => some (.obs (.glBase true))
  | .obs (.cmask false) => some (.obs (.cmask true))
  | .obs (.smpDst false) => some (.obs (.smpDst true))
  | .vf c (.cqBase false) => some (.vf c (.cqBase true))
  | .vf c (.sqBase q false) => some (.vf c (.sqBase q true))
  | .vf c (.xpKey false) => some (.vf c (.xpKey true))
  | .vf c (.xpDst false) => some (.vf c (.xpDst true))
  | .vf c (.xpCpl false) => some (.vf c (.xpCpl true))
  | .vf c (.res false) => some (.vf c (.res true))
  | .vf c (.xres false) => some (.vf c (.xres true))
  | .vf c (.spKey false) => some (.vf c (.spKey true))
  | .vf c (.tbTime false) => some (.vf c (.tbTime true))
  | _ => none

/-- A register is the high half of a pair: the one four bytes below it is its low half. -/
def isHiHalf (who : Req) (a : Nat) : Bool :=
  match (regNamed who (a - 4)).bind Reg.hiOf with
  | some r => decide (4 ≤ a) && regNamed who a == some r
  | none => false

end Sys2Proof.Machine
end

