-- ==== Sys2Proof/Machine/RegRead.lean ====
section
/-! DEFINITION. Machine/RegRead.lean: what every register reads as (the field tables of spec/00 to spec/23). -/

namespace Sys2Proof.Machine

/-- A half of a 64-bit pair. -/
def half (hi : Bool) (d : DWord) : Word := if hi then hiHalf d else loHalf d

/-- A half of a pair that holds a supers address: _HI has address [34:32] only. -/
def halfSup (hi : Bool) (d : DWord) : Word := if hi then hiHalf d &&& 7 else loHalf d

/-- CAP registers. -/
def capRead (s : State) : CapReg → Word
  | .id => capId
  | .boot => s.capBoot
  | .bootTime => mkWord [(0, 24, s.boot.us.toNat)]
  | .rst => 0
  | .alarm => mkWord [(0, 6, s.alarm.toNat)]
  | .temp => mkWord [(0, 16, s.boot.tj.toNat), (16, 16, s.boot.peak.toNat)]
  | .romIdx => mkWord [(0, 11, s.boot.romIdx.toNat)]
  | .romData => parnikRom s.boot.romIdx.toNat

/-- QN registers. -/
def qnRead (s : State) : QnReg → Word
  | .dldStat => mkWord [(0, 8, s.mld.dldCode.toNat), (8, 7, s.mld.dldProg.toNat)]
  | .dldPos => mkWord [(0, 24, s.mld.dldPos.toNat)]
  | .dldExp => mkWord [(0, 11, s.mld.expCyc.toNat), (16, 5, s.mld.expSteps.toNat)]
  | .src hi => halfSup hi s.mld.src
  | .cmd => mkWord [(0, 1, b2n s.mld.busy)]
  | .stat => mkWord [(0, 8, s.mld.code.toNat), (8, 2, s.mld.plan.toNat), (16, 8, s.mld.nSup.toNat)]
  | .short => mkWord [(8, 24, s.mld.shortKib.toNat)]

/-- Jobs of a colony in flight, express included (COL_STAT.INFLIGHT). -/
def State.inflight (s : State) (c : ColId) : Nat := (s.jobs.filter fun j => j.isHome && j.col == c).length

/-- COL registers. -/
def colRead (s : State) (c : ColId) (stat : Bool) : Word :=
  let x := s.co c
  if stat then mkWord [(0, 9, s.inflight c), (9, 1, b2n (s.xpBusy c)), (10, 1, b2n x.resetBusy)]
  else mkWord [(0, 9, x.limit), (9, 1, b2n x.highOk), (10, 1, b2n x.lend)]

/-- A half of the timebase (R407). -/
def tbTime (s : State) (hi : Bool) : Word := if hi then s.tb.sec else mkWord [(0, 31, s.tb.sub)]

/-- TB registers. -/
def tbRead (s : State) : TbReg → Word
  | .ctl => mkWord [(0, 1, b2n s.tb.mode), (1, 1, b2n s.tb.poutEn), (2, 1, b2n s.tb.ppsEn)]
  | .stat => mkWord [(0, 2, s.tb.st.qual.toNat), (2, 2, s.tb.badrun.toNat), (4, 1, b2n (s.tb.slew != 0)),
      (8, 1, b2n s.tb.tornPf0), (9, 1, b2n s.tb.tornGrd)]
  | .evt => s.tb.evt
  | .time hi => tbTime s hi
  | .offs => s.tb.offs
  | .ftrim => BitVec.ofInt 32 s.tb.ftrim
  | .setsec => s.tb.setsec
  | .cmd => mkWord [(0, 1, b2n s.tb.setsecPend)]

/-- PWR_STAT.STATE. -/
def PwrState.num : PwrState → Nat
  | .main => 0
  | .backup => 1
  | .ride => 2
  | .stopping => 3
  | .standby => 4

/-- The telemetry of the rail that PWR_RAIL_IDX selects; a rail that is off reads 0 mV. -/
def railRead (s : State) : Word :=
  let i := s.pwr.railIdx
  let r := s.pwr.rail[i.toFin]
  mkWord [(0, 16, if s.railOn i.toNat then r.1.toNat else 0), (16, 16, r.2.toNat)]

/-- PWR registers. -/
def pwrRead (s : State) : PwrReg → Word
  | .stat => mkWord [(0, 3, s.pwr.st.num), (3, 3, s.pwr.stage), (6, 1, b2n s.pwr.aGood), (7, 1, b2n s.pwr.bGood),
      (8, 1, b2n s.pwr.srcB), (9, 1, b2n s.pwr.resume)]
  | .evt => s.pwr.evt
  | .bkup => mkWord [(0, 7, s.pwr.bkup.toNat)]
  | .charge => mkWord [(0, 12, s.charge), (16, 12, s.pwr.meas.toNat)]
  | .inA => mkWord [(0, 16, s.pwr.mvA.toNat), (16, 16, s.pwr.maA.toNat)]
  | .inB => mkWord [(0, 16, s.pwr.mvB.toNat), (16, 16, s.pwr.maB.toNat)]
  | .railIdx => mkWord [(0, 4, s.pwr.railIdx.toNat)]
  | .railData => railRead s
  | .cnt => mkWord [(0, 16, s.pwr.switches.toNat), (16, 16, s.pwr.stops.toNat)]

/-- RPR_BARRENk. -/
def barrenMask (s : State) (k : Nat) : Word :=
  BitVec.ofNat 32 (((List.range 32).filter fun i => match hiveOf? (32 * k + i) with
    | some h => (s.hv h).barren
    | none => false).foldl (fun a i => a + 2 ^ i) 0)

/-- RPR registers. -/
def rprRead (s : State) : RprReg → Word
  | .stat => mkWord [(0, 2, s.rpr.mapSrc.toNat), (2, 1, b2n s.rpr.wrBusy), (3, 1, b2n s.rpr.full), (4, 1, b2n s.rpr.clearPend),
      (16, 16, s.rpr.map.length)]
  | .evt => s.rpr.evt
  | .cap => s.rprCap
  | .barren k => barrenMask s k.val
  | .inspCfg => mkWord [(0, 16, s.rpr.period.toNat)]
  | .inspCmd => mkWord [(0, 7, s.rpr.inspTarget.toNat), (7, 1, b2n s.rpr.inspGo)]
  | .inspStat => mkWord [(0, 3, s.rpr.inspRes.toNat), (4, 7, s.rpr.inspResTarget.toNat), (12, 4, s.rpr.inspCause.toNat)]
  | .mapIdx => mkWord [(0, 13, s.rpr.mapIdx.toNat)]
  | .mapW hi => if hi then s.rpr.mapW1 else s.rpr.mapW0
  | .logIdx => mkWord [(0, 12, s.rpr.logIdx.toNat)]
  | .logHead => mkWord [(0, 12, s.rpr.logHead.toNat)]
  | .logW k => s.rpr.logW.getD k.val 0
  | .cmd => mkWord [(0, 1, b2n s.rpr.clearPend)]

/-- WAX_STAT.STATE. -/
def WaxState.num : WaxState → Nat
  | .idle => 0
  | .checking => 1
  | .writing => 2
  | .staged => 3
  | .draining => 4
  | .applying => 5
  | .trial => 6
  | .committing => 7
  | .rollingBack => 8

/-- WAX_STAT. -/
def waxStat (s : State) : Word :=
  let pid := match s.wax.staged with
    | some x => if x.partialImg then some x.pid else none
    | none => none
  mkWord [(0, 4, s.wax.st.num), (4, 1, b2n pid.isSome), (8, 8, s.wax.err.toNat), (16, 7, pid.getD 0)]

/-- WAX registers. -/
def waxRead (s : State) : WaxReg → Word
  | .cmd => 0
  | .stat => waxStat s
  | .src hi => halfSup hi s.wax.src
  | .wdog => mkWord [(0, 24, s.wax.wdogMs.toNat)]
  | .drain => mkWord [(0, 24, s.wax.drainMs.toNat)]
  | .evt => s.wax.evt
  | .slot =>
    let r := s.rec?
    mkWord [(0, 1, b2n ((r.map (·.curB)).getD false)), (1, 1, b2n ((r.map (·.prevValid)).getD false)),
      (2, 1, b2n s.wax.forceB), (3, 1, b2n s.wax.none_)]
  | .ver => s.curImg.ver
  | .prevVer => (s.rec?.map (·.prevVer)).getD 0
  | .gen => (s.rec?.map fun (r : CommitRec) => r.gen).getD 0
  | .boot => mkWord [(0, 8, s.wax.bootCur.toNat), (8, 8, s.wax.bootPrev.toNat), (16, 2, s.wax.bootSrc.toNat)]
  | .chkStat => mkWord [(0, 8, s.wax.chkCode.toNat), (8, 8, s.wax.chkSection.toNat), (16, 16, s.wax.chkRecord.toNat)]
  | .chkOffs => mkWord [(0, 25, s.wax.chkOffs.toNat)]
  | .pver p => tabGet 0 s.wax.pver p.val

/-- Sealed colonies. -/
def State.nSealed (s : State) : Nat := ((List.finRange 64).filter s.isSealed).length

/-- GRD_STAT (spec/15 and spec/16). -/
def grdStat (s : State) : Word :=
  let g := s.guard
  mkWord [(0, 1, b2n g.en.ready), (1, 1, b2n g.en.dead), (2, 1, b2n g.en.throttled), (3, 1, b2n g.en.raw), (4, 1, b2n g.en.tp),
    (5, 1, b2n g.en.startup), (8, 2, g.lc.toNat), (10, 1, b2n g.keysValid), (11, 1, b2n g.locked), (12, 1, b2n g.zeroize),
    (13, 1, b2n g.drkBlank), (16, 7, s.nSealed)]

/-- GRD_KEY_STAT. -/
def keyStat (g : GuardSt) : Word :=
  let r := g.rec?
  mkWord ([(0, 1, b2n g.updateLost), (1, 1, b2n g.genFail), (2, 1, b2n (g.inForce == some true)), (3, 1, b2n r.isSome),
    (4, 1, b2n ((r.map (·.owner.isSome)).getD false))] ++
    (((r.map (·.wax)).getD []).filter fun k => decide (k.1 < 8)).map fun k => (8 + k.1, 1, 1))

/-- GRD registers. -/
def grdRead (s : State) (r : GrdReg) : Word :=
  let g := s.guard
  let e := g.en
  match r with
  | .stat => grdStat s
  | .rst => 0
  | .enCfg => mkWord [(0, 1, b2n e.cond)]
  | .enEvt => e.evt
  | .bias => mkWord [(0, 16, e.bias.toNat)]
  | .corr k => mkWord [(0, 16, (e.corr[k]).toNat)]
  | .htStat => mkWord [(0, 1, b2n e.lastFail), (1, 7, e.reasons.toNat), (8, 2, e.run.toNat), (16, 16, e.win.toNat)]
  | .drbgCnt => mkWord [(0, 21, e.calls.toNat)]
  | .drbgRseed => e.rseed
  | .rngData => (portRead s).1
  | .rngStat => e.rngStat
  | .rawCtl => mkWord [(0, 1, b2n e.rawReq), (1, 3, e.sel.toNat)]
  | .rawStat => mkWord [(0, 11, e.fifo.length), (11, 1, b2n e.ovf), (12, 1, b2n e.empty)]
  | .rawData => (rawRead s).1
  | .tpCtl => mkWord [(0, 1, b2n e.tp)]
  | .tpPat => e.tpPat
  | .cmd => 0
  | .cmdStat => mkWord [(0, 1, b2n g.busy), (8, 8, g.result.toNat), (16, 8, g.op.toNat)]
  | .cmdSrc hi => halfSup hi g.src
  | .keyStat => keyStat g
  | .keyGen => BitVec.ofNat 32 g.gen
  | .seal hi => half hi g.seals
  | .sealEvt => g.sealEvt
  | .sealCnt => g.sealCnt
  | .sealCfg => mkWord [(0, 4, g.fch.toNat)]
  | .ceCtl => mkWord [(0, 1, b2n g.ceGate)]
  | .ceStat => mkWord [(0, 1, b2n g.ceGated), (1, 1, b2n g.ceClaimed), (2, 1, b2n g.ceDefer)]

/-- EXO_SW_STAT.STATE. -/
def SwState.num : SwState → Nat
  | .alone => 0
  | .walking => 1
  | .member => 2
  | .draining => 3
  | .detached => 4

/-- EXO_PSTAT.STATE. -/
def PortSt.num : PortSt → Nat
  | .down => 0
  | .safe => 1
  | .answer => 2
  | .relit => 3
  | .train => 4
  | .active => 5
  | .retrain => 6
  | .loop => 7

/-- EXO_PSTAT. -/
def pstatRead (x : Port) : Word :=
  mkWord [(0, 4, x.st.num), (4, 1, b2n x.light), (5, 1, b2n x.half), (6, 1, b2n x.self), (7, 1, b2n x.admitted),
    (8, 6, x.partner.toNat), (14, 1, b2n x.partnerV), (15, 2, x.pport.toNat)]

/-- EXO registers. -/
def exoRead (s : State) (r : ExoReg) : Word :=
  let w := s.swarm
  let b := s.boot.straps
  match r with
  | .swCfg => mkWord [(0, 2, w.topo.toNat), (2, 3, w.dimX.toNat), (5, 3, w.dimY.toNat), (8, 1, b2n w.tsrc), (9, 1, b2n b.stnMode),
      (10, 1, b2n (!b.rootN)), (16, 6, b.stnAddr.toNat)]
  | .stby hi => half hi w.stby
  | .swCmd => mkWord [(0, 1, b2n (s.isRoot && w.walk.isSome)), (1, 1, b2n (w.st == .draining))]
  | .swStat => mkWord [(0, 3, w.st.num), (3, 1, b2n w.addr.isSome), (4, 6, (w.addr.getD 0).val), (16, 4, w.err.toNat),
      (24, 8, w.mapGen.toNat)]
  | .swEvt => w.evt
  | .failStn => mkWord [(0, 6, w.failStn.toNat), (6, 1, b2n w.failV), (8, 6, w.failBy.toNat), (16, 16, w.failCount.toNat)]
  | .memb hi => half hi w.members
  | .span c hi => half hi (s.co c).span
  | .lctl => mkWord [(0, 16, s.tmo.toNat)]
  | .pctl p =>
    let x := s.ports[p]
    mkWord [(0, 1, b2n x.en), (1, 1, b2n x.loopOn), (2, 1, b2n (x.st == .retrain))]
  | .pstat p => pstatRead s.ports[p]
  | .pevt p => (s.ports[p]).evt
  | .ploss p => mkWord [(0, 4, (s.ports[p]).lossCause.toNat), (16, 16, (s.ports[p]).lossCount.toNat)]
  | .pmap p => mkWord [(0, 9, (s.ports[p]).txUse.toNat), (16, 9, (s.ports[p]).rxUse.toNat)]
  | .plink p => mkWord [(0, 16, (s.ports[p]).rtt.toNat), (16, 16, (s.ports[p]).freq.toNat)]
  | .popt p => mkWord [(0, 16, (s.ports[p]).rxPwr.toNat), (16, 16, (s.ports[p]).txPwr.toNat)]
  | .pcnt p k hi =>
    let x := s.ports[p]
    half hi (match k.val with
      | 0 => x.crcCnt
      | 1 => x.rtyCnt
      | 2 => x.txfCnt
      | _ => x.rxfCnt)

/-- PHX_BSTAT.STATE. -/
def BankSt.num : BankSt → Nat
  | .off => 0
  | .cal => 1
  | .acquiring => 2
  | .locked => 3
  | .unlocked => 4
  | .shed => 5

/-- PHX registers. -/
def phxRead (s : State) : PhxReg → Word
  | .gstat => mkWord [(0, 1, b2n s.phx.laserOk), (1, 1, b2n s.phx.tempHold)]
  | .temp => mkWord [(0, 16, s.phx.temp.toNat)]
  | .ctl b => mkWord [(0, 1, b2n (s.phx.bank[b]).en), (1, 1, b2n ((s.phx.bank[b]).st == .cal))]
  | .stat b =>
    let x := s.phx.bank[b]
    mkWord [(0, 3, x.st.num), (3, 1, b2n x.calStale), (4, 1, b2n x.calValid), (8, 8, x.tCal.toNat), (16, 4, x.spares)]
  | .evt b => (s.phx.bank[b]).evt
  | .loss b => mkWord [(0, 4, (s.phx.bank[b]).lossCause.toNat), (16, 16, (s.phx.bank[b]).lossTag.toNat)]
  | .err b => mkWord [(0, 16, (s.phx.bank[b]).worst.toNat)]
  | .calIdx b => mkWord [(0, 3, (s.phx.bank[b]).calIdx.toNat)]
  | .calData b =>
    let e := (s.phx.bank[b]).ents[(s.phx.bank[b]).calIdx.toFin]
    mkWord [(0, 16, e.gain.toNat), (16, 12, e.offs.toNat)]

/-- SUP registers. -/
def supRead (s : State) : SupReg → Word
  | .stat => mkWord [(0, 1, b2n s.sup.s0Up), (1, 1, b2n s.sup.s1Up), (2, 1, b2n (!s.sup.ppr.isEmpty))]
  | .evt => s.sup.evt
  | .bar2 => mkWord [(0, 7, s.sup.win.toNat)]
  | .ueAddr hi => half hi (s.sup.ueAddr.setWidth 64)
  | .ceCnt => s.sup.ceCnt
  | .alloc c k =>
    match k.val with
    | 0 => mkWord [(0, 16, (s.co c).caBase.toNat)]
    | 1 => mkWord [(0, 16, (s.co c).caSize.toNat)]
    | _ => mkWord [(0, 11, (s.co c).csQuota.toNat)]

/-- FOR_STAT.STATE. -/
def ForState.num : ForState → Nat
  | .idle => 0
  | .run => 1
  | .stopped => 2
  | .error => 3

/-- FOR registers of a channel; a claimed channel shows no base, head or count (R286). -/
def forRead (f : ForSt) : ForReg → Word
  | .base hi => if f.claimed then 0 else half hi f.base
  | .cfg => mkWord [(0, 4, f.log2.toNat), (4, 1, b2n f.en), (6, 1, b2n f.gate)]
  | .tail => 0
  | .head => if f.claimed then 0 else mkWord [(0, 12, f.head)]
  | .stat => mkWord [(0, 2, f.st.num), (2, 1, b2n f.claimed), (3, 1, b2n f.claimDefer), (4, 1, b2n f.err), (8, 8, f.code.toNat)]
  | .bytes hi => if f.claimed then 0 else half hi f.bytes

/-- A word of an MSI-X table entry, laid out as in PCI Express Base 5.0. -/
def msixRead (e : MsixEnt) (w : Fin 4) : Word :=
  match w.val with
  | 0 => loHalf e.addr
  | 1 => hiHalf e.addr
  | 2 => e.data
  | _ => mkWord [(0, 1, b2n e.masked)]

/-- The request of the program that a hive runs (R126, R127). -/
def State.ovsReq (s : State) (h : HiveId) : OvsReq := ((s.hv h).run.map (·.ovs)).getD {}

/-- OVS registers. -/
def ovsRead (s : State) : OvsReg → Word
  | .gctl => mkWord [(0, 1, b2n s.ovs.nominal), (1, 1, b2n s.ovs.stormIe)]
  | .rctl r => mkWord [(0, 2, (s.rowCtl r).toNat)]
  | .rstat r =>
    let x := s.ovs.row[r]
    mkWord [(0, 2, (s.target r).toNat), (2, 1, b2n x.slew), (4, 2, (s.waxCeil r).toNat), (6, 2, (s.ceilEff r).toNat),
      (8, 1, b2n x.hold), (16, 16, if s.railOn (2 + r.val) then x.volt.toNat else 0)]
  | .revt r => (s.ovs.row[r]).evt
  | .rcnt r k hi =>
    let x := s.ovs.row[r]
    half hi (match k.val with
      | 0 => x.slabs
      | 1 => x.replays
      | _ => x.tolerated)
  | .rstorm r => (s.ovs.row[r]).storms
  | .hreq h =>
    let o := s.ovsReq h
    mkWord [(0, 2, o.req.toNat), (2, 1, b2n (o.reqV && decide (12 ≤ h.val))), (3, 2, o.pend.toNat), (5, 1, b2n o.pendV)]

/-- OBS registers. -/
def obsRead (s : State) (r : ObsReg) : Word :=
  let o := s.obs
  match r with
  | .ctl => 0
  | .evt => o.evt
  | .csel => o.csel
  | .cval hi => half hi o.cval
  | .snapTb hi => if hi then o.snapSec else o.snapSub
  | .glCtl => mkWord [(0, 1, b2n o.en), (1, 1, b2n o.mode), (8, 7, o.kindEn.toNat)]
  | .glBase hi => halfSup hi o.base
  | .glSize => mkWord [(0, 16, o.size.toNat)]
  | .glWr => mkWord [(0, 23, o.wr)]
  | .glRd => mkWord [(0, 23, o.rd)]
  | .glWm => mkWord [(0, 23, o.wm.toNat)]
  | .glDrop => o.drop
  | .glMark => 0
  | .hmask k => (o.hmask >>> (32 * k.val)).setWidth 32
  | .cmask hi => half hi o.cmask
  | .smpCtl => mkWord [(0, 7, o.smpHive.toNat), (7, 3, o.smpComb.toNat), (10, 6, o.smpCell.toNat), (16, 4, o.smpCount.toNat),
      (20, 8, o.smpStride.toNat), (28, 1, b2n o.smpArm)]
  | .smpDst hi => halfSup hi o.smpDst
  | .smpStat => mkWord [(0, 5, o.smpTaken.toNat)]

/-- Links of a hive's router that have a neighbour: north, east, south, west (MSH_STAT.UP). -/
def linksUp (h : HiveId) : Nat :=
  b2n (decide (12 ≤ h.val)) + 2 * b2n (h.val % 12 != 11) + 4 * b2n (decide (h.val < 84)) + 8 * b2n (h.val % 12 != 0)

/-- HIV_STAT. -/
def hivStat (s : State) (h : HiveId) : Word :=
  let hv := s.hv h
  let own := match s.wax.img.owner? h.val with
    | some p => if p < 0x40 then some p else none
    | none => none
  let tag := if s.hiveState h = 1 then (match hv.run with | some p => (s.tagOf p.slot).toNat | none => 0) else 0
  mkWord [(0, 3, s.hiveState h), (3, 1, b2n ((hv.run.map (·.lent)).getD false)), (4, 1, b2n (s.isExpressHive h)),
    (5, 1, b2n hv.claimed), (6, 1, b2n (hv.clkDefer || hv.pwrDefer)), (7, 1, b2n (s.rpr.onSpare.getLsbD h.val)),
    (8, 6, own.getD 0), (14, 1, b2n own.isSome), (16, 16, tag)]

/-- Registers of a hive; a claimed hive shows no PC and no honey words (R91). -/
def hiveRead (s : State) (h : HiveId) (r : HiveReg) : Word :=
  let hv := s.hv h
  match r with
  | .id => mkWord [(0, 7, h.val), (7, 3, h.val / 12), (10, 4, s.rpr.pcol.getD h.val 0)]
  | .stat => hivStat s h
  | .ctl => mkWord [(0, 1, b2n hv.clkGate), (1, 1, b2n hv.pwrGate), (2, 1, b2n hv.force)]
  | .evt => hv.evt
  | .fault => mkWord [(0, 4, hv.faultCause.toNat), (16, 16, hv.faultTag.toNat)]
  | .dncCtl => mkWord [(0, 1, b2n (hv.halt && !s.isExpressHive h))]
  | .dncStat => mkWord [(0, 1, b2n hv.halted), (1, 1, b2n hv.run.isNone)]
  | .dncPc => if hv.claimed then 0 else mkWord [(0, 24, match hv.run with | some p => p.pc.toNat | none => 0)]
  | .psIdx => mkWord [(0, 7, hv.psIdx.toNat)]
  | .psData => if hv.claimed then 0 else tabGet 0 (hv.hny[(⟨hv.psIdx.toNat / 64 % 2, Nat.mod_lt _ (by decide)⟩ : Fin 2)]).ps (hv.psIdx.toNat % 64)
  | .actIdx => mkWord [(0, 11, hv.actIdx.toNat)]
  | .actData =>
    if hv.claimed then 0
    else tabGet 0 (hv.hny[(⟨hv.actIdx.toNat / 1024 % 2, Nat.mod_lt _ (by decide)⟩ : Fin 2)]).act (hv.actIdx.toNat % 1024)
  | .mshStat => mkWord [(0, 4, linksUp h), (4, 4, hv.uncorr.toNat)]

/-- A half of a result register: the active buffer, SEQ in the top byte of _HI (R261). -/
def resRead (x : ResReg) (hi : Bool) : Word :=
  if hi then mkWord [(0, 24, x.active.res.toNat >>> 32), (24, 8, x.active.seq.toNat)] else x.active.res.setWidth 32

/-- PRK_SP_STAT. -/
def spStat (x : SpPort) : Word := mkWord [(0, 1, b2n x.busy), (1, 1, b2n x.hwk)] ||| (x.stat &&& 0x1C)

/-- Registers of a VF. -/
def vfRead (s : State) (c : ColId) (r : VfReg) : Word :=
  let v := (s.co c).r
  let x := v.xp
  match r with
  | .dbSq _ => 0
  | .dbCq => 0
  | .cqBase hi => half hi v.cqBase
  | .cqCfg => mkWord [(0, 4, v.cqLog2.toNat), (4, 1, b2n v.cqEn)]
  | .cqMod => mkWord [(0, 8, v.modCnt.toNat), (8, 16, v.modUsec.toNat)]
  | .cqTail => mkWord [(0, 12, v.cqTail), (12, 1, b2n v.cqPhase)]
  | .sqBase q hi => half hi (v.sq[q]).base
  | .sqCfg q => mkWord [(0, 4, (v.sq[q]).log2.toNat), (4, 1, b2n (v.sq[q]).en)]
  | .sqHead q => mkWord [(0, 12, (v.sq[q]).head)]
  | .mail w => memRead32 v.mailbox (4 * w.val)
  | .xpKey hi => half hi x.key
  | .xpDst hi => half hi x.dst
  | .xpCpl hi => half hi x.cpl
  | .xpIn => mkWord [(0, 21, x.inOff.toNat), (21, 7, x.inHive.toNat)]
  | .xpOut => mkWord [(0, 21, x.outOff.toNat), (21, 7, x.outHive.toNat)]
  | .xpLen => mkWord [(0, 10, x.lenIn.toNat), (10, 1, b2n x.pack), (16, 10, x.lenOut.toNat)]
  | .xpG2 => x.g2
  | .xpVer => x.ver
  | .xpUser => x.user
  | .xpDb => 0
  | .stat => mkWord [(0, 9, s.inflight c), (9, 1, b2n (s.xpBusy c)), (10, 1, b2n v.torn), (11, 1, b2n (!v.waiting.isEmpty && (v.cqFull || (s.fn (.vf c)).bme))),
      (12, 1, b2n (s.co c).resetBusy)]
  | .err => v.err
  | .errPos => mkWord [(0, 12, v.errIdx.toNat), (12, 2, v.errSq.toNat), (16, 8, v.errCode.toNat)]
  | .ctl => mkWord [(0, 1, b2n (s.co c).resetBusy)]
  | .cancel => 0
  | .res hi => resRead v.res hi
  | .xres hi => resRead v.xres hi
  | .spKey hi => if v.sp.hwk then 0 else if hi then hiHalf v.sp.key else v.sp.keyLo
  | .spSid => mkWord [(0, 24, v.sp.sid.toNat)]
  | .spPos => v.sp.pos
  | .spCtl => mkWord [(0, 2, v.sp.fmt.toNat)]
  | .spData => (spDataRead c s).1
  | .spStat => spStat v.sp
  | .tbTime hi => tbTime s hi
  | .tbQual => mkWord [(0, 2, s.tb.st.qual.toNat)]

/-- What a register reads as now. -/
def regRead (s : State) : Reg → Word
  | .cap r => capRead s r
  | .qn r => qnRead s r
  | .col c stat => colRead s c stat
  | .tb r => tbRead s r
  | .pwr r => pwrRead s r
  | .rpr r => rprRead s r
  | .wax r => waxRead s r
  | .grd r => grdRead s r
  | .exo r => exoRead s r
  | .phx r => phxRead s r
  | .sup r => supRead s r
  | .forg k r => forRead (s.forg k) r
  | .irqSum => mkWord [(0, 7, s.irqSum.toNat)]
  | .msix f v w => msixRead ((s.fn f).ent v) w
  | .pba f hi => half hi (s.fn f).pba
  | .ovs r => ovsRead s r
  | .obs r => obsRead s r
  | .hive h r => hiveRead s h r
  | .vf c r => vfRead s c r

/-- What a read changes besides the shadows (Table 24.2; a field of type RC clears, R6). -/
def regReadEffect (r : Reg) (s : State) : State :=
  match r with
  | .cap .temp => { s with boot := { s.boot with peak := 0 } }
  | .grd .rngData => (portRead s).2
  | .grd .rawData => (rawRead s).2
  | .phx (.err b) => updBank b (fun x => { x with worst := 0 }) s
  | .sup .ceCnt => { s with sup := { s.sup with ceCnt := 0 } }
  | .obs .glDrop => updObs (fun o => { o with drop := 0 }) s
  | .vf c .spData => (spDataRead c s).2
  | _ => s

-- the LO-first rule (R407, R262)

/-- Key of a requester's shadow. -/
def reqKey : Req → Nat
  | .pf0 => 0
  | .vf c => c.val + 1
  | .guard => 65

/-- Set a requester's shadow: the address of the pair's low half and the captured high half. -/
def setShadow (who : Req) (v : Option (Nat × Word)) (s : State) : State :=
  { s with shadows := tabSet none s.shadows (reqKey who) v }

/-- Set a requester's TORN bit. -/
def setTorn (who : Req) (s : State) : State :=
  match who with
  | .pf0 => { s with tb := { s.tb with tornPf0 := true } }
  | .guard => { s with tb := { s.tb with tornGrd := true } }
  | .vf c => updVf c (fun r => { r with torn := true }) s

/-- A read of a high half: the shadow of the pair, which it empties, else the live value and TORN (R407). A shadow of
PRK_SP_KEY_HI loaded before HWK became 1 is returned too (log entry 78). -/
def readHi (who : Req) (a : Nat) (live : Word) (s : State) : Word × State :=
  match tabGet none s.shadows (reqKey who) with
  | some (lo, v) => if lo + 4 = a then (v, setShadow who none s) else (live, setTorn who s)
  | none => (live, setTorn who s)

/-- One 1-DW read at an address of a requester's BAR0, with its effects (R407, R516, R519); in RECOVERY only CAP responds
(R463). -/
def readWord (who : Req) (a : Nat) (s : State) : Word × State :=
  match regNamed who a with
  | none => (0, s)
  | some r =>
    if s.boot.stage == 7 && who != .guard && !r.inCap then (0, s)
    else if isHiHalf who a then readHi who a (regRead s r) s
    else
      match r.hiOf with
      | some h => (regRead s r, setShadow who (some (a, regRead s h)) s)
      | none => (regRead s r, regReadEffect r s)

/-- Size of a requester's BAR0. -/
def barSize : Req → Nat
  | .vf _ => 0x10000
  | _ => 0x4000000

/-- A requester's memory requests are answered: link, function, Memory Space Enable and power state (R275, R276), and READY,
or RECOVERY for PF0 (R460, R463). The Guard's own accesses are internal. -/
def State.answers (s : State) : Req → Bool
  | .guard => true
  | .pf0 => s.host.link.up && s.host.pf0.mse && s.host.pf0.powerState == 0 && (s.isReady || s.boot.stage == 7)
  | .vf c => s.host.link.up && s.vfExists c && s.host.sriov.vfMse && (s.host.vf[c]).powerState == 0 && s.isReady

/-- The function whose AER logs a refused request. -/
def reqFn : Req → Fn
  | .vf c => .vf c
  | _ => .pf0

/-- A length and alignment that R280 performs: 1 DW at 4 bytes, 2 DW at 8 bytes. -/
def goodSpan (a n : Nat) : Bool := (n == 1 && a % 4 == 0) || (n == 2 && a % 8 == 0)

/-- A read of n DW at an address of a requester's BAR0 (R276, R280, R460): a 2-DW read reads the lower address first. -/
def barRead (who : Req) (a n : Nat) (s : State) : State :=
  if !s.answers who || decide (barSize who < a + 4 * n) then refuseReq (reqFn who) .ur s
  else if !goodSpan a n then refuseReq (reqFn who) .ca s
  else
    let x := readWord who a s
    if n = 2 then
      let y := readWord who (a + 4) x.2
      y.2.reply [x.1, y.1]
    else x.2.reply [x.1]

end Sys2Proof.Machine
end

