-- ==== Sys2Proof/Machine/RegWrite.lean ====
section
/-! DEFINITION. Machine/RegWrite.lean: what a write of every register does, field by field, by the type of the field
(Table 0.2, R6 to R8) and the action that its Effect column names. -/

namespace Sys2Proof.Machine

/-- The next state of a command's meaning. -/
def stateOf (o : Host.Outcome State Fault Refusal) (s : State) : State :=
  match o with
  | .next t => t
  | _ => s

/-- Write a half of a 64-bit pair. -/
def setHalf (hi : Bool) (d : DWord) (v : Word) : DWord := if hi then setHi d v else setLo d v

/-- Clear event bits (W1C). -/
def evClear (e : EvSrc) (v : Word) (s : State) : State := evSet e (w1c (evGet s e) v) s

/-- CAP registers. COLD wins over WARM; RCV_GO acts in RECOVERY, and whether the image verifies is a free value here (its
row carries the outcome). -/
def capWrite (v : Word) (r : CapReg) (s : State) : State :=
  match r with
  | .rst =>
    if bit v 1 then stateOf (execCold s) s
    else if bit v 0 then stateOf (execWarm s) s
    else if bit v 2 then stateOf (execRcvGo ((s.free 1) == 1) s.tickFree) s
    else s
  | .romIdx => { s with boot := { s.boot with romIdx := v.setWidth 11 } }
  | _ => s

/-- QN registers. -/
def qnWrite (v : Word) (r : QnReg) (s : State) : State :=
  match r with
  | .src hi => { s with mld := { s.mld with src := setHalf hi s.mld.src v } }
  | .cmd => if bit v 0 then goLoad s else s
  | _ => s

/-- COL_PCFG: a LIMIT outside 1 to 255 is ignored (R239). -/
def colWrite (v : Word) (c : ColId) (stat : Bool) (s : State) : State :=
  if stat then s
  else
    let n := fld v 0 9
    updCol c (fun x => { x with limit := if 1 ≤ n ∧ n ≤ 255 then n else x.limit, highOk := bit v 9, lend := bit v 10 }) s

/-- TB registers. PPS_OUT is low while POUT_EN = 0 (R405). -/
def tbWrite (v : Word) (r : TbReg) (s : State) : State :=
  match r with
  | .ctl => { s with tb := { s.tb with mode := bit v 0, poutEn := bit v 1, ppsEn := bit v 2, ppsOut := s.tb.ppsOut && bit v 1 } }
  | .stat => { s with tb := { s.tb with tornPf0 := s.tb.tornPf0 && !bit v 8, tornGrd := s.tb.tornGrd && !bit v 9 } }
  | .evt => evClear .tb v s
  | .setsec => { s with tb := { s.tb with setsec := v } }
  | .cmd => if bit v 0 then stateOf (execSetsec s) s else s
  | _ => s

/-- PWR registers. -/
def pwrWrite (v : Word) (r : PwrReg) (s : State) : State :=
  match r with
  | .evt => evClear .pwr v s
  | .bkup => stateOf (execBudgetWrite v s) s
  | .railIdx => { s with pwr := { s.pwr with railIdx := v.setWidth 4 } }
  | _ => s

/-- A write of RPR_MAP_IDX latches the entry in force (R517); 0 beyond N_ENT. -/
def latchMap (v : Word) (s : State) : State :=
  let bs := match s.rpr.map[fld v 0 13]? with
    | some e => entBytes e
    | none => []
  { s with rpr := { s.rpr with
    mapIdx := v.setWidth 13, mapW0 := BitVec.ofNat 32 (leNat (bs.take 4)), mapW1 := BitVec.ofNat 32 (leNat (bs.drop 4)) } }

/-- A write of RPR_LOG_IDX latches the log entry (R517); an entry that was never written holds free values. -/
def latchLog (v : Word) (s : State) : State :=
  match s.rpr.log.find? fun e => e.1 == fld v 0 12 with
  | some e => { s with rpr := { s.rpr with logIdx := v.setWidth 12, logW := bytesToWords e.2 } }
  | none =>
    let ws : List Word := (List.range 4).map fun i => (Config.freeValue (s.freeCtr + i)).setWidth 32
    { s with freeCtr := s.freeCtr + 4, rpr := { s.rpr with logIdx := v.setWidth 12, logW := ws } }

/-- RPR registers. -/
def rprWrite (v : Word) (r : RprReg) (s : State) : State :=
  match r with
  | .evt => evClear .rpr v s
  | .inspCfg => { s with rpr := { s.rpr with period := v.setWidth 16 } }
  | .inspCmd =>
    if bit v 7 then stateOf (execInspectionGo (v.setWidth 7) s) s
    else { s with rpr := { s.rpr with inspTarget := v.setWidth 7 } }
  | .mapIdx => latchMap v s
  | .logIdx => latchLog v s
  | .cmd => if bit v 0 then stateOf (execClearField s) s else s
  | _ => s

/-- WAX_CMD.OP (Table 8.2); other codes are reserved and do nothing. -/
def waxCommand (op : Nat) (s : State) : State :=
  match op with
  | 1 => stateOf (execStage s) s
  | 2 => stateOf (execTrial s) s
  | 3 => stateOf (execCommit s) s
  | 4 => stateOf (execRollback s) s
  | 5 => stateOf (execRevert s) s
  | 6 => stateOf (execAbort s) s
  | _ => s

/-- WAX registers. -/
def waxWrite (v : Word) (r : WaxReg) (s : State) : State :=
  match r with
  | .cmd => waxCommand (fld v 0 4) s
  | .src hi => updWax (fun w => { w with src := setHalf hi w.src v }) s
  | .wdog => updWax (fun w => { w with wdogMs := v.setWidth 24 }) s
  | .drain => updWax (fun w => { w with drainMs := v.setWidth 24 }) s
  | .evt => evClear .wax v s
  | _ => s

/-- GRD_CMD (Table 16.4); other operations are reserved and do nothing. -/
def grdCommand (op : Nat) (c : ColId) (s : State) : State :=
  match op with
  | 1 => stateOf (execSeal c s) s
  | 2 => stateOf (execUnseal c s) s
  | 3 => stateOf (execKeyUpdate s) s
  | 4 => stateOf (execLcOpen s) s
  | 5 => stateOf (execLcSeal s) s
  | 6 => stateOf (execDrkProg s) s
  | _ => s

/-- GRD_RAW_CTL: SEL takes 0 to 4; REQ asks for the mode or ends it. -/
def rawCtl (v : Word) (s : State) : State :=
  let s := if fld v 1 3 ≤ 4 then updEn (fun e => { e with sel := BitVec.ofNat 3 (fld v 1 3) }) s else s
  if bit v 0 then stateOf (execRawReq s) s else stateOf (execRawEnd s) s

/-- GRD registers. A Guard reset reads fuses that have not changed since their last check, whose outcome it repeats. -/
def grdWrite (v : Word) (r : GrdReg) (s : State) : State :=
  match r with
  | .rst => if bit v 0 then guardReset s.guard.keysValid s else s
  | .enCfg => stateOf (execCond (bit v 0) s) s
  | .enEvt => evClear .grd v s
  | .rngStat => updEn (fun e => { e with noData := e.noData && !bit v 3, notReady := e.notReady && !bit v 4 }) s
  | .rawCtl => rawCtl v s
  | .rawStat => updEn (fun e => { e with ovf := e.ovf && !bit v 11, empty := e.empty && !bit v 12 }) s
  | .tpCtl => stateOf (execTestPatternEn (bit v 0) s) s
  | .tpPat => updEn (fun e => { e with tpPat := v }) s
  | .cmd => grdCommand (fld v 0 8) (Fin.ofNat 64 (fld v 8 6)) s
  | .cmdSrc hi => { s with guard := { s.guard with src := setHalf hi s.guard.src v } }
  | .keyStat => { s with guard := { s.guard with
      updateLost := s.guard.updateLost && !bit v 0, genFail := s.guard.genFail && !bit v 1 } }
  | .sealEvt => evClear .seal v s
  | .sealCfg => if s.guard.locked then s else { s with guard := { s.guard with fch := v.setWidth 4 } }
  | .ceCtl => stateOf (execCeGate (bit v 0) s) s
  | _ => s

/-- EXO_SW_CFG: a TOPO of 0x3 is ignored. -/
def swCfgWrite (v : Word) (s : State) : State :=
  updSw (fun w => { w with
    topo := if fld v 0 2 = 3 then w.topo else BitVec.ofNat 2 (fld v 0 2)
    dimX := BitVec.ofNat 3 (fld v 2 3), dimY := BitVec.ofNat 3 (fld v 5 3), tsrc := bit v 8 }) s

/-- EXO_PCTL: EN, then LOOP, then RETRAIN. -/
def pctlWrite (v : Word) (p : PortId) (s : State) : State :=
  let s := writeLoop p (bit v 1) (writeEn p (bit v 0) s)
  if bit v 2 then enterRetrain p s else s

/-- EXO registers. EXO_SW_SPAN is ignored while the colony has jobs in flight or is sealed (R386). -/
def exoWrite (v : Word) (r : ExoReg) (s : State) : State :=
  match r with
  | .swCfg => swCfgWrite v s
  | .stby hi => updSw (fun w => { w with stby := setHalf hi w.stby v }) s
  | .swCmd =>
    let s := if bit v 0 then enumWrite s else s
    if bit v 1 then leaveWrite s else s
  | .swEvt => evClear .swarm v s
  | .span c hi =>
    if s.inflight c != 0 || s.isSealed c then s else updCol c (fun x => { x with span := setHalf hi x.span v }) s
  | .lctl => { s with tmo := v.setWidth 16 }
  | .pctl p => pctlWrite v p s
  | .pevt p => evClear (.exo p) v s
  | _ => s

/-- PHX_BCTL: EN, then CAL. -/
def bctlWrite (v : Word) (b : BankId) (s : State) : State :=
  let was := (s.phx.bank[b]).en
  let s := if bit v 0 then stateOf (execPhxEnable b s) s else if was then stateOf (execPhxDisable b s) s else s
  if bit v 1 && (s.phx.bank[b]).st != .cal then stateOf (execCal b s) s else s

/-- PHX registers. -/
def phxWrite (v : Word) (r : PhxReg) (s : State) : State :=
  match r with
  | .ctl b => bctlWrite v b s
  | .evt b => evClear (.phx b) v s
  | .calIdx b => updBank b (fun x => { x with calIdx := v.setWidth 3 }) s
  | .calData b => stateOf (execPhxBcalDataWrite b v s) s
  | _ => s

/-- SUP registers. -/
def supWrite (v : Word) (r : SupReg) (s : State) : State :=
  match r with
  | .evt => evClear .sup v s
  | .bar2 => { s with sup := { s.sup with win := v.setWidth 7 } }
  | .alloc c k => stateOf (execSupAllocWrite c k v s) s
  | _ => s

/-- FOR_CFG: GATE under R286, LOG2 while EN = 0, EN and RESUME. -/
def forCfg (v : Word) (k : ChanId) (s : State) : State :=
  let f := s.forg k
  let s := stateOf (execGate k (bit v 6) s) s
  let s := if !f.en && goodLog2 (fld v 0 4) then updFor k (fun f => { f with log2 := BitVec.ofNat 4 (fld v 0 4) }) s else s
  let s := if bit v 4 then stateOf (execForagerEnable k (s.forg k).log2 s) s else stateOf (execForagerDisable k s) s
  if bit v 5 then stateOf (execResume k s) s else s

/-- FOR registers. FOR_BASE is ignored while EN = 1 and on a claimed channel (R286). -/
def forWriteReg (v : Word) (k : ChanId) (r : ForReg) (s : State) : State :=
  match r with
  | .base hi => if (s.forg k).en || (s.forg k).claimed then s else updFor k (fun f => { f with base := setHalf hi f.base v }) s
  | .cfg => forCfg v k s
  | .tail => stateOf (execForagerTail k v s) s
  | .stat => if bit v 4 then stateOf (execForagerErrClear k s) s else s
  | _ => s

/-- A word of an MSI-X entry; a pending message whose hold ends leaves (R278). -/
def msixWrite (v : Word) (f : Fn) (n : Nat) (w : Fin 4) (s : State) : State :=
  flushPba f (vecsOf f) (updMsix f n (fun e => match w.val with
    | 0 => { e with addr := setLo e.addr v }
    | 1 => { e with addr := setHi e.addr v }
    | 2 => { e with data := v }
    | _ => { e with masked := bit v 0 }) s)

/-- OVS registers. -/
def ovsWrite (v : Word) (r : OvsReg) (s : State) : State :=
  match r with
  | .gctl =>
    let s := { s with ovs := { s.ovs with stormIe := bit v 1 } }
    stateOf (execOvsCeilingWrite (.nominal (bit v 0)) s) s
  | .rctl r => stateOf (execOvsCeilingWrite (.row r (v.setWidth 2)) s) s
  | .revt r => evClear (.ovs r) v s
  | _ => s

/-- A word of OBS_GL_HMASK. -/
def hmaskPut (m : BitVec 96) (k : Nat) (v : Word) : BitVec 96 :=
  (m &&& ~~~(BitVec.ofNat 96 (0xFFFFFFFF * 2 ^ (32 * k)))) ||| (v.setWidth 96 <<< (32 * k))

/-- OBS registers. OBS_GL_BASE and OBS_GL_SIZE are ignored while EN = 1 (R488), a SIZE of 0 always. -/
def obsWrite (v : Word) (r : ObsReg) (s : State) : State :=
  match r with
  | .ctl => if bit v 0 then stateOf (execSnap s) s else s
  | .evt => updObs (fun o => { o with evt := w1c o.evt v }) s
  | .csel => stateOf (execObsCselWrite v s) s
  | .glCtl => stateOf (execGlassEnable v s) s
  | .glBase hi => updObs (fun o => if o.en then o else { o with base := setHalf hi o.base v }) s
  | .glSize => updObs (fun o => if o.en || v.setWidth 16 == (0 : BitVec 16) then o else { o with size := v.setWidth 16 }) s
  | .glRd => updObs (fun o => { o with rd := fld v 0 23 }) s
  | .glWm => updObs (fun o => { o with wm := v.setWidth 23 }) s
  | .glMark => stateOf (execGlassMark v s) s
  | .hmask k => updObs (fun o => { o with hmask := hmaskPut o.hmask k.val v }) s
  | .cmask hi => updObs (fun o => { o with cmask := setHalf hi o.cmask v }) s
  | .smpCtl => stateOf (execArm v s) s
  | .smpDst hi => updObs (fun o => { o with smpDst := setHalf hi o.smpDst v }) s
  | _ => s

/-- Registers of a hive. HIV_FAULT keeps its value when FAULT is cleared and records the next one (log entry 56). -/
def hiveWrite (v : Word) (h : HiveId) (r : HiveReg) (s : State) : State :=
  match r with
  | .ctl => hivCtl h (bit v 0) (bit v 1) (bit v 2) s
  | .evt => evClear (.hive h) v s
  | .dncCtl => dncWrite h (bit v 0) (bit v 1) s
  | .psIdx => updHive h (fun x => { x with psIdx := v.setWidth 7 }) s
  | .psData => stateOf (execHnyPsDataWrite h v s) s
  | .actIdx => updHive h (fun x => { x with actIdx := v.setWidth 11 }) s
  | .actData => stateOf (execHnyActDataWrite h v s) s
  | .mshStat => updHive h (fun x => { x with uncorr := x.uncorr &&& ~~~(BitVec.ofNat 4 (fld v 4 4)) }) s
  | _ => s

/-- Change the express registers of a VF. -/
def updXp (c : ColId) (f : XpSt → XpSt) (s : State) : State := updVf c (fun r => { r with xp := f r.xp }) s

/-- COL_ERR: clearing BAD_DESC clears COL_ERR_POS. -/
def colErrClear (v : Word) (c : ColId) (s : State) : State :=
  updVf c (fun r =>
    let r := { r with err := w1c r.err v }
    if bit v 0 then { r with errIdx := 0, errSq := 0, errCode := 0 } else r) s

/-- COL_CTL: a reset, or every queue job cancelled. -/
def colCtl (v : Word) (c : ColId) (s : State) : State :=
  if bit v 0 then stateOf (execColonyReset c s) s
  else if bit v 1 then stateOf (execCancelAll c s) s
  else s

/-- PRK_SP_CTL. -/
def spCtlWrite (v : Word) (c : ColId) (s : State) : State :=
  let s := updSp c (fun x => { x with fmt := v.setWidth 2 }) s
  if bit v 4 then stateOf (execHwkey c s) s else s

/-- Registers of a VF. -/
def vfWrite (v : Word) (c : ColId) (r : VfReg) (s : State) : State :=
  match r with
  | .dbSq q => stateOf (execSqDoorbell c q v s) s
  | .dbCq => stateOf (execCqDoorbell c v s) s
  | .cqBase hi => queueWrite c (if hi then 0x1004 else 0x1000) v s
  | .cqCfg => queueWrite c 0x1008 v s
  | .cqMod => queueWrite c 0x100C v s
  | .sqBase q hi => queueWrite c (0x1040 + 16 * q.val + (if hi then 4 else 0)) v s
  | .sqCfg q => queueWrite c (0x1048 + 16 * q.val) v s
  | .mail w => mailboxPut c (4 * w.val) ((leBytes 4 v.toNat).map some) s
  | .xpKey hi => updXp c (fun x => { x with key := setHalf hi x.key v }) s
  | .xpDst hi => updXp c (fun x => { x with dst := setHalf hi x.dst v }) s
  | .xpCpl hi => updXp c (fun x => { x with cpl := setHalf hi x.cpl v }) s
  | .xpIn => updXp c (fun x => { x with inOff := v.setWidth 21, inHive := BitVec.ofNat 7 (fld v 21 7) }) s
  | .xpOut => updXp c (fun x => { x with outOff := v.setWidth 21, outHive := BitVec.ofNat 7 (fld v 21 7) }) s
  | .xpLen => updXp c (fun x => { x with
      lenIn := BitVec.ofNat 10 (fld v 0 10), pack := bit v 10, lenOut := BitVec.ofNat 10 (fld v 16 10) }) s
  | .xpG2 => updXp c (fun x => { x with g2 := v }) s
  | .xpVer => updXp c (fun x => { x with ver := v }) s
  | .xpUser => updXp c (fun x => { x with user := v }) s
  | .xpDb => stateOf (execXpDb c v s) s
  | .stat => updVf c (fun r => { r with torn := r.torn && !bit v 10 }) s
  | .err => colErrClear v c s
  | .ctl => colCtl v c s
  | .cancel => stateOf (execColCancel c (v.setWidth 16) s) s
  | .spKey hi => if hi then stateOf (execPrkSpKeyHiWrite c v s) s else updSp c (fun x => { x with keyLo := v }) s
  | .spSid => updSp c (fun x => { x with sid := v.setWidth 24 }) s
  | .spPos => updSp c (fun x => { x with pos := v }) s
  | .spCtl => spCtlWrite v c s
  | .spStat => updSp c (fun x => { x with stat := w1c x.stat v }) s
  | _ => s

/-- A write of a whole register. -/
def regWrite (r : Reg) (v : Word) (s : State) : State :=
  match r with
  | .cap r => capWrite v r s
  | .qn r => qnWrite v r s
  | .col c stat => colWrite v c stat s
  | .tb r => tbWrite v r s
  | .pwr r => pwrWrite v r s
  | .rpr r => rprWrite v r s
  | .wax r => waxWrite v r s
  | .grd r => grdWrite v r s
  | .exo r => exoWrite v r s
  | .phx r => phxWrite v r s
  | .sup r => supWrite v r s
  | .forg k r => forWriteReg v k r s
  | .irqSum => s
  | .msix f n w => msixWrite v f n w s
  | .pba _ _ => s
  | .ovs r => ovsWrite v r s
  | .obs r => obsWrite v r s
  | .hive h r => hiveWrite v h r s
  | .vf c r => vfWrite v c r s

/-- One 1-DW write at an address of a requester's BAR0 (R280, R463, R516): with a byte enable clear it is discarded. -/
def writeWord (who : Req) (a : Nat) (w : Word × BitVec 4) (s : State) : State :=
  if w.2 != 0xF then s
  else match regNamed who a with
  | none => s
  | some r => if s.boot.stage == 7 && who != .guard && !r.inCap then s else regWrite r w.1 s

/-- The bytes of words with their byte enables. -/
def enabledBytes (ws : List (Word × BitVec 4)) : List (Option Byte) :=
  ws.flatMap fun w => (List.range 4).map fun i => if w.2.getLsbD i then some ((w.1 >>> (8 * i)).setWidth 8) else none

/-- The offset in the express mailbox at which a VF's request starts, when it starts there. -/
def mailOff (who : Req) (a : Nat) : Option (ColId × Nat) :=
  match who with
  | .vf c => if 0x2000 ≤ a && a < 0x2200 then some (c, a - 0x2000) else none
  | _ => none

/-- A write of words at an address of a requester's BAR0 (R276, R280, R281, R460). -/
def barWrite (who : Req) (a : Nat) (ws : List (Word × BitVec 4)) (s : State) : State :=
  if !s.answers who || decide (barSize who < a + 4 * ws.length) then refusePosted (reqFn who) .ur s
  else match mailOff who a with
  | some (c, o) => mailboxPut c o (enabledBytes ws) s
  | none =>
    if !goodSpan a ws.length then refusePosted (reqFn who) .ca s
    else match ws with
    | [w] => writeWord who a w (s.cpl .sc)
    | [w, x] => writeWord who (a + 4) x (writeWord who a w (s.cpl .sc))
    | _ => s

-- configuration space

/-- Configuration requests reach a function: the link is up, the part has booted or is in RECOVERY, and a VF exists (R275,
R460, R463). -/
def State.cfgAnswers (s : State) : Fn → Bool
  | .pf0 => s.host.link.up && (s.isReady || s.boot.stage == 7)
  | .vf c => s.host.link.up && s.isReady && s.vfExists c

/-- Change SR-IOV control. -/
def updSriov (f : SriovSt → SriovSt) (s : State) : State := { s with host := { s.host with sriov := f s.host.sriov } }

/-- The address bits of a memory BAR of 2^n bytes. -/
def barMask (n : Nat) : DWord := ~~~(BitVec.ofNat 64 (2 ^ n - 1))

/-- Write one DW of PF0's BARs: 64 MiB at BAR0, 256 MiB at BAR2 (R272). -/
def writeBar (k : Fin 4) (v : Word) (f : FnSt) : FnSt :=
  if k.val < 2 then { f with bar0 := setHalf (k == 1) f.bar0 v &&& barMask 26 }
  else { f with bar2 := setHalf (k == 3) f.bar2 v &&& barMask 28 }

/-- The uncorrectable errors that the part logs (Table 12.5). -/
def aerUncBits : Word := 0x1FF030

/-- A write of a control field of configuration space (R268 to R279, R291, R293, R463). SR-IOV control, the fields of Device
Control that size or tag requests, and the masks and severities of AER are PF0's; Memory Space Enable of a VF is VF MSE of
PF0; a VF has no power management (Table 12.2). -/
def cfgWrite (fn : Fn) (f : CfgField) (v : Nat) (s : State) : State :=
  let on := v % 2 == 1
  match f with
  | .mse => match fn with
    | .pf0 => updFn .pf0 (fun x => { x with mse := on }) s
    | .vf _ => s
  | .vfMse => if fn == .pf0 then updSriov (fun x => { x with vfMse := on }) s else s
  | .busMaster => if on then stateOf (execBusMasterEnable fn s) s else updFn fn (fun x => { x with bme := false }) s
  | .msixEnable => flushPba fn (vecsOf fn) (updFn fn (fun x => { x with msixEn := on }) s)
  | .msixFunctionMask => flushPba fn (vecsOf fn) (updFn fn (fun x => { x with msixMask := on }) s)
  | .numVfs =>
    if fn == .pf0 && !s.host.sriov.vfEnable && decide (v ≤ 64) && s.isReady then updSriov (fun x => { x with numVfs := v }) s else s
  | .systemPageSize =>
    if fn == .pf0 && !s.host.sriov.vfEnable then updSriov (fun x => { x with pageSize := BitVec.ofNat 32 v }) s else s
  | .ariHierarchy => if fn == .pf0 then updSriov (fun x => { x with ari := on }) s else s
  | .relaxedOrdering => updFn fn (fun x => { x with relaxed := on }) s
  | .maxPayload => if fn == .pf0 then updFn .pf0 (fun x => { x with mps := BitVec.ofNat 3 v }) s else s
  | .maxReadRequest => if fn == .pf0 then updFn .pf0 (fun x => { x with mrrs := BitVec.ofNat 3 v }) s else s
  | .errorReporting => updFn fn (fun x => { x with errEn := BitVec.ofNat 4 v }) s
  | .deviceStatus => updFn fn (fun x => { x with devSta := x.devSta &&& ~~~(BitVec.ofNat 4 v) }) s
  | .tenBitTags => if fn == .pf0 then updFn .pf0 (fun x => { x with tag10 := on }) s else s
  | .vfTenBitTags => if fn == .pf0 then updSriov (fun x => { x with tag10 := on }) s else s
  | .ecrcGeneration => if fn == .pf0 then updFn .pf0 (fun x => { x with ecrcGen := on }) s else s
  | .ecrcCheck => if fn == .pf0 then updFn .pf0 (fun x => { x with ecrcChk := on }) s else s
  | .bar k => if fn == .pf0 then updFn .pf0 (writeBar k (BitVec.ofNat 32 v)) s else s
  | .vfBar hi => if fn == .pf0 then updSriov (fun x => { x with bar0 := (setHalf hi x.bar0 (BitVec.ofNat 32 v)) &&& barMask 16 }) s else s
  | .completionTimeout => updFn fn (fun x => { x with cto := BitVec.ofNat 4 v }) s
  | .completionTimeoutDisable => updFn fn (fun x => { x with ctoDis := on }) s
  | .aerUncorrectable => updFn fn (fun x => { x with aerUnc := w1c x.aerUnc (BitVec.ofNat 32 v) }) s
  | .aerCorrectable => updFn fn (fun x => { x with aerCor := w1c x.aerCor (BitVec.ofNat 32 v) }) s
  | .aerUncorrectableMask => if fn == .pf0 then updFn .pf0 (fun x => { x with aerUncMask := BitVec.ofNat 32 v &&& aerUncBits }) s else s
  | .aerUncorrectableSeverity => if fn == .pf0 then updFn .pf0 (fun x => { x with aerSev := BitVec.ofNat 32 v &&& aerUncBits }) s else s
  | .aerCorrectableMask => if fn == .pf0 then updFn .pf0 (fun x => { x with aerCorMask := BitVec.ofNat 32 v &&& 0x31C1 }) s else s
  | .powerState => if fn == .pf0 ∧ (v = 0 ∨ v = 3) then updFn fn (fun x => { x with powerState := BitVec.ofNat 2 v }) s else s

end Sys2Proof.Machine
end

