-- ==== Sys2Proof/Machine/Regs.lean ====
section
/-! DEFINITION. Machine/Regs.lean: the rows of register accesses: writes, reads of pairs, and reads that change state
(R6, R280, R407, R519, R520). -/

namespace Sys2Proof.Machine

/-- R9: the words of a write without the W1C bits that the part sets in the same cycle, so that the set wins. -/
def keepSet (who : Req) (off : Nat) (same : DWord) (ws : List (Word × BitVec 4)) : List (Word × BitVec 4) :=
  ws.mapIdx fun i w =>
    if ((regNamed who (off + 4 * i)).map Reg.hasW1c).getD false then (w.1 &&& ~~~((same >>> (32 * i)).setWidth 32), w.2) else w

/-- R9 for a W1C register of configuration space. -/
def keepSetCfg (f : CfgField) (same : DWord) (v : Nat) : Nat :=
  match f with
  | .aerUncorrectable | .aerCorrectable => (BitVec.ofNat 64 v &&& ~~~same).toNat
  | _ => v

/-- REGISTER_WRITE (R6 to R10, R276, R280, R460, R516): a write through a BAR, or of a control field of configuration
space. -/
def execRegisterWrite (t : WriteTgt) (s : State) : Host.Outcome State Fault Refusal :=
  .next (match t with
    | .bar who off ws same => barWrite who off (keepSet who off same ws) s
    | .cfg fn f v same => if s.cfgAnswers fn then cfgWrite fn f (keepSetCfg f same v) (s.cpl .sc) else s)

/-- Read one register that a row names: at its own address, or with a 2-DW read at the 8-byte-aligned address that holds
it (R519). -/
def readAt (who : Req) (a : Nat) (two : Bool) (s : State) : State :=
  if two then barRead who (a / 8 * 8) 2 s else barRead who a 1 s

/-- PAIR_LO_READ (R407, R280): a read at a low half, of it alone or of both halves. -/
def execPairLoRead (who : Req) (off : Nat) (two : Bool) (s : State) : Host.Outcome State Fault Refusal :=
  .next (match (regNamed who off).bind Reg.hiOf with
    | some _ => barRead who off (if two then 2 else 1) s
    | none => s)

/-- PAIR_HI_READ (R407). -/
def execPairHiRead (who : Req) (off : Nat) (s : State) : Host.Outcome State Fault Refusal :=
  .next (if isHiHalf who off then barRead who off 1 s else s)

/-- CAP_TEMP_READ (R520): `tj` is the sample that falls in the cycle of the read. -/
def execCapTempRead (two : Bool) (tj : Option (BitVec 16)) (s : State) : Host.Outcome State Fault Refusal :=
  let t := readAt .pf0 0x24 two s
  .next (match tj with
    | some x => { t with boot := { t.boot with tj := x, peak := if s.answers .pf0 then x else if t.boot.peak.toInt < x.toInt then x else t.boot.peak } }
    | none => t)

/-- PHX_BERR_READ (R520): `worst` is the largest detuning of the cycle of the read. -/
def execPhxBerrRead (b : BankId) (two : Bool) (worst : BitVec 16) (s : State) : Host.Outcome State Fault Refusal :=
  .next (updBank b (fun x => { x with worst := if x.worst.toNat < worst.toNat then worst else x.worst })
    (readAt .pf0 (0xA0110 + 0x40 * b.val) two s))

/-- SUP_CE_CNT_READ (R520): n errors are corrected in the cycle of the read. -/
def execSupCeCntRead (two : Bool) (n : Nat) (s : State) : Host.Outcome State Fault Refusal :=
  let t := readAt .pf0 0xB0018 two s
  .next { t with sup := { t.sup with ceCnt := BitVec.ofNat 32 (min 0xFFFFFFFF (t.sup.ceCnt.toNat + n)) } }

/-- OBS_GL_DROP_READ (R520). -/
def execObsGlDropRead (two : Bool) (s : State) : Host.Outcome State Fault Refusal := .next (readAt .pf0 0xF011C two s)

/-- GRD_RNG_DATA_READ (R356, R357): by PF0 or by the Guard. -/
def execGrdRngDataRead (who : Req) (two : Bool) (s : State) : Host.Outcome State Fault Refusal :=
  .next (match who with
    | .vf _ => s
    | _ => readAt who 0x80180 two s)

/-- GRD_RAW_DATA_READ (R363). -/
def execGrdRawDataRead (two : Bool) (s : State) : Host.Outcome State Fault Refusal := .next (readAt .pf0 0x801C8 two s)

/-- PRK_SP_DATA_READ (R59, R62): by the colony's own VF. -/
def execPrkSpDataRead (c : ColId) (two : Bool) (s : State) : Host.Outcome State Fault Refusal :=
  .next (readAt (.vf c) 0x4014 two s)

end Sys2Proof.Machine
end

