-- ==== Sys2Proof/Machine/Sealed.lean ====
section
/-! DEFINITION. Machine/Sealed.lean: the resume of paused sealed work (R373, R384, R391). -/

namespace Sys2Proof.Machine

/-- Put the SCRATCH bytes of a save set back. -/
def putScratch (part : Nat) (h : HiveId) : List (Nat × List Byte) → State → State
  | [], s => s
  | (off, bs) :: r, s =>
    putScratch part h r (updHive h (fun hv => { hv with cs := memWriteWrap hv.cs (s.winBase part) (s.winSize part) off bs }) s)

/-- A paused sealed program runs again on a hive (R384, R391): program, FIXED and WEIGHTS ranges, SCRATCH, other bytes 0. -/
def resumeSealed (h at_ : HiveId) (x : SaveSet) (s : State) : State :=
  let part := ((s.job? x.slot).map (·.part.val)).getD 0
  let s := updHive h (fun hv => { hv with claimed := true, cs := memZero hv.cs (s.winBase part) (s.winSize part) }) s
  let bad := s.rangesUe part x.hive
  let s := putScratch part h x.scratch (loadRanges part x.hive h s)
  let s := updHive at_ (fun hv => { hv with wait := dropProg hv.wait x.slot x.hive }) s
  let s := { s with guard := { s.guard with saves := s.guard.saves.filter fun y => y != x } }
  let s := updJob x.slot (fun j => { j with
    movedAt := (j.movedAt.filter fun m => m.1 != x.hive) ++ (if x.hive = h then [] else [(x.hive, h)]) }) s
  let hny : HnyCtx := { ps := x.prog.ps0, act := x.prog.act0 }
  let s := updHive h (fun hv => { hv with
    run := some (startCopies { x.prog with ctx := .fresh, ps0 := [], act0 := [], win := none, stopAt := none, paused := none, ovs := x.prog.ovs.restored h })
    stops := [], halted := false, hny := hv.hny.set 0 hny }) s
  endOnUe bad x.slot (reloadLatch h (resumeRecord h x.prog s))

/-- SEALED_RESUME (R373, R391): `ok` tells that tag and save count verify; the Guard claims the cipher engine for it. -/
def execSealedResume (h : HiveId) (slot : SlotId) (ok : Bool) (s : State) : Host.Outcome State Fault Refusal :=
  match s.sealedStub slot.val with
  | none => .next s
  | some (at_, p) =>
    match s.guard.saves.find? fun x => x.slot == slot.val && x.hive == p.home with
    | none => .next s
    | some x =>
      let part := ((s.job? slot.val).map (·.part.val)).getD 0x40
      if !s.freeHive h || !s.mayRun p || s.wax.img.owner? h.val != some part || !s.chargeAdmits then .next s
      else
        let s := { s with guard := ceClaim s.guard }
        .next (ceFollow (if ok then resumeSealed h at_ x s
          else postEvent .seal 4 (endJob slot.val { code := .sealedAbort, detail := BitVec.ofNat 64 h.val } (.cancel 0)
            { s with guard := { s.guard with saves := s.guard.saves.filter fun y => y != x } })))

end Sys2Proof.Machine
end

