-- ==== Sys2Proof/Machine/Dispatch.lean ====
section
/-! DEFINITION. Machine/Dispatch.lean: the meaning of every command. -/

namespace Sys2Proof.Machine

def exec (i : Instr) (s : State) : Host.Outcome State Fault Refusal :=
  match i with
  | .registerWrite t => Sys2Proof.Machine.execRegisterWrite t s
  | .pairLoRead who off two => Sys2Proof.Machine.execPairLoRead who off two s
  | .pairHiRead who off => Sys2Proof.Machine.execPairHiRead who off s
  | .capTempRead two tj => Sys2Proof.Machine.execCapTempRead two tj s
  | .phxBerrRead b two worst => Sys2Proof.Machine.execPhxBerrRead b two worst s
  | .supCeCntRead two n => Sys2Proof.Machine.execSupCeCntRead two n s
  | .obsGlDropRead two => Sys2Proof.Machine.execObsGlDropRead two s
  | .prkSpDataRead c two => Sys2Proof.Machine.execPrkSpDataRead c two s
  | .prkSpKeyHiWrite c v => Sys2Proof.Machine.execPrkSpKeyHiWrite c v s
  | .hwkey c => Sys2Proof.Machine.execHwkey c s
  | .spSeedArrive c => Sys2Proof.Machine.execSpSeedArrive c s
  | .hivClkGate h => Sys2Proof.Machine.execHivClkGate h s
  | .hivPwrGate h => Sys2Proof.Machine.execHivPwrGate h s
  | .hivForceGate h clk pwr => Sys2Proof.Machine.execHivForceGate h clk pwr s
  | .hivUngate h clk pwr => Sys2Proof.Machine.execHivUngate h clk pwr s
  | .deferredGateExecute h => Sys2Proof.Machine.execDeferredGateExecute h s
  | .hnyPsDataWrite h v => Sys2Proof.Machine.execHnyPsDataWrite h v s
  | .hnyActDataWrite h v => Sys2Proof.Machine.execHnyActDataWrite h v s
  | .dncHalt h => Sys2Proof.Machine.execHalt h s
  | .dncStep h => Sys2Proof.Machine.execStep h s
  | .meshCountMessage n bad => Sys2Proof.Machine.execMeshCountMessage n bad s
  | .movMessage n bad => Sys2Proof.Machine.execMovMessage n bad s
  | .chainFin h => Sys2Proof.Machine.execChainFin h s
  | .phxEnable b => Sys2Proof.Machine.execPhxEnable b s
  | .phxDisable b => Sys2Proof.Machine.execPhxDisable b s
  | .cal b => Sys2Proof.Machine.execCal b s
  | .phxCalDone b r => Sys2Proof.Machine.execPhxCalDone b r s
  | .phxLocked b => Sys2Proof.Machine.execPhxLocked b s
  | .phxLossOfLock b cause worst temp => Sys2Proof.Machine.execPhxLossOfLock b cause worst temp s
  | .phxRelockTimeout b => Sys2Proof.Machine.execPhxRelockTimeout b s
  | .phxCalStale b temp => Sys2Proof.Machine.execPhxCalStale b temp s
  | .phxTempHoldEnd temp => Sys2Proof.Machine.execPhxTempHoldEnd temp s
  | .phxBcalDataWrite b v => Sys2Proof.Machine.execPhxBcalDataWrite b v s
  | .ovsRequestInForce h => Sys2Proof.Machine.execOvsRequestInForce h s
  | .ovsRailSlewStart r late => Sys2Proof.Machine.execOvsRailSlewStart r late s
  | .ovsRailSettled r => Sys2Proof.Machine.execOvsRailSettled r s
  | .ovsCeilingWrite t => Sys2Proof.Machine.execOvsCeilingWrite t s
  | .computeTempThreshold tj => Sys2Proof.Machine.execComputeTempThreshold tj s
  | .ovsStormHoldEnd r => Sys2Proof.Machine.execOvsStormHoldEnd r s
  | .stage => Sys2Proof.Machine.execStage s
  | .waxStageCheckDone => Sys2Proof.Machine.execWaxStageCheckDone s
  | .waxStageCopyDone ok => Sys2Proof.Machine.execWaxStageCopyDone ok s
  | .trial => Sys2Proof.Machine.execTrial s
  | .waxApply => Sys2Proof.Machine.execWaxApply s
  | .waxApplyDone => Sys2Proof.Machine.execWaxApplyDone s
  | .waxDrainTimeout => Sys2Proof.Machine.execWaxDrainTimeout s
  | .waxWatchdogExpire => Sys2Proof.Machine.execWaxWatchdogExpire s
  | .commit => Sys2Proof.Machine.execCommit s
  | .waxCommitDone ok => Sys2Proof.Machine.execWaxCommitDone ok s
  | .rollback => Sys2Proof.Machine.execRollback s
  | .waxRollbackDone => Sys2Proof.Machine.execWaxRollbackDone s
  | .revert => Sys2Proof.Machine.execRevert s
  | .abort => Sys2Proof.Machine.execAbort s
  | .nop h => Sys2Proof.Machine.execNop h s
  | .end_ h => Sys2Proof.Machine.execEnd h s
  | .yield_ h => Sys2Proof.Machine.execYield h s
  | .li h => Sys2Proof.Machine.execLi h s
  | .alu h => Sys2Proof.Machine.execAlu h s
  | .ld h => Sys2Proof.Machine.execLd h s
  | .st h => Sys2Proof.Machine.execSt h s
  | .mov h => Sys2Proof.Machine.execMov h s
  | .ldw h => Sys2Proof.Machine.execLdw h s
  | .ldwCopyDone m => Sys2Proof.Machine.execLdwCopyDone m s
  | .ldp h => Sys2Proof.Machine.execLdp h s
  | .stream h env => Sys2Proof.Machine.execStream h env s
  | .clr h => Sys2Proof.Machine.execClr h s
  | .req h => Sys2Proof.Machine.execReq h s
  | .draw h => Sys2Proof.Machine.execDraw h s
  | .get h => Sys2Proof.Machine.execGet h s
  | .seed h => Sys2Proof.Machine.execSeed h s
  | .vset h => Sys2Proof.Machine.execVset h s
  | .hint h => Sys2Proof.Machine.execHint h s
  | .hintTakesEffect h => Sys2Proof.Machine.execHintTakesEffect h s
  | .arrive h => Sys2Proof.Machine.execArrive h s
  | .wait h => Sys2Proof.Machine.execWait h s
  | .arriveWait h => Sys2Proof.Machine.execArriveWait h s
  | .barrierArrival n => Sys2Proof.Machine.execBarrierArrival n s
  | .br h => Sys2Proof.Machine.execBr h s
  | .lset h => Sys2Proof.Machine.execLset h s
  | .lend h => Sys2Proof.Machine.execLend h s
  | .stopReached h cycles => Sys2Proof.Machine.execStopReached h cycles s
  | .programResume m => Sys2Proof.Machine.execProgramResume m s
  | .modelLoadGo => Sys2Proof.Machine.execModelLoadGo s
  | .modelLoadPerform => Sys2Proof.Machine.execModelLoadPerform s
  | .modelLoadDone => Sys2Proof.Machine.execModelLoadDone s
  | .combStoreScrub found => Sys2Proof.Machine.execCombStoreScrub found s
  | .csrowRemap h => Sys2Proof.Machine.execCsrowRemap h s
  | .supersUe addr slot => Sys2Proof.Machine.execSupersUe addr slot s
  | .supAllocWrite c which v => Sys2Proof.Machine.execSupAllocWrite c which v s
  | .bar2Access a => Sys2Proof.Machine.execBar2Access a s
  | .sqDoorbell c q v => Sys2Proof.Machine.execSqDoorbell c q v s
  | .cqDoorbell c v => Sys2Proof.Machine.execCqDoorbell c v s
  | .jobFetch c q bytes => Sys2Proof.Machine.execJobFetch c q bytes s
  | .jobDispatch slot => Sys2Proof.Machine.execJobDispatch slot s
  | .jobSeedArrive slot => Sys2Proof.Machine.execJobSeedArrive slot s
  | .inputCopyDone slot bytes => Sys2Proof.Machine.execInputCopyDone slot bytes s
  | .jobEnd slot => Sys2Proof.Machine.execJobEnd slot s
  | .cqRecordWrite c => Sys2Proof.Machine.execCqRecordWrite c s
  | .cqModTimer c => Sys2Proof.Machine.execCqModTimer c s
  | .lendStart h slot => Sys2Proof.Machine.execLendStart h slot s
  | .lentJobReturn slot home => Sys2Proof.Machine.execLentJobReturn slot home s
  | .xpDb c v => Sys2Proof.Machine.execXpDb c v s
  | .expressStart c => Sys2Proof.Machine.execExpressStart c s
  | .colCancel c tag => Sys2Proof.Machine.execColCancel c tag s
  | .cancelAll c => Sys2Proof.Machine.execCancelAll c s
  | .colonyReset c => Sys2Proof.Machine.execColonyReset c s
  | .vfFlr c => Sys2Proof.Machine.execVfFlr c s
  | .queueConfigWrite c off v => Sys2Proof.Machine.execQueueConfigWrite c off v s
  | .mailboxWrite c off bytes => Sys2Proof.Machine.execMailboxWrite c off bytes s
  | .vfEnable => Sys2Proof.Machine.execVfEnable s
  | .vfDisable => Sys2Proof.Machine.execVfDisable s
  | .pf0Flr => Sys2Proof.Machine.execPf0Flr s
  | .busMasterEnable fn => Sys2Proof.Machine.execBusMasterEnable fn s
  | .msixUnmask fn v => Sys2Proof.Machine.execMsixUnmask fn v s
  | .foragerTail k v => Sys2Proof.Machine.execForagerTail k v s
  | .foragerEnable k log2 => Sys2Proof.Machine.execForagerEnable k log2 s
  | .foragerDisable k => Sys2Proof.Machine.execForagerDisable k s
  | .resume k => Sys2Proof.Machine.execResume k s
  | .gate k on => Sys2Proof.Machine.execGate k on s
  | .foragerErrClear k => Sys2Proof.Machine.execForagerErrClear k s
  | .foragerDescriptor k bytes => Sys2Proof.Machine.execForagerDescriptor k bytes s
  | .foragerDescriptorDone k data => Sys2Proof.Machine.execForagerDescriptorDone k data s
  | .cellarReadFail p why => Sys2Proof.Machine.execCellarReadFail p why s
  | .completionTimeout p => Sys2Proof.Machine.execCompletionTimeout p s
  | .tlpError e r => Sys2Proof.Machine.execTlpError e r s
  | .linkUp width speed => Sys2Proof.Machine.execLinkUp width speed s
  | .flitReceive p bytes => Sys2Proof.Machine.execFlitReceive p bytes s
  | .status p bytes => Sys2Proof.Machine.execStatus p bytes s
  | .nak p bytes => Sys2Proof.Machine.execNak p bytes s
  | .train f => Sys2Proof.Machine.execTrain f s
  | .retrain f => Sys2Proof.Machine.execRetrain f s
  | .heartbeatSend p => Sys2Proof.Machine.execHeartbeatSend p s
  | .retryTimeout p => Sys2Proof.Machine.execRetryTimeout p s
  | .heartbeatTimeout p => Sys2Proof.Machine.execHeartbeatTimeout p s
  | .exchangeTimeout p dst home tag => Sys2Proof.Machine.execExchangeTimeout p dst home tag s
  | .lossOfLight p pwr => Sys2Proof.Machine.execLossOfLight p pwr s
  | .probe p => Sys2Proof.Machine.execProbe p s
  | .answer p => Sys2Proof.Machine.execAnswer p s
  | .relit p => Sys2Proof.Machine.execRelit p s
  | .trainingDone p txGood rxGood serial rtt freq => Sys2Proof.Machine.execTrainingDone p txGood rxGood serial rtt freq s
  | .trainRetry p txGood rxGood => Sys2Proof.Machine.execTrainRetry p txGood rxGood s
  | .wavelengthLost p k => Sys2Proof.Machine.execWavelengthLost p k s
  | .retrainTimeout p => Sys2Proof.Machine.execRetrainTimeout p s
  | .en p v => Sys2Proof.Machine.execEn p v s
  | .loop p v => Sys2Proof.Machine.execLoop p v s
  | .portRetrain p => Sys2Proof.Machine.execPortRetrain p s
  | .dispatch m d => Sys2Proof.Machine.execDispatch m d s
  | .accept m => Sys2Proof.Machine.execAccept m s
  | .reject m code detail => Sys2Proof.Machine.execReject m code detail s
  | .swStop m reason => Sys2Proof.Machine.execSwStop m reason s
  | .done m => Sys2Proof.Machine.execDone m s
  | .timeout m dst port => Sys2Proof.Machine.execTimeout m dst port s
  | .rollbackMsg m k role standby => Sys2Proof.Machine.execRollbackMsg m k role standby s
  | .ckptDone m k => Sys2Proof.Machine.execCkptDone m k s
  | .arriveMsg m bar => Sys2Proof.Machine.execArriveMsg m bar s
  | .release m bar gen => Sys2Proof.Machine.execRelease m bar gen s
  | .tick m sec delay sub interval => Sys2Proof.Machine.execTick m sec delay sub interval s
  | .add m hive acc vals => Sys2Proof.Machine.execAdd m hive acc vals s
  | .move m hive off data => Sys2Proof.Machine.execMove m hive off data s
  | .ckptData m k hive off data => Sys2Proof.Machine.execCkptData m k hive off data s
  | .ckptLoad m k hive off data => Sys2Proof.Machine.execCkptLoad m k hive off data s
  | .token m value root list => Sys2Proof.Machine.execToken m value root list s
  | .tokenRet m value root list => Sys2Proof.Machine.execTokenRet m value root list s
  | .links m partners => Sys2Proof.Machine.execLinks m partners s
  | .map m sm => Sys2Proof.Machine.execMap m sm s
  | .stnFail m stn by_ => Sys2Proof.Machine.execStnFail m stn by_ s
  | .leaveMsg m => Sys2Proof.Machine.execLeaveMsg m s
  | .drain m => Sys2Proof.Machine.execDrain m s
  | .drained m => Sys2Proof.Machine.execDrained m s
  | .enum => Sys2Proof.Machine.execEnum s
  | .leave => Sys2Proof.Machine.execLeave s
  | .walkTimeout => Sys2Proof.Machine.execWalkTimeout s
  | .htWindowClose ns bits => Sys2Proof.Machine.execHtWindowClose ns bits s
  | .htStarved pair => Sys2Proof.Machine.execHtStarved pair s
  | .generateCall k => Sys2Proof.Machine.execGenerateCall k s
  | .drbgReseed => Sys2Proof.Machine.execDrbgReseed s
  | .grdRngDataRead who two => Sys2Proof.Machine.execGrdRngDataRead who two s
  | .cond v => Sys2Proof.Machine.execCond v s
  | .grst drkOk => Sys2Proof.Machine.execGrst drkOk s
  | .rawReq => Sys2Proof.Machine.execRawReq s
  | .rawAnswer => Sys2Proof.Machine.execRawAnswer s
  | .rawEnd => Sys2Proof.Machine.execRawEnd s
  | .grdRawDataRead two => Sys2Proof.Machine.execGrdRawDataRead two s
  | .testPatternEn v => Sys2Proof.Machine.execTestPatternEn v s
  | .seal c => Sys2Proof.Machine.execSeal c s
  | .unseal c => Sys2Proof.Machine.execUnseal c s
  | .keyUpdate => Sys2Proof.Machine.execKeyUpdate s
  | .lcOpen => Sys2Proof.Machine.execLcOpen s
  | .lcSeal => Sys2Proof.Machine.execLcSeal s
  | .drkProg => Sys2Proof.Machine.execDrkProg s
  | .guardCommandDone flashOk => Sys2Proof.Machine.execGuardCommandDone flashOk s
  | .ceGate v => Sys2Proof.Machine.execCeGate v s
  | .sealedDeferral h => Sys2Proof.Machine.execSealedDeferral h s
  | .sealedResume h slot ok => Sys2Proof.Machine.execSealedResume h slot ok s
  | .ppsEdge sub interval => Sys2Proof.Machine.execPpsEdge sub interval s
  | .holdoverTimeout => Sys2Proof.Machine.execHoldoverTimeout s
  | .setsec => Sys2Proof.Machine.execSetsec s
  | .tbSecondRollover => Sys2Proof.Machine.execTbSecondRollover s
  | .ppsOutEnd => Sys2Proof.Machine.execPpsOutEnd s
  | .pllLock straps => Sys2Proof.Machine.execPllLock straps s
  | .pllLockLoss => Sys2Proof.Machine.execPllLockLoss s
  | .vinGood inp => Sys2Proof.Machine.execVinGood inp s
  | .vinAFail => Sys2Proof.Machine.execVinAFail s
  | .vinBFail => Sys2Proof.Machine.execVinBFail s
  | .switchover => Sys2Proof.Machine.execSwitchover s
  | .holdEnter => Sys2Proof.Machine.execHoldEnter s
  | .returnToMain => Sys2Proof.Machine.execReturnToMain s
  | .standbyReturn => Sys2Proof.Machine.execStandbyReturn s
  | .budgetWrite v => Sys2Proof.Machine.execBudgetWrite v s
  | .powerLoss => Sys2Proof.Machine.execPowerLoss s
  | .inspectionPeriodic row pcol => Sys2Proof.Machine.execInspectionPeriodic row pcol s
  | .inspectionGo v => Sys2Proof.Machine.execInspectionGo v s
  | .inspectionDone row f => Sys2Proof.Machine.execInspectionDone row f s
  | .retirementDone row => Sys2Proof.Machine.execRetirementDone row s
  | .mapRecordCommit => Sys2Proof.Machine.execMapRecordCommit s
  | .clearField => Sys2Proof.Machine.execClearField s
  | .resetN => Sys2Proof.Machine.execResetN s
  | .perstN => Sys2Proof.Machine.execPerstN s
  | .linkHotReset => Sys2Proof.Machine.execLinkHotReset s
  | .warm => Sys2Proof.Machine.execWarm s
  | .cold => Sys2Proof.Machine.execCold s
  | .rcvGo ok => Sys2Proof.Machine.execRcvGo ok s
  | .bootStageDone info => Sys2Proof.Machine.execBootStageDone info s
  | .fwRewriteDone => Sys2Proof.Machine.execFwRewriteDone s
  | .queenFault => Sys2Proof.Machine.execQueenFault s
  | .thermalTrip => Sys2Proof.Machine.execThermalTrip s
  | .thermtripRelease => Sys2Proof.Machine.execThermtripRelease s
  | .snap => Sys2Proof.Machine.execSnap s
  | .obsCselWrite v => Sys2Proof.Machine.execObsCselWrite v s
  | .glassMark v => Sys2Proof.Machine.execGlassMark v s
  | .glassEnable v => Sys2Proof.Machine.execGlassEnable v s
  | .glassRecordWrite => Sys2Proof.Machine.execGlassRecordWrite s
  | .arm v => Sys2Proof.Machine.execArm v s
  | .smbStatus => Sys2Proof.Machine.execSmbStatus s
  | .tempCmp tj => Sys2Proof.Machine.execTempCmp tj s
  | .tempPhx temp => Sys2Proof.Machine.execTempPhx temp s
  | .smbVinAMv v => Sys2Proof.Machine.execSmbVinAMv v s
  | .smbVinAMa v => Sys2Proof.Machine.execSmbVinAMa v s
  | .smbVinBMv v => Sys2Proof.Machine.execSmbVinBMv v s
  | .smbVinBMa v => Sys2Proof.Machine.execSmbVinBMa v s
  | .smbCharge => Sys2Proof.Machine.execSmbCharge s
  | .smbMeas v => Sys2Proof.Machine.execSmbMeas v s
  | .smbBoot => Sys2Proof.Machine.execSmbBoot s
  | .smbRailMv rail v => Sys2Proof.Machine.execSmbRailMv rail v s
  | .smbRailP rail v => Sys2Proof.Machine.execSmbRailP rail v s
  | .smbIdent => Sys2Proof.Machine.execSmbIdent s
  | .alertResponse win => Sys2Proof.Machine.execAlertResponse win s
  | .bypass => Sys2Proof.Machine.execBypass s
  | .idcode => Sys2Proof.Machine.execIdcode s
  | .samplePreload pins preload => Sys2Proof.Machine.execSamplePreload pins preload s
  | .extest => Sys2Proof.Machine.execExtest s
  | .clamp => Sys2Proof.Machine.execClamp s
  | .highz => Sys2Proof.Machine.execHighz s
  | .tapReset => Sys2Proof.Machine.execTapReset s
  | .thermtripNDeassert tj => Sys2Proof.Machine.execThermtripNDeassert tj s
  | .tbSlewDone => Sys2Proof.Machine.execTbSlewDone s
  | .rawFifoWord raw => Sys2Proof.Machine.execRawFifoWord raw s
  | .smbClockLowTimeout => Sys2Proof.Machine.execSmbClockLowTimeout s
  | .smbOtherCommand code isWrite => Sys2Proof.Machine.execSmbOtherCommand code isWrite s
  | .perstNRelease => Sys2Proof.Machine.execPerstNRelease s

end Sys2Proof.Machine
end

