-- ==== Sys2Proof/Safety.lean ====
section
/-! DEFINITION. Safety.lean: the terms in which claims speak: safe runs, an instruction of a dance program that issues,
and what it leaves as it was. -/

namespace Sys2Proof.Machine

/-- The step of a state answers a next state. -/
def State.goesOn (s : State) : Prop := ∃ t, step s = .next t

/-- n steps from a state, each answered with a next state, lead to a state. -/
inductive Steps : Nat → State → State → Prop
  | zero (s : State) : Steps 0 s s
  | succ {n : Nat} {s t u : State} : step s = .next t → Steps n t u → Steps (n + 1) s u

/-- A state is safe when every run of its commands goes on. -/
def State.safe (s : State) : Prop := ∀ n t, Steps n s t → t.goesOn

/-- The instruction at the PC of hive h, of program p of job j, starts now: its 8 bytes read without an uncorrectable word,
it waits for nothing (R193) and no stop comes before it (R207, R208). -/
def State.issues (s : State) (h : HiveId) (p : Prog) (j : Job) (op : DOp) : Prop :=
  s.dancing h = some (p, j) ∧ s.winUe j.part.val h (s.pcOff j.part.val p) 8 = false ∧ s.fetchOp h p j = some op ∧
  opWaits s h p j op = false ∧ (s.hv h).stopsAt p (opCost s p j op) = false

/-- A unit that ran on hive h changed the state only as follows: the hive's program is q but for its records (those of the
STEP record and of R134), a STEP of PF0 is over; the counters and the glass of OBS moved (a glass record that finds its
buffer full raises PF0 vector 6); counts on their way came nearer; and no other hive and nothing else changed. -/
def Danced (h : HiveId) (q : Prog) (s t : State) : Prop :=
  (∃ tr a b l, ((s.hv h).late = [] → l = []) ∧
    t.hv h = { s.hv h with step := false, late := l, run := some { q with tr := tr, stN := a, stP := b } }) ∧
  (∀ k, k ≠ h → t.hv k = s.hv k) ∧
  t = { s with
    hives := t.hives, tx := t.tx, host := { s.host with pf0 := { s.host.pf0 with pba := t.host.pf0.pba } }
    obs := { s.obs with live := t.obs.live, evt := t.obs.evt, drop := t.obs.drop, loss := t.obs.loss, buf := t.obs.buf } }

/-- The counts that a unit of c cycles leaves: a yield point falls before it where the step would pass 432 cycles (R207). -/
def stepAfter (n c : Nat) : Nat := if 432 < n + c then c else n + c

/-- The program goes on to the next instruction after a unit of c cycles. -/
def Prog.past (p : Prog) (c : Nat) : Prog := { p with pc := p.pc + 1, stepCycles := stepAfter p.stepCycles c }

/-- The program goes on at an instruction index after a unit of c cycles. -/
def Prog.jump (p : Prog) (c n : Nat) : Prog := { p with pc := BitVec.ofNat 24 n, stepCycles := stepAfter p.stepCycles c }

/-- A program without the counts that only its STEP record and the storm rule keep. -/
def Prog.core (p : Prog) : Prog := { p with tr := {}, stN := 0, stP := 0 }

/-- What counts on their way add to accumulator i. -/
def landSum (l : List Landing) (i : Nat) : Word := (l.filter fun x => x.kind == .count && x.acc % 1024 == i).foldl (fun v x => v + x.v) 0

/-- The tables that a program carries are in canonical form. -/
def Prog.canonical (p : Prog) : Bool := tabWf 0 p.acc && tabWf 0 p.ps0 && tabWf 0 p.act0

/-- The comb store, the honey contexts and the programs of a hive are in canonical form. -/
def Hive.canonical (hv : Hive) : Bool :=
  Memory.wf hv.cs && (List.finRange 2).all (fun c : Fin 2 => tabWf 0 (hv.hny[c]).ps && tabWf 0 (hv.hny[c]).act) && hv.run.all Prog.canonical &&
  hv.wait.all Prog.canonical

/-- Every memory and sparse table that the commands rest on is in canonical form (log entry 3). -/
def State.canonical (s : State) : Prop :=
  Memory.wf s.sup.mem = true ∧ (∀ h, (s.hv h).canonical = true) ∧ (∀ c, Memory.wf (s.co c).r.mailbox = true) ∧
  (∀ x, x ∈ s.guard.saves → x.prog.canonical = true) ∧ ∀ k, k ∈ s.swarm.ckpts → ∀ p, p ∈ k.progs → p.canonical = true

/-- The lifecycle is one of its three states, and a command that will move it was accepted in the state that it leaves. -/
def State.lifecycleOk (s : State) : Prop :=
  1 ≤ s.guard.lc.toNat ∧
  (s.guard.busy = true → s.guard.verdict = none → (s.guard.op = 4 → s.guard.lc = 1) ∧ (s.guard.op = 5 → s.guard.lc = 2))

/-- The flits that a port has sent, the last one first, IDLE flits aside. -/
def sentOn (p : PortId) (l : List Tx) : List (List Byte) := l.filterMap fun
  | .flit q bs _ _ => if q = p ∧ bs ≠ idleFlit then some bs else none
  | _ => none

/-- A TRAIN flit that reports a good set (Table 13.8) has left a port. -/
def TrainSent (p : PortId) (good : BitVec 9) (echo : BitVec 16) (t : State) : Prop :=
  flitBytes 1 true true 0 (3 :: trainBytes { good := good, serial := Config.dsn, echo := echo }) ∈ sentOn p t.tx

/-- Neither a walk, nor a drain, nor a leave is under way at this station (R330, R331). -/
def State.noDrain (s : State) : Prop := s.swarm.st ≠ .draining ∧ s.swarm.drainOwed = false ∧ s.swarm.walk = none

/-- No port holds a message that it passes on for another. -/
def State.nonePassed (s : State) : Prop := ∀ (q : PortId) m, m ∈ (s.ports[q]).outq → m.from_ = none

/-- Port p was lost with a cause (R322): training values, LOSS, EXO_PLOSS; messages received there, and those partly sent there,
are gone; nothing else of the ports, jobs and hives changed. -/
def PortLost (p : PortId) (cause : Nat) (st : PortSt) (tx : TxLight) (s t : State) : Prop :=
  (t.ports[p]).st = st ∧ (t.ports[p]).tx = tx ∧ (t.ports[p]).lossCause = BitVec.ofNat 4 cause ∧
  (t.ports[p]).lossCount = satInc (s.ports[p]).lossCount ∧ (t.ports[p]).retry = [] ∧ (t.ports[p]).txNext = 0 ∧ (t.ports[p]).rxNext = 0 ∧
  (t.ports[p]).credits = creditInit ∧ (t.ports[p]).admitted = false ∧ (t.ports[p]).partnerV = false ∧ (t.ports[p]).partner = 0 ∧
  (t.ports[p]).pport = 0 ∧ (t.ports[p]).rxPart = [] ∧ (t.ports[p]).outq = (s.ports[p]).outq.filter (fun m => !m.started) ∧
  (t.ports[p]).evt.getLsbD 0 = true ∧ (∀ q, q ≠ p → t.ports[q] = s.ports[q]) ∧ (∀ m, m ∈ t.inbox ↔ m ∈ s.inbox ∧ m.port ≠ p) ∧
  t.jobs = s.jobs ∧ t.hives = s.hives ∧ t.swarm = s.swarm

/-- The part went through a reset with a cause (R456, R458, Table 20.2): jobs, models, hives and colonies are as at reset; the
fuses, the lifecycle, the wax slots and the brood store records stand; a warm reset keeps the supers outside the system region
and the time. -/
def WasReset (cold : Bool) (cause : BitVec 4) (s t : State) : Prop :=
  t.boot.cause = cause ∧ t.boot.stage = (if cold || s.boot.stage == 0 then 0 else 1) ∧ t.pending = s.pending ∧ t.jobs = [] ∧
  t.models = [] ∧ t.mesh = [] ∧ t.hives = Vector.replicate 96 {} ∧ t.cols = Vector.replicate 64 {} ∧ t.ports = Vector.replicate 4 {} ∧
  t.host = {} ∧ t.swarm = {} ∧ t.obs = {} ∧ t.guard.lc = s.guard.lc ∧ t.guard.drk = s.guard.drk ∧ t.guard.seals = 0 ∧
  t.guard.en = {} ∧ t.wax.slotA = s.wax.slotA ∧ t.wax.slotB = s.wax.slotB ∧ t.wax.st = .idle ∧ t.rpr.factory = s.rpr.factory ∧
  (s.wax.st ≠ .committing → t.wax.secX = s.wax.secX ∧ t.wax.secY = s.wax.secY) ∧
  (s.guard.busy = false → t.guard.recA = s.guard.recA ∧ t.guard.recB = s.guard.recB) ∧
  (s.rpr.wrBusy = false → t.rpr.m0 = s.rpr.m0 ∧ t.rpr.m1 = s.rpr.m1) ∧
  (cold = true → t.sup.mem = [] ∧ t.tb = {}) ∧
  (cold = false → t.tb.sec = s.tb.sec ∧ t.tb.sub = s.tb.sub ∧ t.tb.ftrim = s.tb.ftrim ∧
    (∀ a, 0x4000000 ≤ a → memRead t.sup.mem a = memRead s.sup.mem a) ∧ ∀ a, a < 0x4000000 → memRead t.sup.mem a = 0)

end Sys2Proof.Machine
end

