-- ==== Sys2Proof/Certificates/Slice0/Obligations.lean ====
section
/-! DEFINITION. Certificates/Slice0/Obligations.lean: the statements for the provers. -/

section

open Sys2Proof Sys2Proof.Machine

/-- Model, log entry 1. A step of a state whose queue has a command at its front runs that command with the queue's rest. -/
def Obligations.StepRunsFrontCommand : Prop :=
  ∀ (c : Instr) (rest : List Instr) (s : State),
    step { s with pending := c :: rest } = exec c { s with pending := rest }

/-- Model, log entries 1 and 79 (DESIGN CHOICE). On an empty queue one cycle passes: below the rollover TB_SUB counts (R397), and
while no correction builds up, no program runs, none waits for the charge (R418), no inspection, TLP or looped flit waits and nothing
was detected in the cycle before, nothing else changes. R289: while a TLP of an express request waits, the arbiter sends the oldest of them; with the link down it sends none.
R397 (when a correction is due: log entry 82): a skip advances TB_SUB by 2 and a hold by 0. -/
def Obligations.IdleStepIsOneCycle : Prop :=
  (∀ s : State, s.pending = [] → (∀ h, (s.hv h).run = none) → s.tb.sub < 1499999999 → (s.host.link.up = false ∨ s.txWaiting = []) →
    (∀ j, j ∈ s.jobs → j.endNow = false) → (∀ p : PortId, (s.ports[p]).lossNow = false ∧ (s.ports[p]).loopIn = []) →
    s.guard.en.throttled = false → s.rpr.inspWait = [] → (s.pwr.stage = 0 ∨ ∀ h, (s.hv h).wait = []) → s.tb.ftrim = 0 → s.tb.slew = 0 → s.tb.phase.natAbs < 1500000000 →
    step s = .next { s with tb := { s.tb with sub := s.tb.sub + 1 } }) ∧
  (∀ s : State, s.pending = [] → (∀ p : PortId, (s.ports[p]).loopIn = []) → ∃ t, step s = .next t ∧ t.tb.sec = s.tb.sec ∧
    (s.tb.sub = 1499999999 → t.tb.sub = s.tb.sub) ∧
    (∀ p : Int, p = s.tb.phase + s.tb.ftrim + s.tb.slewRate → s.tb.sub < 1499999999 →
      (p.natAbs < 1500000000 → t.tb.sub = s.tb.sub + 1 ∧ t.tb.phase = p) ∧ (p ≤ -1500000000 → t.tb.sub = s.tb.sub ∧ t.tb.phase = p + 1500000000) ∧
      (1500000000 ≤ p → s.tb.sub < 1499999998 → t.tb.sub = s.tb.sub + 2 ∧ t.tb.phase = p - 1500000000)) ∧
    t.tb.slew.natAbs ≤ s.tb.slew.natAbs ∧ (∀ j, j ∈ t.jobs → j.endNow = false) ∧
    (s.host.link.up = false → t.wired = s.wired) ∧
    (∀ i, s.host.link.up = true → (s.txWaiting.find? fun x => x.2 == .express) = some (i, .express) → t.wired = i :: s.wired))

/-- R516: an access to a reserved address of a length and alignment that R280 permits completes successfully; a read returns 0 and a
write changes nothing, so no AER bit, event bit or vector. -/
def Obligations.ReservedAddressesReadZeroAndIgnoreWrites : Prop :=
  (∀ (who : Req) (a : Nat) (w : Word × BitVec 4) (s : State),
    s.answers who = true → a % 4 = 0 → a + 4 ≤ barSize who → regNamed who a = none →
    exec (.registerWrite (.bar who a [w])) s = .next { s with resp := { status := .sc } } ∧
    barRead who a 1 s = { s with resp := { status := .sc, data := [0] } }) ∧
  (∀ (who : Req) (a : Nat) (w x : Word × BitVec 4) (s : State),
    s.answers who = true → a % 8 = 0 → a + 8 ≤ barSize who → regNamed who a = none → regNamed who (a + 4) = none →
    exec (.registerWrite (.bar who a [w, x])) s = .next { s with resp := { status := .sc } } ∧
    barRead who a 2 s = { s with resp := { status := .sc, data := [0, 0] } })

/-- R276, R280, R460 (Table 12.5): a request that its BAR does not answer is an Unsupported Request, and one of another length or
alignment a Completer Abort; either changes nothing but the AER status of its function, and a posted write gets no completion. R280:
one DW at a 4-byte-aligned address is written whole, one with a byte enable clear is discarded, and two DWs at an 8-byte-aligned
address are two such writes, the lower address first. R9: a bit that the part sets in the cycle of a write stays set in a W1C
register. R6, R7 (Table 0.2, W1C): a write to an event register clears exactly the bits written 1 and changes nothing else. R6, R8:
a write to a register whose fields are all RO changes nothing. -/
def Obligations.RegisterWritesReachTheirRegisters : Prop :=
  (∀ (who : Req) (a : Nat) (ws : List (Word × BitVec 4)) (s : State),
     (s.answers who = false →
       exec (.registerWrite (.bar who a ws)) s = .next (aerUnc (reqFn who) 20 s)) ∧
     (s.answers who = true → a + 4 * ws.length ≤ barSize who → mailOff who a = none →
       ¬(ws.length = 1 ∧ a % 4 = 0) → ¬(ws.length = 2 ∧ a % 8 = 0) →
       exec (.registerWrite (.bar who a ws)) s = .next (aerUnc (reqFn who) 15 s)) ∧
     (∀ n, s.answers who = false → barRead who a n s = (aerUnc (reqFn who) 20 s).cpl .ur)) ∧
  (∀ (who : Req) (a : Nat) (r q : Reg) (v x : Word) (be : BitVec 4) (s : State),
     s.answers who = true → s.boot.stage ≠ 7 → a + 8 ≤ barSize who → a % 8 = 0 → mailOff who a = none →
     regNamed who a = some r → regNamed who (a + 4) = some q →
     exec (.registerWrite (.bar who a [(v, 0xF)])) s = .next (regWrite r v { s with resp := { status := .sc } }) ∧
     (∀ same : DWord, exec (.registerWrite (.bar who a [(v, 0xF)] same)) s =
       .next (regWrite r (if r.hasW1c then v &&& ~~~(same.setWidth 32) else v) { s with resp := { status := .sc } })) ∧
     (be ≠ 0xF → exec (.registerWrite (.bar who a [(v, be)])) s = .next { s with resp := { status := .sc } }) ∧
     ((regWrite r v { s with resp := { status := .sc } }).boot.stage ≠ 7 →
       exec (.registerWrite (.bar who a [(v, 0xF), (x, 0xF)])) s =
         .next (regWrite q x (regWrite r v { s with resp := { status := .sc } })))) ∧
  (∀ (s : State) (v : Word) (p : PortId) (b : BankId) (o : RowId) (h : HiveId) (who : Req),
     regWrite (.wax .evt) v s = { s with wax := { s.wax with evt := s.wax.evt &&& ~~~v } } ∧
     regWrite (.rpr .evt) v s = { s with rpr := { s.rpr with evt := s.rpr.evt &&& ~~~v } } ∧
     regWrite (.pwr .evt) v s = { s with pwr := { s.pwr with evt := s.pwr.evt &&& ~~~v } } ∧
     regWrite (.tb .evt) v s = { s with tb := { s.tb with evt := s.tb.evt &&& ~~~v } } ∧
     regWrite (.sup .evt) v s = { s with sup := { s.sup with evt := s.sup.evt &&& ~~~v } } ∧
     regWrite (.obs .evt) v s = { s with obs := { s.obs with evt := s.obs.evt &&& ~~~v } } ∧
     regWrite (.exo .swEvt) v s = { s with swarm := { s.swarm with evt := s.swarm.evt &&& ~~~v } } ∧
     regWrite (.grd .enEvt) v s = { s with guard := { s.guard with en := { s.guard.en with evt := s.guard.en.evt &&& ~~~v } } } ∧
     regWrite (.grd .sealEvt) v s = { s with guard := { s.guard with sealEvt := s.guard.sealEvt &&& ~~~v } } ∧
     regRead (regWrite (.exo (.pevt p)) v s) (.exo (.pevt p)) = (s.ports[p]).evt &&& ~~~v ∧
     regRead (regWrite (.phx (.evt b)) v s) (.phx (.evt b)) = (s.phx.bank[b]).evt &&& ~~~v ∧
     regRead (regWrite (.ovs (.revt o)) v s) (.ovs (.revt o)) = (s.ovs.row[o]).evt &&& ~~~v ∧
     regRead (regWrite (.hive h .evt) v s) (.hive h .evt) = (s.hives[h]).evt &&& ~~~v) ∧
  (∀ (s : State) (v : Word) (c : ColId) (p : PortId) (b : BankId) (k : ChanId) (o : RowId) (h : HiveId) (q : Fin 4) (hi : Bool)
     (g : PartId) (f : Fn),
     ∀ r ∈ [Reg.cap .id, .cap .boot, .cap .bootTime, .cap .alarm, .cap .temp, .cap .romData, .qn .dldStat, .qn .dldPos, .qn .dldExp,
       .qn .stat, .qn .short, .col c true, .tb (.time hi), .tb .offs, .tb .ftrim, .pwr .stat, .pwr .charge, .pwr .inA, .pwr .inB,
       .pwr .railData, .pwr .cnt, .rpr .stat, .rpr .cap, .rpr (.barren 0), .rpr (.barren 1), .rpr (.barren 2), .rpr .inspStat,
       .rpr (.mapW hi), .rpr .logHead, .rpr (.logW q), .wax .stat, .wax .slot, .wax .ver, .wax .prevVer, .wax .gen, .wax .boot,
       .wax .chkStat, .wax .chkOffs, .wax (.pver g), .grd .stat, .grd .bias, .grd (.corr q), .grd .htStat, .grd .drbgCnt,
       .grd .drbgRseed, .grd .rngData, .grd .rawData, .grd .cmdStat, .grd .keyGen, .grd (.seal hi), .grd .sealCnt, .grd .ceStat,
       .exo .swStat, .exo .failStn, .exo (.memb hi), .exo (.pstat p), .exo (.ploss p), .exo (.pmap p), .exo (.plink p), .exo (.popt p),
       .exo (.pcnt p q hi), .phx .gstat, .phx .temp, .phx (.stat b), .phx (.loss b), .phx (.err b), .sup .stat, .sup (.ueAddr hi),
       .sup .ceCnt, .forg k .head, .forg k (.bytes hi), .irqSum, .pba f hi, .ovs (.rstat o), .ovs (.rcnt o 0 hi), .ovs (.rcnt o 1 hi),
       .ovs (.rcnt o 2 hi), .ovs (.rstorm o), .ovs (.hreq h), .obs (.cval hi), .obs (.snapTb hi), .obs .glWr, .obs .glDrop,
       .obs .smpStat, .hive h .id, .hive h .stat, .hive h .fault, .hive h .dncStat, .hive h .dncPc, .vf c .cqTail, .vf c (.sqHead q),
       .vf c .errPos, .vf c (.res hi), .vf c (.xres hi), .vf c .spData, .vf c (.tbTime hi), .vf c .tbQual],
       regWrite r v s = s)

/-- R407 and R262: a read of a low half loads the requester's shadow with the high half of the same cycle; the next read of that
pair's high half returns and empties it; any other read of a high half returns the live value and sets the requester's TORN bit; a
2-DW read of the pair returns both halves of one cycle and sets no TORN bit. -/
def Obligations.PairsObeyTheLowFirstRule : Prop :=
  ∀ (who : Req) (a : Nat) (lo hi : Reg) (s : State),
    s.answers who = true → s.boot.stage ≠ 7 → a % 4 = 0 → a + 8 ≤ barSize who →
    regNamed who a = some lo → lo.hiOf = some hi → regNamed who (a + 4) = some hi → isHiHalf who a = false →
    exec (.pairLoRead who a false) s = .next
      { s with
        shadows := tabSet none s.shadows (reqKey who) (some (a, regRead s hi)), resp := { data := [regRead s lo] } } ∧
    (∀ v, tabGet none s.shadows (reqKey who) = some (a, v) →
      exec (.pairHiRead who (a + 4)) s = .next
        { s with shadows := tabSet none s.shadows (reqKey who) none, resp := { data := [v] } }) ∧
    ((∀ v, tabGet none s.shadows (reqKey who) ≠ some (a, v)) →
      exec (.pairHiRead who (a + 4)) s = .next { setTorn who s with resp := { data := [regRead s hi] } }) ∧
    (a % 8 = 0 → ∃ t, exec (.pairLoRead who a true) s = .next t ∧ t.resp.data = [regRead s lo, regRead s hi] ∧
      t.tb = s.tb ∧ t.cols = s.cols)

/-- R520 and R6 (type RC): a read returns the value that the field held before the cycle's hardware update and clears it, and the
update of that cycle is applied to the cleared field. Reset of the rest: nothing else changes. -/
def Obligations.ReadsThatClearLoseNoUpdate : Prop :=
  ∀ (s : State), s.answers .pf0 = true → s.boot.stage ≠ 7 →
    (exec (.capTempRead false none) s = .next
      { s with boot := { s.boot with peak := 0 }, resp := { data := [regRead s (.cap .temp)] } }) ∧
    (∀ x, exec (.capTempRead false (some x)) s = .next
      { s with boot := { s.boot with tj := x, peak := x }, resp := { data := [regRead s (.cap .temp)] } }) ∧
    (∀ n, n < 2 ^ 32 → exec (.supCeCntRead false n) s = .next
      { s with sup := { s.sup with ceCnt := BitVec.ofNat 32 n }, resp := { data := [s.sup.ceCnt] } }) ∧
    (exec (.obsGlDropRead false) s = .next
      { s with obs := { s.obs with drop := 0 }, resp := { data := [s.obs.drop] } }) ∧
    (∀ b worst, ∃ t, exec (.phxBerrRead b false worst) s = .next t ∧ t.resp.data = [mkWord [(0, 16, (s.phx.bank[b]).worst.toNat)]] ∧
      (t.phx.bank[b]).worst = worst ∧ (∀ c, c ≠ b → t.phx.bank[c] = s.phx.bank[c]) ∧ t.sup = s.sup ∧ t.boot = s.boot ∧ t.obs = s.obs)

/-- R59, R62: a read of PRK_SP_DATA returns the Parnik value at key, stream id and position in the port's format and advances the
position modulo 2^32, setting WRAP when it wraps; while BUSY = 1 it returns 0, keeps the position and sets EARLY. R60, R61, R64: a
write of PRK_SP_KEY_HI commits the software key, clears HWK and BUSY; HWKEY requests one seed, or sets SEED_ERR when the expander is
halted; the seed that arrives for a pending request becomes the key, and one whose request was cancelled is discarded. -/
def Obligations.SamplingPortsReadTheirStream : Prop :=
  (∀ (c : ColId) (s : State), s.answers (.vf c) = true → s.boot.stage ≠ 7 →
     ((s.sp c).busy = false → ∃ t, exec (.prkSpDataRead c false) s = .next t ∧
       t.resp.data = [parnikFmt (s.sp c).fmt.toNat (parnik (s.sp c).key (s.sp c).sid (s.sp c).pos)] ∧
       t.sp c = { s.sp c with
         pos := (s.sp c).pos + 1, stat := if (s.sp c).pos = 0xFFFFFFFF then (s.sp c).stat ||| 16 else (s.sp c).stat } ∧
       (∀ d, d ≠ c → t.co d = s.co d) ∧ t.guard = s.guard ∧ t.jobs = s.jobs) ∧
     ((s.sp c).busy = true → ∃ t, exec (.prkSpDataRead c false) s = .next t ∧ t.resp.data = [0] ∧
       t.sp c = { s.sp c with stat := (s.sp c).stat ||| 8 } ∧ (∀ d, d ≠ c → t.co d = s.co d) ∧ t.guard = s.guard)) ∧
  (∀ (c : ColId) (v : Word) (s : State),
     (∃ t, exec (.prkSpKeyHiWrite c v) s = .next t ∧
       t.sp c = { s.sp c with key := pairOf v (s.sp c).keyLo, hwk := false, busy := false } ∧
       (∀ d, d ≠ c → t.co d = s.co d) ∧
       t.guard = { s.guard with en := { s.guard.en with throttled := t.guard.en.throttled } } ∧
       (s.guard.en.throttled = false → t.guard = s.guard)) ∧
     ((s.sp c).busy = false → s.guard.en.dead = false → ∃ t, exec (.hwkey c) s = .next t ∧
       t.sp c = { s.sp c with busy := true } ∧ (∀ d, d ≠ c → t.co d = s.co d)) ∧
     ((s.sp c).busy = false → s.guard.en.dead = true → ∃ t, exec (.hwkey c) s = .next t ∧
       t.sp c = { s.sp c with stat := (s.sp c).stat ||| 4 } ∧ (∀ d, d ≠ c → t.co d = s.co d) ∧ t.guard = s.guard) ∧
     ((s.sp c).busy = true → exec (.hwkey c) s = .next s) ∧
     (∀ k, s.guard.en.wire = [(.sp c, k)] → (s.sp c).busy = true → ∃ t, exec (.spSeedArrive c) s = .next t ∧
       t.sp c = { s.sp c with key := k, hwk := true, busy := false } ∧ t.guard.en.wire = [] ∧ (∀ d, d ≠ c → t.co d = s.co d)) ∧
     (∀ k, s.guard.en.wire = [(.sp c, k)] → (s.sp c).busy = false → ∃ t, exec (.spSeedArrive c) s = .next t ∧
       t.cols = s.cols ∧ t.guard.en.wire = []))

/-- R92 to R95: gate writes. A hive that holds no work and is not claimed is gated at once; on a claimed hive, and on one that holds
work, the gate waits; a hive of the express partition refuses it and posts GATE_REFUSED; FORCE gates at once; the last gate cleared
ungates the hive, and a write that clears a waiting gate withdraws it. R92 for the express partition: no gate is executed, the bits
keep the values they held, GATE_REFUSED is set. -/
def Obligations.GatesOfAHive : Prop :=
  (∀ (h : HiveId) (s : State), s.isExpressHive h = false →
     ((s.hv h).gated = false → (s.hv h).clkGate = false → (s.hv h).pwrGate = false → (s.hv h).claimed = false → (s.hv h).holdsWork = false →
       exec (.hivClkGate h) s = .next (updHive h (fun x => { x with
         clkGate := true, force := false, clkOff := true, clkWait := false, clkDefer := false }) s) ∧
       exec (.hivPwrGate h) s = .next (updHive h (fun x => { x with
         pwrGate := true, force := false, pwrOff := true, pwrSince := true, pwrWait := false, pwrDefer := false }) s) ∧
       (∀ clk pwr, (clk || pwr) = true → ∃ t, exec (.hivForceGate h clk pwr) s = .next t ∧ t = { s with hives := t.hives } ∧
         (t.hv h).clkOff = clk ∧ (t.hv h).pwrOff = pwr ∧ (t.hv h).force = true ∧ (t.hv h).cs = (s.hv h).cs ∧
         ∀ k, k ≠ h → t.hv k = s.hv k)) ∧
     ((s.hv h).gated = false → (s.hv h).clkGate = false → (s.hv h).pwrGate = false → (s.hv h).claimed = true →
       exec (.hivClkGate h) s = .next (updHive h (fun x => { x with
         clkGate := true, force := false, clkDefer := true, deferring := true }) s) ∧
       exec (.hivPwrGate h) s = .next (updHive h (fun x => { x with
         pwrGate := true, force := false, pwrDefer := true, deferring := true }) s)) ∧
     ((s.hv h).gated = false → (s.hv h).clkGate = false → (s.hv h).pwrGate = false → (s.hv h).claimed = false → (s.hv h).holdsWork = true →
       ∃ t, exec (.hivClkGate h) s = .next t ∧ t = { s with hives := t.hives } ∧ (t.hv h).clkWait = true ∧ (t.hv h).clkOff = false ∧
         (t.hv h).run = (s.hv h).run ∧ (t.hv h).wait = (s.hv h).wait.map (leaveHive s h) ∧
         ((s.hv h).run.isSome = true → StopWhy.gate ∈ (t.hv h).stops) ∧ ∀ k, k ≠ h → t.hv k = s.hv k) ∧
     ((s.hv h).clkGate = true → (s.hv h).clkOff = false → (s.hv h).pwrOff = false → (s.hv h).pwrGate = false →
       ∃ t, exec (.hivUngate h true true) s = .next t ∧ t = { s with hives := t.hives } ∧ (t.hv h).clkGate = false ∧
         (t.hv h).clkWait = false ∧ (t.hv h).clkDefer = false ∧ (t.hv h).clkOff = false ∧ (t.hv h).cs = (s.hv h).cs ∧
         (t.hv h).run = (s.hv h).run ∧ ∀ k, k ≠ h → t.hv k = s.hv k) ∧
     ((s.hv h).clkGate = true → (s.hv h).clkOff = true → (s.hv h).pwrOff = false → (s.hv h).pwrGate = false → (s.hv h).wait = [] →
       s.sealedHive h = false →
       ∃ t, exec (.hivUngate h true true) s = .next t ∧ t = { s with hives := t.hives } ∧ (t.hv h).gated = false ∧
         (t.hv h).clkGate = false ∧ (t.hv h).pwrSince = false ∧ (t.hv h).cs = (s.hv h).cs ∧ ∀ k, k ≠ h → t.hv k = s.hv k) ∧
     ((s.hv h).claimed = false → (s.hv h).holdsWork = false → (s.hv h).gated = false → ((s.hv h).clkWait || (s.hv h).clkDefer) = true →
       (s.hv h).pwrWait = false → (s.hv h).pwrDefer = false →
       ∃ t, exec (.deferredGateExecute h) s = .next t ∧ t = { s with hives := t.hives } ∧ (t.hv h).clkOff = (s.hv h).clkGate ∧
         (t.hv h).clkWait = false ∧ (t.hv h).clkDefer = false ∧ ∀ k, k ≠ h → t.hv k = s.hv k)) ∧
  (∀ (h : HiveId) (s : State), s.isExpressHive h = true →
     exec (.hivClkGate h) s = .next (postEvent (.hive h) 1 s) ∧ exec (.hivPwrGate h) s = .next (postEvent (.hive h) 1 s) ∧
     (∀ clk pwr, (clk || pwr) = true → exec (.hivForceGate h clk pwr) s = .next (postEvent (.hive h) 1 s)) ∧
     (∀ t, t = postEvent (.hive h) 1 s → (t.hv h).evt = (s.hv h).evt ||| 1 ∧ (t.hv h).clkGate = (s.hv h).clkGate ∧
       (t.hv h).pwrGate = (s.hv h).pwrGate ∧ (t.hv h).force = (s.hv h).force ∧ t.jobs = s.jobs ∧ t.wax = s.wax))

/-- R91 and the HNY_PS_DATA and HNY_ACT_DATA registers: a write reaches the honey context of an unclaimed IDLE hive at the word that
the index register selects, sets BUSY_WR on a hive that is not IDLE, and is ignored on a claimed one. R91 and R208: DNC_CTL is
ignored on an express or claimed hive; HALT is set, and STEP lets a halted dancer go on. -/
def Obligations.HoneyAndDancerControls : Prop :=
  (∀ (h : HiveId) (v : Word) (s : State),
     ((s.hv h).claimed = true → exec (.hnyPsDataWrite h v) s = .next s ∧ exec (.hnyActDataWrite h v) s = .next s) ∧
     ((s.hv h).claimed = false → s.idleHive h = false →
       exec (.hnyPsDataWrite h v) s = .next (postEvent (.hive h) 8 s) ∧ exec (.hnyActDataWrite h v) s = .next (postEvent (.hive h) 8 s)) ∧
     ((s.hv h).claimed = false → s.idleHive h = true → (∀ c : Fin 2, tabWf 0 ((s.hv h).hny[c]).ps = true ∧ tabWf 0 ((s.hv h).hny[c]).act = true) →
       (∃ t, exec (.hnyPsDataWrite h v) s = .next t ∧ t = { s with hives := t.hives } ∧ (∀ k, k ≠ h → t.hv k = s.hv k) ∧
         regRead t (.hive h .psData) = v ∧
         ∀ (c : Fin 2) i, (c.val ≠ (s.hv h).psIdx.toNat / 64 % 2 ∨ i ≠ (s.hv h).psIdx.toNat % 64) →
           tabGet 0 ((t.hv h).hny[c]).ps i = tabGet 0 ((s.hv h).hny[c]).ps i) ∧
       (∃ t, exec (.hnyActDataWrite h v) s = .next t ∧ t = { s with hives := t.hives } ∧ (∀ k, k ≠ h → t.hv k = s.hv k) ∧
         regRead t (.hive h .actData) = v ∧
         ∀ (c : Fin 2) i, (c.val ≠ (s.hv h).actIdx.toNat / 1024 % 2 ∨ i ≠ (s.hv h).actIdx.toNat % 1024) →
           tabGet 0 ((t.hv h).hny[c]).act i = tabGet 0 ((s.hv h).hny[c]).act i))) ∧
  (∀ (h : HiveId) (s : State),
     (s.dncIgnored h = true → exec (.dncHalt h) s = .next s ∧ exec (.dncStep h) s = .next s) ∧
     (s.dncIgnored h = false →
       exec (.dncHalt h) s = .next (updHive h (fun x => { x with halt := true }) s) ∧
       ((s.hv h).halted = true → exec (.dncStep h) s = .next (updHive h (fun x => { x with halted := false, step := true }) s)) ∧
       ((s.hv h).halted = false → exec (.dncStep h) s = .next s)))

/-- Tables 9.3 and 9.4: what FN of ALU computes and when COND of BR branches. -/
def Obligations.AluAndConditionsFollowTheirTables : Prop :=
  ∀ a b : Word,
    aluOp 0 a b = BitVec.ofNat 32 (a.toNat + b.toNat) ∧ aluOp 1 a b = BitVec.ofInt 32 (a.toNat - b.toNat) ∧
    (∀ i, (aluOp 2 a b).getLsbD i = (a.getLsbD i && b.getLsbD i)) ∧ (∀ i, (aluOp 3 a b).getLsbD i = (a.getLsbD i || b.getLsbD i)) ∧
    (∀ i, (aluOp 4 a b).getLsbD i = (a.getLsbD i ^^ b.getLsbD i)) ∧
    aluOp 5 a b = BitVec.ofNat 32 (a.toNat * 2 ^ (b.toNat % 32)) ∧ (aluOp 6 a b).toNat = a.toNat / 2 ^ (b.toNat % 32) ∧
    (aluOp 7 a b).toInt = a.toInt / 2 ^ (b.toNat % 32) ∧ aluOp 8 a b = BitVec.ofNat 32 (a.toNat * b.toNat) ∧
    (aluOp 9 a b).toInt = min a.toInt b.toInt ∧ (aluOp 10 a b).toInt = max a.toInt b.toInt ∧
    aluOp 11 a b = (if a.toInt < b.toInt then 1 else 0) ∧ aluOp 12 a b = (if a.toNat < b.toNat then 1 else 0) ∧
    condHolds 0 a b = true ∧ (condHolds 1 a b = true ↔ a = b) ∧ (condHolds 2 a b = true ↔ a ≠ b) ∧
    (condHolds 3 a b = true ↔ a.toInt < b.toInt) ∧ (condHolds 4 a b = true ↔ b.toInt ≤ a.toInt) ∧
    (condHolds 5 a b = true ↔ a.toNat < b.toNat) ∧ (condHolds 6 a b = true ↔ b.toNat ≤ a.toNat) ∧
    (condHolds 7 a b = true ↔ a = 0) ∧ (condHolds 8 a b = true ↔ a ≠ 0)

/-- R185, R188, R190, R195, R201, R206 (Tables 9.2 to 9.4, 9.7): the instructions that act on the registers of a program, each with
its result, its cycles, and nothing else of the part changed but counters and glass. -/
def Obligations.RegisterInstructionsOfADancer : Prop :=
  ∀ (h : HiveId) (s : State) (p : Prog) (j : Job),
    (s.issues h p j .nop → ∃ t, exec (.nop h) s = .next t ∧ Danced h (p.past 1) s t) ∧
    (s.issues h p j .yield → ∃ t, exec (.yield_ h) s = .next t ∧ Danced h { p.past 1 with stepCycles := 0 } s t) ∧
    (∀ rd imm, s.issues h p j (.li rd imm) → ∃ t, exec (.li h) s = .next t ∧ Danced h { p.past 1 with g := p.g.set rd imm } s t) ∧
    (∀ rd ra rb fn useImm imm, s.issues h p j (.alu rd ra rb fn useImm imm) → ∃ t, exec (.alu h) s = .next t ∧
      Danced h { p.past 1 with g := p.g.set rd (aluOp fn p.g[ra] (if useImm then imm else p.g[rb])) } s t) ∧
    (∀ cond ra rb n, s.issues h p j (.br cond ra rb n) → ∃ t, exec (.br h) s = .next t ∧
      Danced h (if condHolds cond p.g[ra] p.g[rb] then p.jump 2 n else p.past 1) s t) ∧
    (∀ lc useReg ra n, s.issues h p j (.lset lc useReg ra n) → ∃ t, exec (.lset h) s = .next t ∧
      Danced h { p.past 1 with l := p.l.set lc (if useReg then p.g[ra].setWidth 16 else BitVec.ofNat 16 n) } s t) ∧
    (∀ lc n, s.issues h p j (.lend lc n) → ∃ t, exec (.lend h) s = .next t ∧
      Danced h (if p.l[lc] = 0 ∨ p.l[lc] = 1 then { p.past 1 with l := p.l.set lc 0 }
        else { p.jump 2 n with l := p.l.set lc (p.l[lc] - 1) }) s t) ∧
    (∀ l, s.issues h p j (.seed l) → ∃ t, exec (.seed h) s = .next t ∧ Danced h { p.past 1 with layer := BitVec.ofNat 8 l } s t) ∧
    (∀ level lead, s.issues h p j (.vset level lead) → ∃ t l, exec (.vset h) s = .next t ∧
      (t.hv h).late = l ++ (if h.val < 12 ∨ lead = 0 then [] else [{ seq := s.seq, left := lead, kind := .request }]) ∧
      Danced h { p.past 1 with ovs := if h.val < 12 then p.ovs
        else if lead = 0 then { p.ovs with req := level, pendV := false } else { p.ovs with pend := level, pendV := true } }
        s (updHive h (fun x => { x with late := l }) t))

/-- R189, R193, R194, R200: the instructions that read the window of a program, while no word that they read is uncorrectable: LD,
LDP, CLR, GET and DRAW, with their results; a count that lands after CLR adds to its accumulator (R83, R200; what lands when is log
entry 72). R187, R189: ST writes the four bytes of a word into the window; a byte of the program region is not written; every other
byte of the comb store, and every other hive, stays. -/
def Obligations.WindowAccessesOfADancer : Prop :=
  (∀ (h : HiveId) (s : State) (p : Prog) (j : Job),
     (∀ rd ra imm, s.issues h p j (.ld rd ra imm) → s.winUe j.part.val h (alignDown (p.g[ra] + imm).toNat 2) 4 = false →
       ∃ t, exec (.ld h) s = .next t ∧ (t.hv h).run.map (fun q => (q.pc, q.g)) = some (p.pc + 1,
           p.g.set rd (BitVec.ofNat 32 (leNat (s.winRead j.part.val h (alignDown (p.g[ra] + imm).toNat 2) 4)))) ∧
         (t.hv h).cs = (s.hv h).cs ∧ t.jobs = s.jobs ∧ (∀ k, k ≠ h → t.hv k = s.hv k) ∧
         ((s.hv h).late = [] → Danced h { p.past 2 with
           g := p.g.set rd (BitVec.ofNat 32 (leNat (s.winRead j.part.val h (alignDown (p.g[ra] + imm).toNat 2) 4))) } s t)) ∧
     (∀ ctx ra k n, s.issues h p j (.ldp ctx false ra k n) → s.winUe j.part.val h (p.g[ra]).toNat (16 * n) = false →
       tabWf 0 ((s.hv h).hny[p.ctxOf ctx]).ps = true →
       ∃ t, exec (.ldp h) s = .next t ∧
         (t.hv h).run.map (fun q => (q.pc, q.g)) = some (p.pc + 1, p.g) ∧ t.jobs = s.jobs ∧ (t.hv h).cs = (s.hv h).cs ∧
         ((s.hv h).late = [] → (t.hv h).run.map Prog.core = some (p.past (1 + (16 * n + 255) / 256)).core) ∧
         (∀ i, i < 4 * n → tabGet 0 ((t.hv h).hny[p.ctxOf ctx]).ps (4 * k + i) =
           BitVec.ofNat 32 (leNat (s.winRead j.part.val h ((p.g[ra]).toNat + 4 * i) 4))) ∧
         (∀ i, (i < 4 * k ∨ 4 * k + 4 * n ≤ i) → tabGet 0 ((t.hv h).hny[p.ctxOf ctx]).ps i = tabGet 0 ((s.hv h).hny[p.ctxOf ctx]).ps i)) ∧
     (∀ ctx ra k n, s.issues h p j (.ldp ctx true ra k n) → s.winUe j.part.val h (p.g[ra]).toNat (4 * n) = false →
       tabWf 0 ((s.hv h).hny[p.ctxOf ctx]).act = true →
       ∃ t, exec (.ldp h) s = .next t ∧
         (t.hv h).run.map (fun q => (q.pc, q.g)) = some (p.pc + 1, p.g) ∧ t.jobs = s.jobs ∧ (t.hv h).cs = (s.hv h).cs ∧
         ((s.hv h).late = [] → (t.hv h).run.map Prog.core = some (p.past (1 + (4 * n + 255) / 256)).core) ∧
         (∀ i, i < n → tabGet 0 ((t.hv h).hny[p.ctxOf ctx]).act (k + i) =
           BitVec.ofNat 32 (leNat (s.winRead j.part.val h ((p.g[ra]).toNat + 4 * i) 4))) ∧
         (∀ i, (i < k ∨ k + n ≤ i) → tabGet 0 ((t.hv h).hny[p.ctxOf ctx]).act i = tabGet 0 ((s.hv h).hny[p.ctxOf ctx]).act i)) ∧
     (∀ ra n, s.issues h p j (.clr ra n) → n ≤ 1024 → tabWf 0 p.acc = true → ∃ t q, exec (.clr h) s = .next t ∧
       q = p.clear (s.hv h).late (p.g[ra]).toNat n ∧ Danced h { p.past (1 + (n + 63) / 64) with acc := q.acc, fins := q.fins } s t ∧
       ((s.hv h).late = [] → q.fins = p.fins) ∧
       ∀ i, i < 1024 → tabGet 0 q.acc i =
         if (i + 1024 - (p.g[ra]).toNat % 1024) % 1024 < n then landSum (s.hv h).late i else tabGet 0 p.acc i) ∧
     (∀ ra rd, s.issues h p j (.get ra rd) → ∃ t, exec (.get h) s = .next t ∧
       (t.hv h).run.map (fun q => (q.pc, q.g, q.acc)) = some (p.pc + 1, p.g.set rd (tabGet 0 p.acc ((p.g[ra]).toNat % 1024)), p.acc) ∧
       (t.hv h).cs = (s.hv h).cs ∧ t.jobs = s.jobs ∧ (∀ k, k ≠ h → t.hv k = s.hv k) ∧
       ((s.hv h).late = [] → Danced h { p.past 2 with g := p.g.set rd (tabGet 0 p.acc ((p.g[ra]).toNat % 1024)) } s t)) ∧
     (∀ ra rb rc rd re ctx rn, s.issues h p j (.draw ra rb rc rd re ctx rn) →
       s.winUe j.part.val h (alignDown (p.g[ra]).toNat 2) (4 * (fld p.g[rc] 0 12 + 1)) = false →
       2 * (fld p.g[rc] 12 6 + 1) ≤ s.winSize j.part.val → s.progRegion j.part.val p.home = none →
       Memory.wf (s.hv h).cs = true → ∃ t, exec (.draw h) s = .next t ∧
         (t.hv h).run.map (fun q => (q.pc, q.g)) = some (p.pc + 1, p.g) ∧ t.jobs = s.jobs ∧
         ((s.hv h).late = [] → (t.hv h).run.map Prog.core = some (p.past (1 + (fld p.g[rc] 0 12 + 1 + 63) / 64 + 8)).core) ∧
         t.winRead j.part.val h (alignDown (p.g[rb]).toNat 1) (2 * min (fld p.g[rc] 12 6 + 1) (fld p.g[rc] 0 12 + 1)) =
           (drawOf s h p j ctx rn (drawArgs p.g[ra] p.g[rb] p.g[rc] p.g[rd] p.g[re])).flatMap (leBytes 2))) ∧
  (∀ (h : HiveId) (s : State) (p : Prog) (j : Job) (ra rb : Reg4) (imm : Word),
     s.issues h p j (.st ra rb imm) → 4 ≤ s.winSize j.part.val → Memory.wf (s.hv h).cs = true → ∃ t, exec (.st h) s = .next t ∧
       (t.hv h).run.map Prog.core = some (p.past 1).core ∧ (∀ k, k ≠ h → t.hv k = s.hv k) ∧ t.guard = s.guard ∧ t.sup = s.sup ∧
       (∀ i, i < 4 → memRead (t.hv h).cs (s.winAddr j.part.val (alignDown (p.g[ra] + imm).toNat 2 + i)) =
         if inRegion (s.progRegion j.part.val p.home) ((alignDown (p.g[ra] + imm).toNat 2 + i) % s.winSize j.part.val)
         then memRead (s.hv h).cs (s.winAddr j.part.val (alignDown (p.g[ra] + imm).toNat 2 + i))
         else BitVec.ofNat 8 ((p.g[rb]).toNat / 2 ^ (8 * i))) ∧
       (∀ a, (∀ i, i < 4 → a ≠ s.winAddr j.part.val (alignDown (p.g[ra] + imm).toNat 2 + i)) →
         memRead (t.hv h).cs a = memRead (s.hv h).cs a) ∧
       ((∃ i, i < 4 ∧ inRegion (s.progRegion j.part.val p.home) ((alignDown (p.g[ra] + imm).toNat 2 + i) % s.winSize j.part.val) = true) →
         j.progWr = false → (t.co j.col).r.err = setBit (s.co j.col).r.err 4))

/-- R39, R79, R198, R200, R522: REQ requantises accumulators through the parameter record as it stands and writes each result at its
place; CHAIN_FIN does it for the oldest chain whose last count has landed; Z clamped or the reserved ACT sets HIV_EVT.PARAM. R39,
R79 (Table 4.3): what a requantisation yields, by OUT and ACT, and when it sets PARAM. -/
def Obligations.RequantisedResultsAreWritten : Prop :=
  (∀ (h : HiveId) (s : State) (p : Prog) (j : Job),
     (∀ ra rb ctx rn n, s.issues h p j (.req ra rb ctx rn n) → s.progRegion j.part.val p.home = none → Memory.wf (s.hv h).cs = true → 0 < n →
       n * ((s.honey h p ctx).recOf rn.val).width ≤ s.winSize j.part.val →
       ∃ t, exec (.req h) s = .next t ∧ (t.hv h).run.map (fun q => (q.pc, q.g, q.acc)) = some (p.pc + 1, p.g, p.acc) ∧
         ((s.hv h).late = [] → (t.hv h).run.map Prog.core = some (p.past (1 + (n + 31) / 32)).core) ∧
         (∀ i, i < n → t.winRead j.part.val h ((p.g[rb]).toNat + i * ((s.honey h p ctx).recOf rn.val).width)
             ((s.honey h p ctx).recOf rn.val).width =
           (requant (s.honey h p ctx) ((s.honey h p ctx).recOf rn.val) (tabGet 0 p.acc (((p.g[ra]).toNat + i) % 1024))).1) ∧
         (t.hv h).evt = (if ((s.honey h p ctx).recOf rn.val).param then (s.hv h).evt ||| 2 else (s.hv h).evt) ∧
         t.jobs = s.jobs ∧ (∀ k, k ≠ h → t.hv k = s.hv k)) ∧
     (∀ f rest, (s.hv h).run = some p → s.job? p.slot = some j → p.fins = f :: rest → s.pwr.held = false →
       s.progRegion j.part.val p.home = none → Memory.wf (s.hv h).cs = true → 4 ≤ s.winSize j.part.val →
       ∃ t, exec (.chainFin h) s = .next t ∧ (t.hv h).run = some { p with fins := rest } ∧
         t.winRead j.part.val h (f.out + f.index * ((s.honey h p f.ctx).recOf f.recNo.val).width) ((s.honey h p f.ctx).recOf f.recNo.val).width =
           (requant (s.honey h p f.ctx) ((s.honey h p f.ctx).recOf f.recNo.val) f.v).1 ∧
         (t.hv h).evt = (if ((s.honey h p f.ctx).recOf f.recNo.val).param then (s.hv h).evt ||| 2 else (s.hv h).evt) ∧
         t.jobs = s.jobs ∧ (∀ k, k ≠ h → t.hv k = s.hv k))) ∧
  (∀ (r : HnyRec) (c : HnyCtx) (a : Word),
     r.scaled a = (if r.sh = 0 then ((a.toNat : Int) - max (-(2 ^ 30)) (min (2 ^ 30) r.z)) * r.m
       else (((a.toNat : Int) - max (-(2 ^ 30)) (min (2 ^ 30) r.z)) * r.m + 2 ^ (r.sh - 1)) / 2 ^ r.sh) ∧
     (r.score = true → (requant c r a).1 = leBytes 4 (toField (max (-(2 ^ 31)) (min (2 ^ 31 - 1) (r.scaled a))) 32)) ∧
     (r.score = false → r.act = 0 → (requant c r a).1 = leBytes 2 (max 0 (min 4095 (r.scaled a + r.q0))).toNat) ∧
     (r.score = false → r.act = 1 → (requant c r a).1 = leBytes 2 (actCode c (max 0 (min 4095 (r.scaled a + r.q0))).toNat)) ∧
     (r.score = false → r.act = 2 → (requant c r a).1 = leBytes 2 (max (max 0 (min 4095 (r.scaled a + r.q0))).toNat r.q0)) ∧
     ((requant c r a).1.length = r.width) ∧ (r.param = true ↔ (r.act = 3 ∨ r.z < -(2 ^ 30) ∨ 2 ^ 30 < r.z)) ∧
     (∀ q, actCode c q ≤ 4095))

/-- R191, R192, R193: MOV and LDW start a copy and the dancer goes on; a MOV for a hive that the job's partition does not own is
discarded with a colony error. LDW_COPY_DONE writes the bytes of the supers allocation; MOV_MESSAGE moves at most 256 bytes into the
window of the destination hive. -/
def Obligations.CopiesOfADancer : Prop :=
  ∀ (h : HiveId) (s : State) (p : Prog) (j : Job),
    (∀ ra rb rc len, s.issues h p j (.mov ra rb rc len) → movForeign s j (movOf s p.home j p.g[ra] p.g[rb] p.g[rc] len) = false →
      ∃ t, exec (.mov h) s = .next t ∧ t.seq = s.seq + 1 ∧
        (t.hv h).run.map (fun q => (q.pc, q.mov)) = some (p.pc + 1, movOf s p.home j p.g[ra] p.g[rb] p.g[rc] len) ∧
        ((s.hv h).late = [] → Danced h { p.past 1 with mov := movOf s p.home j p.g[ra] p.g[rb] p.g[rc] len } s { t with seq := s.seq })) ∧
    (∀ ra rb rc len, s.issues h p j (.mov ra rb rc len) → movForeign s j (movOf s p.home j p.g[ra] p.g[rb] p.g[rc] len) = true →
      ∃ t, exec (.mov h) s = .next t ∧ (t.hv h).run.map (fun q => (q.pc, q.mov)) = some (p.pc + 1, p.mov) ∧
        ((s.hv h).late = [] → (t.hv h).run.map Prog.core = some (p.past 1).core) ∧ (t.co j.col).r.err = setBit (s.co j.col).r.err 6 ∧ t.jobs = s.jobs ∧ ∀ k, k ≠ h → t.hv k = s.hv k) ∧
    (∀ ra rb len, s.issues h p j (.ldw ra rb len) → ∃ t, exec (.ldw h) s = .next t ∧
      Danced h { p.past 1 with ldw := p.ldw ++ [{ src := 64 * (p.g[ra]).toNat, dst := (p.g[rb]).toNat, left := len }] } s t) ∧
    (∀ c rest, s.dancing h = some (p, j) → p.ldw = c :: rest → c.left ≤ s.winSize j.part.val →
      s.progRegion j.part.val p.home = none → s.caBytes (s.wax.img.colonyOf j.part.val) ≠ 0 →
      s.supUe (s.wax.img.colonyOf j.part.val) c.src c.left = [] → Memory.wf (s.hv h).cs = true →
      ∃ t, exec (.ldwCopyDone { hive := h }) s = .next t ∧ t = { s with hives := t.hives } ∧
        (t.hv h).run = some { p with ldw := rest ++ p.rounds.take (2 - rest.length), rounds := p.rounds.drop (2 - rest.length) } ∧
        (∀ k, k ≠ h → t.hv k = s.hv k) ∧ t.winRead j.part.val h c.dst c.left = s.supRead (s.wax.img.colonyOf j.part.val) c.src c.left ∧
        ∀ a, (∀ i, i < c.left → a ≠ s.winAddr j.part.val (c.dst + i)) → memRead (t.hv h).cs a = memRead (s.hv h).cs a) ∧
    (∀ m, s.dancing h = some (p, j) → p.mov = some m → m.station = none → m.hive = h → p.home = h → p.win = none →
      j.winHive h = h → s.progOf p.slot h = some p → min 256 m.left ≤ s.winSize j.part.val → s.progRegion j.part.val h = none →
      s.winUe j.part.val h m.src (min 256 m.left) = false → Memory.wf (s.hv h).cs = true →
      ∃ t, exec (.movMessage h.val none) s = .next t ∧ t = { s with hives := t.hives } ∧ (∀ k, k ≠ h → t.hv k = s.hv k) ∧
        (t.hv h).run = some { p with mov := (if m.left ≤ 256 then none else
            some { m with src := m.src + 256, dst := m.dst + 256, left := m.left - 256 }) } ∧
        t.winRead j.part.val h m.dst (min 256 m.left) = s.winRead j.part.val h m.src (min 256 m.left)) ∧
    (∀ m k, s.dancing h = some (p, j) → p.mov = some m → ∃ t, exec (.movMessage h.val (some k)) s = .next t ∧
      (∀ d, m.station = none → d = routerBy k.val h (meshPath s.wax.img h m.hive) →
        (t.hv d).uncorr.getLsbD k.val = true ∧ (t.hv d).evt.getLsbD 2 = true) ∧
      (∀ a, m.station = some a → (t.hv h).uncorr.getLsbD k.val = true ∧ (t.hv h).evt.getLsbD 2 = true))

/-- R75, R76, R88, R524: a count that lands adds into the accumulator of its job's program on the destination hive, wherever the
program lies; a discarded flit sets UNCORR of the link by which it came and HIV_EVT.FAULT at the router that meets it. R31 to R35,
R73: a pass that no timing error touches counts at most one per term and bit: at most the terms times the bits of its sub-cell, and
a unary weight of code k in an XNOR-free layer adds at most the ones of its stream. -/
def Obligations.MeshCountsAddExactly : Prop :=
  (∀ (n : Nat) (m : MeshMsg) (s : State), s.mesh[n]? = some m →
     (∃ t, exec (.meshCountMessage n none) s = .next t ∧ t = { s with mesh := t.mesh, hives := t.hives, guard := t.guard } ∧
       t.mesh = s.mesh.take n ++ s.mesh.drop (n + 1) ∧
       (∀ h p, (s.hv h).run = some p → p.slot = m.slot → p.home = m.dst → p.sealed = false → tabWf 0 p.acc = true →
         ∃ q, (t.hv h).run = some q ∧ q = { p with acc := q.acc, fins := q.fins } ∧ ((s.hv h).late = [] → q.fins = p.fins) ∧
           tabGet 0 q.acc (m.acc % 1024) = tabGet 0 p.acc (m.acc % 1024) + m.v ∧
           ∀ i, i < 1024 → i ≠ m.acc % 1024 → tabGet 0 q.acc i = tabGet 0 p.acc i) ∧
       (∀ h p, (s.hv h).run = some p → (p.slot ≠ m.slot ∨ p.home ≠ m.dst) → (t.hv h).run = some p)) ∧
     (∀ k, s.job? m.slot = none ∨ s.jobRuns m.slot = true → ∃ t, exec (.meshCountMessage n (some k)) s = .next t ∧
       t.mesh = s.mesh.take n ++ s.mesh.drop (n + 1) ∧ (t.hv (routerBy k.val m.src m.path)).uncorr.getLsbD k.val = true ∧
       (t.hv (routerBy k.val m.src m.path)).evt.getLsbD 2 = true) ∧
     (∀ (k : Nat) (a b : HiveId) (r : List HiveId), routerBy k a [] = a ∧ (linkInto a b = k → routerBy k a (b :: r) = b) ∧
       (linkInto a b ≠ k → routerBy k a (b :: r) = routerBy k b r))) ∧
  ((∀ (s : State) (h : HiveId) (a : StreamArgs) (x : PassAt) (j sl : Nat),
     slabCount s h a x j sl ≤ a.shape.realTerms x.p * min 256 a.shape.mode.len) ∧
   (∀ (m : CellMode) (wsid isid : BitVec 24) (wc ic pos n : Nat), m.randw = false → m.bip = false → n ≤ m.len →
     termOnes m wsid isid wc ic pos 0 n ≤ unaryOnes wc m.len) ∧
   (∀ c len, c ≤ 4095 → unaryOnes c len ≤ len))

/-- R202: HINT adds a pending hint, takes effect at once with a lead of 0 and does nothing on an express hive; a hint that takes
effect is the one with the earliest start. R203, R204: ARRIVE sends an arrival; WAIT and ARRIVE_WAIT raise the expectation once and
go on when the barrier has been released, and else wait at a yield point; an arrival counts, and the last one releases the barrier.
-/
def Obligations.HintsAndBarriers : Prop :=
  (∀ (h : HiveId) (s : State) (p : Prog) (j : Job),
     (∀ combs, s.issues h p j (.hint combs 0) → s.isExpressHive h = false → ∃ t, exec (.hint h) s = .next t ∧
       (t.hv h).hinted = combs ∧ (t.hv h).hints = (s.hv h).hints ∧ (t.hv h).run.map Prog.core = some (p.past 1).core ∧
       ∀ k, k ≠ h → t.hv k = s.hv k) ∧
     (∀ combs lead, s.issues h p j (.hint combs lead) → s.isExpressHive h = true → ∃ t, exec (.hint h) s = .next t ∧
       Danced h (p.past 1) s t) ∧
     (∀ combs lead, s.issues h p j (.hint combs lead) → s.isExpressHive h = false → 0 < lead → (s.hv h).hints.length ≤ 4 →
       ∃ t x, exec (.hint h) s = .next t ∧ x ∈ (t.hv h).hints ∧ x.combs = combs ∧ (t.hv h).hints.length ≤ 4 ∧
         (t.hv h).hinted = (s.hv h).hinted ∧ (t.hv h).run.map Prog.core = some (p.past 1).core ∧ ∀ k, k ≠ h → t.hv k = s.hv k) ∧
     (∀ x r, (s.hv h).hints = x :: r → exec (.hintTakesEffect h) s = .next (updHive h (fun v => { v with
       hints := r, hinted := x.combs, hintFrom := x.issued + 3000, hintWas := if x.start < v.hintFrom then v.hintWas else v.hinted }) s)) ∧
     ((s.hv h).hints = [] → exec (.hintTakesEffect h) s = .next s)) ∧
  ((∀ (h : HiveId) (s : State) (p : Prog) (j : Job) (b : Fin 32),
     (s.issues h p j (.arrive b) → ∃ t, exec (.arrive h) s = .next t ∧ t.seq = s.seq + 1 ∧
       t.arrivals = s.arrivals ++ [{ seq := s.seq + 1, slot := p.slot, hive := p.home, bar := b }] ∧
       Danced h (p.past 1) s { t with seq := s.seq, arrivals := s.arrivals }) ∧
     (s.issues h p j (.wait b) → p.waitPend = none → released j b (p.e[b] + 1) = true → ∃ t, exec (.wait h) s = .next t ∧
       Danced h { p.past 1 with e := p.e.set b (p.e[b] + 1) } s t) ∧
     (s.issues h p j (.wait b) → p.waitPend = none → released j b (p.e[b] + 1) = false → ∃ t, exec (.wait h) s = .next t ∧
       Danced h { p with e := p.e.set b (p.e[b] + 1), waitPend := some b, stepCycles := 0 } s t) ∧
     (s.issues h p j (.wait b) → p.waitPend = some b → released j b p.e[b] = true → ∃ t, exec (.wait h) s = .next t ∧
       Danced h { p.past 1 with waitPend := none } s t) ∧
     (s.issues h p j (.arriveWait b) → p.waitPend = none → released j b (p.e[b] + 1) = true → ∃ t, exec (.arriveWait h) s = .next t ∧
       t.arrivals = s.arrivals ++ [{ seq := s.seq + 1, slot := p.slot, hive := p.home, bar := b }] ∧
       Danced h { p.past 1 with e := p.e.set b (p.e[b] + 1) } s { t with seq := s.seq, arrivals := s.arrivals }) ∧
     (s.issues h p j (.arriveWait b) → p.waitPend = none → released j b (p.e[b] + 1) = false → ∃ t, exec (.arriveWait h) s = .next t ∧
       t.arrivals = s.arrivals ++ [{ seq := s.seq + 1, slot := p.slot, hive := p.home, bar := b }] ∧
       Danced h { p with e := p.e.set b (p.e[b] + 1), waitPend := some b, stepCycles := 0 } s { t with seq := s.seq, arrivals := s.arrivals })) ∧
   (∀ (s : State) (n : Nat) (a : Arrival) (j : Job), s.arrivals[n]? = some a → s.arrivalDue a = true → s.job? a.slot = some j →
     j.isHome = true →
     ((j.bars[a.bar]).count + 1 < (j.bars[a.bar]).target ∨ (j.bars[a.bar]).target = 0 → exec (.barrierArrival n) s = .next (updJob a.slot
       (fun j => { j with bars := j.bars.set a.bar { j.bars[a.bar] with count := (j.bars[a.bar]).count + 1 } })
       { s with arrivals := s.arrivals.take n ++ s.arrivals.drop (n + 1) })) ∧
     ((j.bars[a.bar]).target ≠ 0 → (j.bars[a.bar]).target ≤ (j.bars[a.bar]).count + 1 → s.isCkpt j a.bar = false → s.others j = [] →
       exec (.barrierArrival n) s = .next (updJob a.slot
         (fun j => { j with bars := j.bars.set a.bar { j.bars[a.bar] with count := 0, gen := (j.bars[a.bar]).gen + 1 } })
         { s with arrivals := s.arrivals.take n ++ s.arrivals.drop (n + 1) }))))

/-- R208, R210, R211, R213: END frees the hive of a program whose results and copies are done; a stop that HALT alone asks for keeps
the program in the dancer; any other saves it into the waiting list; a stopped program resumes at the PC where it stopped, with
context 0 of the honey unit as it was saved. -/
def Obligations.ProgramsEndStopAndResume : Prop :=
  ∀ (h : HiveId) (s : State) (p : Prog) (j : Job),
    (s.issues h p j .endProg → j.st = .running → (s.hv h).wait = [] → ∃ t, exec (.end_ h) s = .next t ∧ (t.hv h).run = none ∧
      (t.hv h).hints = [] ∧ (t.hv h).cs = (s.hv h).cs ∧ t.jobs = s.jobs ∧ (∀ k, k ≠ h → t.hv k = s.hv k) ∧ t.guard = s.guard) ∧
    ((s.hv h).run = some p → s.job? p.slot = some j → (s.hv h).stops = [] → (s.hv h).halt = true → (s.hv h).step = false →
      (s.hv h).halted = false → p.ldw = [] → s.atYield h p j = true → s.landed p = true → ∀ cycles, ∃ t, exec (.stopReached h cycles) s = .next t ∧
        (t.hv h).halted = true ∧ (t.hv h).run.map Prog.core = some { p.core with stepCycles := 0 } ∧ (t.hv h).wait = (s.hv h).wait ∧
        (t.hv h).cs = (s.hv h).cs ∧ t.jobs = s.jobs ∧ ∀ k, k ≠ h → t.hv k = s.hv k) ∧
    ((s.hv h).run = some p → s.job? p.slot = some j → (s.hv h).stops = [.inspect] → (s.hv h).wait = [] → j.ending = none →
      s.atYield h p j = true → s.landed p = true → (s.hv h).halted = false →
      (∀ c, c ∈ p.ldw → s.supUe (s.wax.img.colonyOf j.part.val) c.src c.left = []) →
      (p.ldw = [] ∨ (s.caBytes (s.wax.img.colonyOf j.part.val) ≠ 0 ∧ s.progRegion j.part.val p.home = none)) →
      ∀ cycles, ∃ t q, exec (.stopReached h cycles) s = .next t ∧
        (t.hv h).run = none ∧ (t.hv h).wait = [q] ∧ q.pc = p.pc ∧ q.g = p.g ∧ q.l = p.l ∧ q.e = p.e ∧ q.acc = p.acc ∧
        q.layer = p.layer ∧ q.waitPend = p.waitPend ∧ q.mov = p.mov ∧ q.slab = p.slab ∧ q.inStream = p.inStream ∧
        (∀ c, c ∈ q.ldw → ∃ d n, d ∈ p.ldw ∧ c = { src := d.src + 256 * n, dst := d.dst + 256 * n, left := d.left - 256 * n }) ∧
        q.paused = some .inspect ∧
        q.ps0 = ((s.hv h).hny[(0 : Fin 2)]).ps ∧ q.act0 = ((s.hv h).hny[(0 : Fin 2)]).act ∧ t.jobs = s.jobs ∧
        ∀ k, k ≠ h → t.hv k = s.hv k) ∧
    (p.stuck = true → (s.atYield h p j = true ↔ (s.hv h).stops ≠ [])) ∧
    (∀ bad, s.resumable h = some p → p.inStream = none → p.win = none → (p.ctx = .supers → bad = none) →
      ∃ t q, exec (.programResume { hive := h, bad := bad }) s = .next t ∧
      (t.hv h).run = some q ∧ q.pc = p.pc ∧ q.g = p.g ∧ q.l = p.l ∧ q.e = p.e ∧ q.acc = p.acc ∧ q.layer = p.layer ∧
      q.waitPend = p.waitPend ∧ q.ldw = p.ldw ++ p.rounds.take (2 - p.ldw.length) ∧ q.mov = p.mov ∧ (t.hv h).cs = (s.hv h).cs ∧
      ((t.hv h).hny[(0 : Fin 2)]).ps = p.ps0 ∧ ((t.hv h).hny[(0 : Fin 2)]).act = p.act0 ∧
      ((t.hv h).hny[(1 : Fin 2)]) = (s.hv h).hny[(1 : Fin 2)] ∧ t.jobs = s.jobs ∧ ∀ k, k ≠ h → t.hv k = s.hv k)

/-- R195 to R199: a STREAM whose layer the wax does not place on the hive issues nothing and costs one cycle. A STREAM of one
comb-pass on the adder tree adds the count of every sub-cell chain into its accumulator and goes on to the next instruction. R131,
R137: a comb whose slab has been flagged four times in a row waits while its rail moves, so that the STREAM does not go on, and one
flagged so at a settled OVS0 does not go on at all. -/
def Obligations.StreamsAddTheirCounts : Prop :=
  (∀ (h : HiveId) (s : State) (p : Prog) (j : Job) (o : StreamOp), s.issues h p j (.stream o) → p.inStream = none →
    (∀ env, streamArgs s p j o = none → ∃ t, exec (.stream h env) s = .next t ∧ Danced h (p.past 1) s t) ∧
    (∀ a, streamArgs s p j o = some a → a.shape.steps a.nout a.b = 1 → a.nout = 1 → a.b = 1 → a.here = true → a.station = none →
      a.spill = none → a.shape.photonic = false → a.shape.sub ≤ 4 → o.fin = false → p.stepCycles = 0 → p.stP = 0 → (s.hv h).stops = [] → (s.hv h).halt = false →
      1 + a.shape.sub + a.shape.slabs ≤ 432 → s.obs.smpArm = false → s.readWaits h p j.part.val a.input a.inBytes = false →
      (s.hv h).csUe = [] → tabWf 0 p.acc = true →
      ∃ t q, exec (.stream h {}) s = .next t ∧ (t.hv h).run = some q ∧ q.pc = p.pc + 1 ∧ q.inStream = none ∧ q.g = p.g ∧
        (∀ i, i < a.shape.sub → tabGet 0 q.acc ((a.acc + i) % 1024) =
          (if o.clr then landSum (s.hv h).late ((a.acc + i) % 1024) else tabGet 0 p.acc ((a.acc + i) % 1024)) +
            (treeCounts s h {} a { r := 0, p := 0, b := 0, o := 0 }).getD i 0) ∧
        (t.hv h).cs = (s.hv h).cs ∧ t.jobs = s.jobs ∧ ∀ k, k ≠ h → t.hv k = s.hv k)) ∧
  (∀ (h : HiveId) (s : State) (p : Prog) (j : Job) (o : StreamOp) (a : StreamArgs) env, s.dancing h = some (p, j) →
    s.winUe j.part.val h (s.pcOff j.part.val p) 8 = false → s.fetchOp h p j = some (.stream o) → p.inStream.isSome = true →
    streamArgs s p j o = some a → p.stuck = true → (s.ovs.row[rowOf h]).slew = true → exec (.stream h env) s = .next s) ∧
  (∀ (h : HiveId) (j : Job) (n : Nat) (s : State),
    (n < 4 → (flagged h j n 0 s).2 = .done) ∧ (4 ≤ n → (s.ovs.row[rowOf h]).slew = true → (flagged h j n 0 s).2 = .wait) ∧
    (4 ≤ n → (s.ovs.row[rowOf h]).slew = false → (s.ovs.row[rowOf h]).level = 0 → (flagged h j n 0 s).2 = .persist))

/-- R112, R113, R119, R121 (Table 5.5): a bank goes through its states: EN starts a calibration, which ends in ACQUIRING with its
entries and temperature or in OFF; 64 good samples lock the bank; a relock that takes 5 ms leaves it UNLOCKED; entries are written
only while OFF. R114, R116, R118 (Table 5.7): a locked bank that loses lock records cause and job, sets LOCK_LOST and goes to the
state of its cause, and PHX_BERR keeps the largest detuning; a pass in conversion then falls back to the adder tree's counts or ends
its job; a temperature more than 10 C from T_CAL sets CAL_STALE; below 80 C a thermal hold ends and the enabled banks that it kept
OFF calibrate. -/
def Obligations.PhotonicBanksLockAndLoseLock : Prop :=
  (∀ (b : BankId) (s : State),
     ((s.phx.bank[b]).en = false → s.pwr.stage = 0 → s.phx.tempHold = false →
       exec (.phxEnable b) s = .next (updBank b (fun x => { x with en := true, st := .cal, relocking := false, thermal := false }) s)) ∧
     ((s.phx.bank[b]).en = false → s.pwr.stage ≠ 0 → exec (.phxEnable b) s = .next (updBank b (fun x => { x with en := true }) s)) ∧
     ((s.phx.bank[b]).en = false → s.pwr.stage = 0 → s.phx.tempHold = true →
       exec (.phxEnable b) s = .next (updBank b (fun x => { x with en := true, st := .off, relocking := false, thermal := true }) s)) ∧
     ((s.phx.bank[b]).en = true → exec (.phxEnable b) s = .next s) ∧
     ((s.phx.bank[b]).en = false → exec (.cal b) s = .next s) ∧
     ((s.phx.bank[b]).st = .unlocked → exec (.cal b) s = .next s) ∧
     ((s.phx.bank[b]).en = true → (s.phx.bank[b]).st ≠ .locked → (s.phx.bank[b]).st ≠ .unlocked → s.pwr.stage = 0 → s.phx.tempHold = false →
       exec (.cal b) s = .next (updBank b (fun x => { x with st := .cal, relocking := false, thermal := false }) s)) ∧
     (∀ ents temp, (s.phx.bank[b]).st = .cal → (s.phx.bank[b]).spares ≤ 8 → ents.length = 8 →
       ∃ t, exec (.phxCalDone b (.ok ents [] temp)) s = .next t ∧ t = { s with phx := t.phx } ∧ (t.phx.bank[b]).st = .acquiring ∧
         (t.phx.bank[b]).calValid = true ∧ (t.phx.bank[b]).calStale = false ∧ (t.phx.bank[b]).tCal = temp ∧
         (∀ i : Fin 8, ((t.phx.bank[b]).ents[i]).gain = (ents.getD i.val (0, 0)).1 ∧ ((t.phx.bank[b]).ents[i]).offs = (ents.getD i.val (0, 0)).2) ∧
         t.phx.laserOk = true ∧ ∀ c, c ≠ b → t.phx.bank[c] = s.phx.bank[c]) ∧
     (∀ bad line, (s.phx.bank[b]).st = .cal → ∃ t, exec (.phxCalDone b (.fail bad line)) s = .next t ∧ (t.phx.bank[b]).st = .off ∧
       (t.phx.bank[b]).calValid = false ∧ (t.phx.bank[b]).evt.getLsbD 1 = true ∧ (∀ c, c ≠ b → t.phx.bank[c] = s.phx.bank[c]) ∧
       t.hives = s.hives ∧ t.jobs = s.jobs) ∧
     ((s.phx.bank[b]).st = .acquiring → ∃ t, exec (.phxLocked b) s = .next t ∧
       t = { updBank b (fun x => { x with st := .locked, relocking := false, wasShed := false }) s with hives := t.hives, rpr := t.rpr } ∧
       ((∀ h : HiveId, h.val / 12 = b.val → (s.hv h).wait = []) → t.rpr = s.rpr ∧ ∀ h, t.hv h = s.hv h)) ∧
     ((s.phx.bank[b]).st = .acquiring → (s.phx.bank[b]).relocking = true → ∃ t, exec (.phxRelockTimeout b) s = .next t ∧
       (t.phx.bank[b]).st = .unlocked ∧ (t.phx.bank[b]).evt = (s.phx.bank[b]).evt ||| 4 ∧ (∀ c, c ≠ b → t.phx.bank[c] = s.phx.bank[c]) ∧
       t.hives = s.hives ∧ t.jobs = s.jobs) ∧
     (∀ v, (s.phx.bank[b]).st = .off → exec (.phxBcalDataWrite b v) s = .next (updBank b (fun x => { x with
       ents := x.ents.set x.calIdx.toNat { gain := v.setWidth 16, offs := (v >>> 16).setWidth 12 } (by omega) }) s)) ∧
     (∀ v, (s.phx.bank[b]).st ≠ .off → exec (.phxBcalDataWrite b v) s = .next (postEvent (.phx b) 16 s))) ∧
  (∀ (b : BankId) (s : State),
     ((s.phx.bank[b]).st = .locked → s.pwr.stage = 0 → s.converting b = [] → ∃ t, exec (.phxDisable b) s = .next t ∧ (t.phx.bank[b]).en = false ∧
       (t.phx.bank[b]).st = .off ∧ (t.phx.bank[b]).lossCause = 4 ∧ (t.phx.bank[b]).evt = (s.phx.bank[b]).evt ||| 1 ∧
       (∀ c, c ≠ b → t.phx.bank[c] = s.phx.bank[c]) ∧ t.hives = s.hives ∧ t.jobs = s.jobs) ∧
     ((s.phx.bank[b]).st = .unlocked → exec (.phxDisable b) s = .next (updBank b (fun x => { x with
       en := false, wasShed := false, thermal := false }) s)) ∧
     ((s.phx.bank[b]).st ≠ .locked → (s.phx.bank[b]).st ≠ .unlocked → exec (.phxDisable b) s = .next (updBank b (fun x => { x with
       en := false, wasShed := false, thermal := false, st := if s.pwr.stage = 0 then .off else .shed, relocking := false }) s)) ∧
     ((s.phx.bank[b]).st = .locked → (s.phx.bank[b]).en = true → s.phx.tempHold = false → s.converting b = [] → ∃ t, exec (.cal b) s = .next t ∧ (t.phx.bank[b]).st = .cal ∧
       (t.phx.bank[b]).lossCause = 4 ∧ (t.phx.bank[b]).evt = (s.phx.bank[b]).evt ||| 1 ∧ t.hives = s.hives ∧ t.jobs = s.jobs) ∧
     (∀ cause worst temp, (s.phx.bank[b]).st = .locked → cause ∈ [(1 : BitVec 4), 2, 3, 5] → s.converting b = [] →
       ∃ t, exec (.phxLossOfLock b cause worst temp) s = .next t ∧
         (t.phx.bank[b]).st = (if (cause = 1 ∨ cause = 5) ∧ s.phx.tempHold = false then BankSt.acquiring else .off) ∧ (t.phx.bank[b]).lossCause = cause ∧
         (t.phx.bank[b]).lossTag = (match s.photonicRuns b with | (_, p) :: _ => s.tagOf p.slot | [] => 0) ∧
         (t.phx.bank[b]).evt = (s.phx.bank[b]).evt ||| 1 ∧ t.phx.temp = temp ∧ (t.phx.bank[b]).worst.toNat = max (s.phx.bank[b]).worst.toNat worst.toNat ∧
         (t.phx.tempHold = true ↔ s.phx.tempHold = true ∨ cause = 3) ∧ t.hives = s.hives ∧ t.jobs = s.jobs) ∧
     (∀ cause worst temp h p j x vals alts slabs, (s.phx.bank[b]).st = .locked → cause ∈ [(1 : BitVec 4), 2, 3, 5] → s.converting b = [(h, p, x)] →
       s.job? p.slot = some j → x.kind = .pass vals alts true slabs →
       ∃ t, exec (.phxLossOfLock b cause worst temp) s = .next t ∧ (t.phx.bank[b]).lossTag = s.tagOf p.slot ∧
         (t.job? p.slot).map (·.degr) = some (j.degr ||| 4) ∧ (∀ k, k ≠ h → t.hv k = s.hv k) ∧
         ((∃ y, y ∈ (s.hv h).late ∧ y.kind = .count ∧ y.seq = x.seq) → vals.length ≤ 1024 → tabWf 0 p.acc = true →
           ∃ q, (t.hv h).run = some q ∧ q = { p with acc := q.acc, fins := q.fins } ∧
             ∀ i, i < vals.length → tabGet 0 q.acc ((x.acc + i) % 1024) =
               tabGet 0 p.acc ((x.acc + i) % 1024) + (alts.getD i 0 - vals.getD i 0))) ∧
     (∀ cause worst temp h p j x vals alts slabs, (s.phx.bank[b]).st = .locked → cause ∈ [(1 : BitVec 4), 2, 3, 5] → s.converting b = [(h, p, x)] →
       s.job? p.slot = some j → j.isHome = true → s.others j = [] → x.kind = .pass vals alts false slabs →
       ∃ t, exec (.phxLossOfLock b cause worst temp) s = .next t ∧ (t.phx.bank[b]).lossTag = s.tagOf p.slot ∧
         (t.hv h).evt.getLsbD 2 = true ∧ (j.st = .running → (t.job? p.slot).map (·.st) = some .stopping)) ∧
     (∀ temp, (s.phx.bank[b]).calValid = true → (s.phx.bank[b]).calStale = false →
       2560 < (temp.toInt - 256 * (s.phx.bank[b]).tCal.toInt).natAbs → ∃ t, exec (.phxCalStale b temp) s = .next t ∧
         (t.phx.bank[b]).calStale = true ∧ (t.phx.bank[b]).evt = (s.phx.bank[b]).evt ||| 32 ∧ (t.phx.bank[b]).st = (s.phx.bank[b]).st ∧
         t.phx.temp = temp ∧ t.hives = s.hives ∧ t.jobs = s.jobs) ∧
     (∀ temp : BitVec 16, s.phx.tempHold = true → temp.toInt < 80 * 256 → s.pwr.stage = 0 → ∃ t, exec (.phxTempHoldEnd temp) s = .next t ∧
       t = { s with phx := t.phx, bmc := t.bmc } ∧ t.phx.tempHold = false ∧ t.phx.temp = temp ∧
       (t.phx.bank[b]).st = (if (s.phx.bank[b]).en = true ∧ (s.phx.bank[b]).thermal = true ∧ (s.phx.bank[b]).st = .off then BankSt.cal
         else (s.phx.bank[b]).st)) ∧
     (∀ temp : BitVec 16, (s.phx.tempHold = false ∨ 80 * 256 ≤ temp.toInt) →
       exec (.phxTempHoldEnd temp) s = .next { s with phx := { s.phx with temp := temp } }))

/-- R125, R128: the effective ceiling and the target of a row. R125, R127, R128, R135: what moves a rail: a request in force, a
start of its movement, its end, a ceiling, the die's temperature and the end of a storm's hold. R134 to R136: a storm counts, sets
STORM, and lowers the storm ceiling of a row above OVS0 and starts its hold. -/
def Obligations.RailsFollowTheirTargets : Prop :=
  (∀ (r : RowId) (s : State),
     ((s.ovs.nominal || s.ovs.hot) = true → s.ceilEff r = 0) ∧ (r.val = 0 → s.ceilEff r = 0) ∧
     ((s.ovs.nominal || s.ovs.hot) = false → r.val ≠ 0 →
       (s.ceilEff r).toNat = min (min 3 (s.wax.img.waxCeil r.val)) (min (s.ovs.row[r]).ceil.toNat (s.ovs.row[r]).stormCeil.toNat)) ∧
     (s.target r).toNat ≤ (s.ceilEff r).toNat ∧
     (∀ h p, (s.hv h).run = some p → h.val / 12 = r.val → p.ovs.reqV = true → (s.target r).toNat ≤ p.ovs.req.toNat) ∧
     (s.target r = s.ceilEff r ∨ ∃ h p, (s.hv h).run = some p ∧ h.val / 12 = r.val ∧ p.ovs.reqV = true ∧ s.target r = p.ovs.req)) ∧
  (∀ (r : RowId) (h : HiveId) (s : State),
     (∀ p, (s.hv h).run = some p → p.ovs.pendV = true → exec (.ovsRequestInForce h) s = .next (updHive h (fun v => { v with
       late := v.late.filter (·.kind != .request), run := some { p with ovs := { p.ovs with req := p.ovs.pend, pendV := false } } }) s)) ∧
     (∀ l, ((s.target r).toNat < (s.ovs.row[r]).level.toNat ∧ l = s.target r) ∨
         ((s.ovs.row[r]).level.toNat ≤ (s.target r).toNat ∧ s.raiseDue r = some l) →
       exec (.ovsRailSlewStart r false) s =
         .next (updRow r (fun x => { x with level := l, slew := true, stormUp := x.slew && x.stormUp }) s) ∧
       ∃ t, exec (.ovsRailSlewStart r true) s = .next t ∧ (t.ovs.row[r]).level = l ∧ (t.ovs.row[r]).slew = true ∧
         (t.ovs.row[r]).evt = (s.ovs.row[r]).evt ||| 4 ∧ t.hives = s.hives) ∧
     (s.leads r = [] → s.raiseDue r = none) ∧
     (∀ n, s.leads r = [n] → s.raiseDue r =
       (if (s.targetIn r n).toNat < (s.ovs.row[r]).level.toNat ∧ n ≤ 2400 * ((s.ovs.row[r]).level.toNat - (s.targetIn r n).toNat)
         then some (s.targetIn r n) else none)) ∧
     ((s.ovs.row[r]).level.toNat < (s.target r).toNat → s.raiseDue r = none → ∀ late, exec (.ovsRailSlewStart r late) s =
       .next (updRow r (fun x => { x with level := s.target r, slew := true, stormUp := false }) s)) ∧
     (s.target r = (s.ovs.row[r]).level → s.raiseDue r = none → ∀ late, exec (.ovsRailSlewStart r late) s = .next s) ∧
     ((s.ovs.row[r]).slew = false → exec (.ovsRailSettled r) s = .next s) ∧
     ((s.ovs.row[r]).slew = true → ∃ t, exec (.ovsRailSettled r) s = .next t ∧ t = { s with ovs := t.ovs, freeCtr := t.freeCtr } ∧
       (t.ovs.row[r]).slew = false ∧ (t.ovs.row[r]).stormUp = false ∧ (t.ovs.row[r]).level = (s.ovs.row[r]).level ∧
       (t.ovs.row[r]).volt.toNat + 40 * (s.ovs.row[r]).level.toNat ≤ 760 ∧ 740 ≤ (t.ovs.row[r]).volt.toNat + 40 * (s.ovs.row[r]).level.toNat ∧
       ∀ k, k ≠ r → t.ovs.row[k] = s.ovs.row[k]) ∧
     (∀ c, r.val = 0 → exec (.ovsCeilingWrite (.row r c)) s = .next s) ∧
     (∀ c, r.val ≠ 0 → ∃ t, exec (.ovsCeilingWrite (.row r c)) s = .next t ∧ t = { s with ovs := t.ovs } ∧ (t.ovs.row[r]).ceil = c ∧
       (t.ovs.row[r]).level.toNat ≤ (t.target r).toNat ∧ (∀ k, k ≠ r → t.ovs.row[k] = s.ovs.row[k]) ∧ t.ovs.nominal = s.ovs.nominal) ∧
     (∀ on, ∃ t, exec (.ovsCeilingWrite (.nominal on)) s = .next t ∧ t = { s with ovs := t.ovs } ∧ t.ovs.nominal = on ∧
       (∀ k : RowId, (t.ovs.row[k]).level.toNat ≤ (t.target k).toNat ∧ (t.ovs.row[k]).ceil = (s.ovs.row[k]).ceil)) ∧
     (∀ tj : BitVec 16, ∃ t, exec (.computeTempThreshold tj) s = .next t ∧ t = { s with ovs := t.ovs, boot := t.boot, bmc := t.bmc } ∧
       t.boot.tj = tj ∧ (t.ovs.hot = true ↔ 100 * 256 < tj.toInt ∨ (s.ovs.hot = true ∧ 95 * 256 ≤ tj.toInt)) ∧
       (∀ k : RowId, (t.ovs.row[k]).level.toNat ≤ (t.target k).toNat)) ∧
     (∀ k : Nat, (s.ovs.row[r]).hold = true → (s.ovs.row[r]).stormCeil.toNat = k → ∃ t, exec (.ovsStormHoldEnd r) s = .next t ∧ t = { s with ovs := t.ovs } ∧
       (t.ovs.row[r]).stormCeil.toNat = min 3 (k + 1) ∧ ((t.ovs.row[r]).hold = true ↔ min 3 (k + 1) ≠ 3) ∧
       ∀ i, i ≠ r → t.ovs.row[i] = s.ovs.row[i])) ∧
  (∀ (r : RowId) (s : State),
     (s.target r = 0 → ((postStorm r s).ovs.row[r]).evt = (s.ovs.row[r]).evt ||| 3 ∧ ((postStorm r s).ovs.row[r]).storms = (s.ovs.row[r]).storms + 1 ∧
       ((postStorm r s).ovs.row[r]).level = (s.ovs.row[r]).level ∧ ((postStorm r s).ovs.row[r]).stormCeil = (s.ovs.row[r]).stormCeil) ∧
     (s.target r ≠ 0 → ((s.ovs.row[r]).slew && (s.ovs.row[r]).stormUp) = false →
       ((postStorm r s).ovs.row[r]).evt = (s.ovs.row[r]).evt ||| 1 ∧ ((postStorm r s).ovs.row[r]).storms = (s.ovs.row[r]).storms + 1 ∧
       ((postStorm r s).ovs.row[r]).stormCeil = s.target r - 1 ∧ ((postStorm r s).ovs.row[r]).hold = true ∧
       ((postStorm r s).ovs.row[r]).level.toNat ≤ ((postStorm r s).target r).toNat) ∧
     (s.target r ≠ 0 → ((s.ovs.row[r]).slew && (s.ovs.row[r]).stormUp) = true →
       ((postStorm r s).ovs.row[r]).stormCeil = (s.ovs.row[r]).stormCeil ∧ ((postStorm r s).ovs.row[r]).hold = true) ∧
     (postStorm r s).hives = s.hives ∧ (postStorm r s).jobs = s.jobs ∧ ∀ k, k ≠ r → (postStorm r s).ovs.row[k] = s.ovs.row[k])

/-- R162 (Table 8.2): a command written in a state that the table does not list for it changes nothing and sets ERR to BUSY; an
accepted one sets ERR to 0. R175 and R176: ABORT releases any source hold and returns to IDLE, and the slots stay as they are;
REVERT without a valid previous image is refused with NO_PREV, and else its slot is checked. -/
def Obligations.WaxCommandsKeepToTheirStates : Prop :=
  (∀ s : State,
     (s.wax.st ≠ .idle → exec .stage s = .next { s with wax := { s.wax with err := 1 } } ∧
       exec .revert s = .next { s with wax := { s.wax with err := 1 } }) ∧
     (s.wax.st ≠ .staged → exec .trial s = .next { s with wax := { s.wax with err := 1 } } ∧
       exec .abort s = .next { s with wax := { s.wax with err := 1 } }) ∧
     (s.wax.st ≠ .trial → exec .commit s = .next { s with wax := { s.wax with err := 1 } } ∧
       exec .rollback s = .next { s with wax := { s.wax with err := 1 } })) ∧
  (∀ s : State,
     (s.wax.st = .staged → exec .abort s = .next { s with wax := { s.wax with err := 0, st := .idle, staged := none, hold := none } }) ∧
     (s.wax.st = .idle → (s.rec?.map (·.prevValid)).getD false = false → exec .revert s = .next { s with wax := { s.wax with err := 5 } }) ∧
     (s.wax.st = .idle → (s.rec?.map (·.prevValid)).getD false = true → exec .revert s =
       .next { s with wax := { s.wax with err := 0, st := .checking, chkRevert := true }, guard := { s.guard with ceClaimed := true, ceGated := false } }) ∧
     (∀ r, s.wax.st = .checking → s.wax.chkRevert = true → s.rec? = some r →
       slotCheck s (s.wax.slot (!r.curB)) r.prevLen r.prevHash r.prevSigned = none →
       ∃ t x, exec .waxStageCheckDone s = .next t ∧ t.wax.st = .staged ∧ t.wax.staged = some x ∧ x.revert = true ∧
         x.slotB = (!r.curB) ∧ x.bytes = s.wax.slot (!r.curB) ∧ t.wax.img = s.wax.img ∧ t.hives = s.hives ∧ t.jobs = s.jobs))

/-- R163 and R164: STAGE holds its source and checks it, or reports ALIGN; checks that fail return to IDLE with CHECK, a partial
image that passes is STAGED, a full one is copied to the staging slot and then STAGED; a flash failure returns to IDLE. -/
def Obligations.StageChecksAndCopies : Prop :=
  ∀ s : State,
    (s.wax.st = .idle → (s.wax.src.toNat % 2 ^ 35) % 4096 = 0 →
      s.wax.src.toNat % 2 ^ 35 + max 16 (memReadLE s.sup.mem (s.wax.src.toNat % 2 ^ 35 + 12) 4) ≤ 2 ^ 35 →
      exec .stage s = .next { s with
        wax := { s.wax with
          err := 0, st := .checking, chkRevert := false, hold := some (s.wax.src.toNat % 2 ^ 35, s.srcLen (s.wax.src.toNat % 2 ^ 35)) }
        guard := { s.guard with ceClaimed := true, ceGated := false } }) ∧
    (s.wax.st = .idle → (s.wax.src.toNat % 2 ^ 35) % 4096 ≠ 0 → exec .stage s = .next { s with wax := { s.wax with err := 2 } }) ∧
    (∀ a n f, s.wax.st = .checking → s.wax.chkRevert = false → s.wax.hold = some (a, n) →
      checkWax (s.ckEnv false) (memReadN s.sup.mem a n) = some f → ∃ t, exec .waxStageCheckDone s = .next t ∧ t.wax.st = .idle ∧
        t.wax.err = 3 ∧ t.wax.hold = none ∧ t.wax.chkCode = f.1 ∧ t.wax.evt = s.wax.evt ||| 1 ∧ t.wax.img = s.wax.img ∧
        t.wax.secX = s.wax.secX ∧ t.wax.secY = s.wax.secY ∧ t.hives = s.hives ∧ t.jobs = s.jobs) ∧
    (∀ a n, s.wax.st = .checking → s.wax.chkRevert = false → s.wax.hold = some (a, n) →
      checkWax (s.ckEnv false) (memReadN s.sup.mem a n) = none → (uN (memReadN s.sup.mem a n) 6 2).testBit 0 = true →
      ∃ t, exec .waxStageCheckDone s = .next t ∧ t.wax.st = .staged ∧ t.wax.err = 0 ∧ t.wax.hold = some (a, n) ∧
        t.wax.staged.map (·.bytes) = some (memReadN s.sup.mem a n) ∧ t.wax.evt = s.wax.evt ||| 2 ∧ t.wax.img = s.wax.img ∧
        t.hives = s.hives ∧ t.jobs = s.jobs) ∧
    (∀ a n, s.wax.st = .checking → s.wax.chkRevert = false → s.wax.hold = some (a, n) →
      checkWax (s.ckEnv false) (memReadN s.sup.mem a n) = none → (uN (memReadN s.sup.mem a n) 6 2).testBit 0 = false →
      ∃ t x, exec .waxStageCheckDone s = .next t ∧ t.wax.st = .writing ∧ t.wax.staged = some x ∧ x.slotB = s.stagingB ∧
        x.bytes = memReadN s.sup.mem a n ∧ t.wax.slot (!s.stagingB) = s.wax.slot (!s.stagingB) ∧ t.wax.img = s.wax.img ∧
        t.hives = s.hives ∧ t.jobs = s.jobs) ∧
    (∀ x, s.wax.st = .writing → s.wax.staged = some x →
      (∃ t, exec (.waxStageCopyDone true) s = .next t ∧ t.wax.st = .staged ∧ t.wax.err = 0 ∧ t.wax.hold = none ∧
        t.wax.slot x.slotB = x.bytes ∧ t.wax.slot (!x.slotB) = s.wax.slot (!x.slotB) ∧ t.wax.evt = s.wax.evt ||| 2 ∧
        t.wax.staged = some x ∧ t.hives = s.hives ∧ t.jobs = s.jobs) ∧
      (∃ t, exec (.waxStageCopyDone false) s = .next t ∧ t.wax.st = .idle ∧ t.wax.err = 7 ∧ t.wax.hold = none ∧
        t.wax.evt = s.wax.evt ||| 128 ∧ t.wax.img = s.wax.img ∧ t.hives = s.hives ∧ t.jobs = s.jobs))

/-- R166 to R169: TRIAL re-runs the apply checks and drains; with nothing left running the image is applied, and its end puts the
records in force and starts the watchdog; a drain that takes too long is abandoned. R170 to R174: COMMIT writes a commit record that
names the image in force, keeps the former committed image as the previous one and ends in IDLE; a barren hive in use refuses it;
ROLLBACK and the watchdog put the replaced records in force again, after a full trial those of the committed slot (where it does not
load, log entry 40). -/
def Obligations.TrialsDrainApplyAndEnd : Prop :=
  (∀ (s : State) (x : Staged), s.wax.staged = some x →
     (s.wax.st = .staged → ckApply (s.ckEnv false) x.bytes = none → (s.changedBy x).contains 0x40 = false →
       ∃ t, exec .trial s = .next t ∧ t = { s with wax := t.wax } ∧ t.wax.st = .draining ∧ t.wax.err = 0 ∧ t.wax.hold = none ∧
         t.wax.changed = s.changedBy x ∧ t.wax.wdog = some (if s.wax.wdogMs = 0 then 1 else s.wax.wdogMs) ∧ t.wax.img = s.wax.img) ∧
     (∀ f, s.wax.st = .staged → ckApply (s.ckEnv false) x.bytes = some f → ∃ t, exec .trial s = .next t ∧ t.wax.st = .staged ∧
       t.wax.err = 3 ∧ t.wax.chkCode = f.1 ∧ t.wax.img = s.wax.img ∧ t.hives = s.hives ∧ t.jobs = s.jobs) ∧
     (s.wax.st = .draining → s.drained = false → exec .waxApply s = .next s) ∧
     (s.wax.st = .draining → s.drained = true → ckApply (s.ckEnv false) x.bytes = none → ∃ t, exec .waxApply s = .next t ∧
       t.wax = { s.wax with st := .applying, drainFor := none } ∧ (∀ b, b ∈ banksOf (s.stagedImg x) → (t.phx.bank[b]).en = true) ∧
       ∀ c : ColId, c.val ∈ s.wax.changed → t.isSealed c = false) ∧
     (∀ f, s.wax.st = .draining → s.drained = true → ckApply (s.ckEnv false) x.bytes = some f → ∃ t, exec .waxApply s = .next t ∧
       t.wax.st = .staged ∧ t.wax.err = 3 ∧ t.wax.changed = [] ∧ t.wax.img = s.wax.img ∧ t.hives = s.hives ∧ t.jobs = s.jobs) ∧
     (s.wax.st = .draining → s.wax.drainFor = some .trial → s.wax.drainMs ≠ 0 → ∃ t, exec .waxDrainTimeout s = .next t ∧
       t.wax.st = .staged ∧ t.wax.err = 4 ∧ t.wax.evt = s.wax.evt ||| 64 ∧ t.wax.img = s.wax.img ∧ t.wax.changed = [] ∧
       t.hives = s.hives ∧ t.jobs = s.jobs) ∧
     (s.wax.st = .applying → (∃ b, b ∈ banksOf (s.stagedImg x) ∧ b ∉ banksOf s.curImg ∧ (s.phx.bank[b]).st ≠ .locked) →
       exec .waxApplyDone s = .next s) ∧
     (s.wax.st = .applying → (∀ b, b ∈ banksOf (s.stagedImg x) → b ∉ banksOf s.curImg → (s.phx.bank[b]).st = .locked) →
       ∃ t, exec .waxApplyDone s = .next t ∧
       t.wax.st = .trial ∧ t.wax.img = s.stagedImg x ∧ t.wax.none_ = false ∧ t.wax.hold = s.wax.hold ∧
       t.wax.before = some (s.wax.img, s.wax.pver, s.wax.forceB, s.wax.none_) ∧
       t.wax.forceB = (if x.partialImg then s.wax.forceB else x.slotB) ∧ t.wax.evt = s.wax.evt ||| 4 ∧ t.wax.wdog = s.wax.wdog ∧
       t.wax.secX = s.wax.secX ∧ t.wax.secY = s.wax.secY ∧ t.jobs = s.jobs)) ∧
  (∀ (s : State) (x : Staged), s.wax.staged = some x →
     (s.wax.st = .trial → (s.curImg.layers.any fun l => (maskHives l.hmask).any fun h => (s.ckEnv false).barren.contains h) = true →
       exec .commit s = .next { s with wax := { s.wax with err := 6 } }) ∧
     (s.wax.st = .trial → x.partialImg = false →
       (s.curImg.layers.any fun l => (maskHives l.hmask).any fun h => (s.ckEnv false).barren.contains h) = false →
       exec .commit s = .next { s with
         wax := { s.wax with err := 0, st := .committing, wdog := none }
         guard := { s.guard with ceClaimed := true, ceGated := false } }) ∧
     (s.wax.st = .trial → x.partialImg = true →
       (s.curImg.layers.any fun l => (maskHives l.hmask).any fun h => (s.ckEnv false).barren.contains h) = false →
       ∃ t, exec .commit s = .next t ∧ t = { s with wax := t.wax, guard := t.guard } ∧ t.guard.ceClaimed = true ∧ t.wax.st = .committing ∧ t.wax.err = 0 ∧ t.wax.wdog = none ∧
         t.wax.img = s.wax.img ∧ t.wax.slot (!s.stagingB) = s.wax.slot (!s.stagingB)) ∧
     (s.wax.st = .committing → x.partialImg = false → ∃ t r, exec (.waxCommitDone true) s = .next t ∧ t.wax.st = .idle ∧ t.wax.err = 0 ∧
       t.wax.evt = s.wax.evt ||| 8 ∧ t.wax.staged = none ∧ t.wax.forceB = x.slotB ∧ t.wax.slot x.slotB = x.bytes ∧
       (if s.recY = some false then t.wax.secY = some r ∧ t.wax.secX = s.wax.secX else t.wax.secX = some r ∧ t.wax.secY = s.wax.secY) ∧
       r.curB = x.slotB ∧ r.curHash = imgHash x.bytes ∧ r.gen = (s.rec?.map (·.gen)).getD 0 + 1 ∧ r.complete = true ∧
       (∀ q, s.rec? = some q → r.prevValid = true ∧ r.prevHash = q.curHash ∧ r.prevVer = q.curVer ∧ r.prevLen = q.curLen) ∧
       t.wax.img = s.wax.img ∧ t.hives = s.hives ∧ t.jobs = s.jobs) ∧
     (s.wax.st = .committing → ∃ t, exec (.waxCommitDone false) s = .next t ∧ t.wax.st = .idle ∧ t.wax.err = 7 ∧
       t.wax.evt = s.wax.evt ||| 128 ∧ t.wax.secX = s.wax.secX ∧ t.wax.secY = s.wax.secY ∧ t.wax.img = s.wax.img ∧ t.jobs = s.jobs) ∧
     (s.wax.st = .trial → ∃ t, exec .rollback s = .next t ∧
       t = { s with hives := t.hives, wax := { s.wax with err := 0, st := .rollingBack, wdog := none, drainFor := some .rollback } } ∧
       (s.wax.changed.contains 0x40 = false → t.hives = s.hives)) ∧
     (∀ img pver b n, s.wax.st = .rollingBack → s.wax.before = some (img, pver, b, n) → s.drained = true →
       ∃ t, exec .waxRollbackDone s = .next t ∧ t.wax.st = .idle ∧
         (s.trialPartial = true ∨ s.committed? = none → t.wax.img = img ∧ t.wax.pver = pver ∧ t.wax.forceB = b ∧ t.wax.none_ = n) ∧
         (∀ im c, s.trialPartial = false → s.committed? = some (im, c) → t.wax.img = im ∧ t.wax.none_ = false ∧ (im ≠ img → t.wax.forceB = c)) ∧
         t.wax.staged = none ∧ t.wax.evt = s.wax.evt ||| (if s.wax.wdogHit then 48 else 16) ∧
         t.wax.secX = s.wax.secX ∧ t.wax.secY = s.wax.secY) ∧
     (s.wax.st = .trial → s.wax.wdog.isSome = true → s.shedPaused = false → s.changedRuns = [] → s.wax.changed.contains 0x40 = false →
       exec .waxWatchdogExpire s = .next { s with wax := { s.wax with st := .rollingBack, wdog := none, wdogHit := true, drainFor := none } }) ∧
     (s.wax.st = .trial → s.shedPaused = true → exec .waxWatchdogExpire s = .next s))

/-- R442 and R443 (Table 19.3): a periodic inspection starts on the next host of its row's round (log entry 34), and one that PF0
asks for on its target; GO on a target that cannot be inspected ends SKIPPED; one that finds nothing ends PASS, one whose faults
spares cover ends REPAIRED; a persistent-slab or rows-exhausted one is not abandoned. While one runs its row is at OVS0 (log entry
84). R433, R435, R447, R448, R452: a record write
that completes is the record in force, with the next generation, in the other sector; CLEAR_FIELD is noted for the next cold boot;
when the moving hives have stopped, a retirement ends with the hosts of the map in force, ON_SPARE of the moved hives and RETIRED.
R235 and R437: a row with an uncorrectable error, and one with corrected errors in three passes, is queued; the oldest queued row of
an idle hive gets a spare row and a map entry with origin 3, and a hive that has used its 64 spare rows is inspected instead. -/
def Obligations.InspectionsAndMemoryRepair : Prop :=
  (∀ (s : State),
     (∀ (row : RowId) pcol, s.rpr.period ≠ 0 → s.pwr.stage = 0 → s.nextInsp row.val = some pcol →
       exec (.inspectionPeriodic row.val pcol) s = .next (raiseRail row false { s with rpr := { s.rpr with
         inspNext := s.rpr.inspNext.set row.val ((pcol + 1) % 13)
         insp := s.rpr.insp ++ [{ target := s.inspCode row.val pcol, row := row.val, pcol := pcol, why := .periodic }] } })) ∧
     (∀ row pcol, (s.rpr.period = 0 ∨ s.nextInsp row ≠ some pcol) → exec (.inspectionPeriodic row pcol) s = .next s) ∧
     (∀ row pcol, s.nextInsp row = some pcol → pcol < 13 ∧ s.canInspect row pcol = true) ∧
     (∀ v : BitVec 7, s.rpr.inspGo = false → v.toNat < 0x68 → s.pwr.stage = 0 → (s.rpr.insp.any fun i => i.why == .pf0) = false →
       s.canInspect (s.inspPlace v.toNat).1 (s.inspPlace v.toNat).2 = true →
       (96 ≤ v.toNat → s.spareFree (s.inspPlace v.toNat).1 = true) →
       ∃ row : RowId, row.val = (s.inspPlace v.toNat).1 ∧
       exec (.inspectionGo v) s = .next (raiseRail row false { s with rpr := { s.rpr with inspTarget := v, inspGo := true, insp := s.rpr.insp ++
         [{ target := v.toNat, row := (s.inspPlace v.toNat).1, pcol := (s.inspPlace v.toNat).2, why := .pf0 }] } })) ∧
     (∀ v : BitVec 7, s.rpr.inspGo = false → v.toNat < 0x68 → s.pwr.stage = 0 → (s.rpr.insp.any fun i => i.why == .pf0) = false →
       (s.canInspect (s.inspPlace v.toNat).1 (s.inspPlace v.toNat).2 = false ∨
         (96 ≤ v.toNat ∧ s.spareFree (s.inspPlace v.toNat).1 = false)) →
       exec (.inspectionGo v) s = .next { s with rpr := { s.rpr with
         inspTarget := v, inspGo := false, inspRes := 4, inspCause := 0, inspResTarget := v } }) ∧
     (∀ v : BitVec 7, s.rpr.inspGo = true → exec (.inspectionGo v) s = .next { s with rpr := { s.rpr with inspTarget := v } }) ∧
     (∀ (row : RowId) i, s.rpr.insp = [i] → i.row = row.val → i.why = .periodic → s.rpr.inspWait = [] → s.rpr.inspGo = false →
       (∀ h, s.hosted i.row i.pcol = some h → (s.hv h).wait = []) →
       ∃ t, exec (.inspectionDone row .pass) s = .next t ∧ t = { s with rpr := t.rpr, hives := t.hives } ∧ t.rpr.insp = [] ∧
         t.rpr.inspRes = 0 ∧ t.rpr.inspCause = 0 ∧ t.rpr.inspResTarget = BitVec.ofNat 7 i.target ∧ t.rpr.field = s.rpr.field ∧
         t.rpr.evt = s.rpr.evt ∧ ∀ h, (t.hv h).run = (s.hv h).run) ∧
     (∀ (row : RowId) i, s.rpr.insp = [i] → i.row = row.val → (i.why = .slab ∨ i.why = .rows) →
       exec (.inspectionDone row .aborted) s = .next s) ∧
     (∀ (row : RowId) i e, s.rpr.insp = [i] → i.row = row.val → i.why = .periodic → s.rpr.inspWait = [] → s.rpr.inspGo = false →
       s.rpr.map = [] → e.ty = 2 → e.org = 2 → e.b2.toNat = i.row → e.b3.toNat = i.pcol → entElement e = true →
       ∃ t, exec (.inspectionDone row (.repaired [e])) s = .next t ∧ e ∈ t.rpr.field ∧
         t.rpr.inspRes = 1 ∧ t.rpr.evt.getLsbD 2 = true ∧ t.jobs = s.jobs ∧ t.rpr.factory = s.rpr.factory)) ∧
  ((∀ s : State, s.rpr.wrBusy = true → ∃ t, exec .mapRecordCommit s = .next t ∧ t = { s with rpr := t.rpr } ∧
     t.rpr.factory = s.rpr.factory ∧ t.rpr.field = s.rpr.field ∧
     (s.rpr.mapSrc = 1 → s.rpr.dirty = false → t.rpr.m1 = some { gen := s.rpr.gen + 1, ents := s.rpr.writing } ∧ t.rpr.mapSrc = 2 ∧
       t.rpr.m0 = s.rpr.m0 ∧ t.rpr.wrBusy = false) ∧
     (s.rpr.mapSrc = 2 → s.rpr.dirty = false → t.rpr.m0 = some { gen := s.rpr.gen + 1, ents := s.rpr.writing } ∧ t.rpr.mapSrc = 1 ∧
       t.rpr.m1 = s.rpr.m1 ∧ t.rpr.wrBusy = false)) ∧
   (∀ s : State, s.rpr.wrBusy = false → exec .mapRecordCommit s = .next s) ∧
   (∀ s : State, exec .clearField s = .next { s with rpr := { s.rpr with clearPend := true } }) ∧
   (∀ (s : State) (row : RowId) (r : Retire), s.rpr.retire = [r] → r.row = row.val → s.rpr.failQ = [] →
     (∀ h, h ∈ r.moving → (s.hv h).run = none ∧ (s.hv h).wait = []) →
     ∃ t, exec (.retirementDone row) s = .next t ∧ t.rpr.retire = [] ∧ t.rpr.pcol = hostCols s.rpr.map ∧
       t.rpr.evt = s.rpr.evt ||| 1 ∧ t.rpr.onSpare = s.rpr.onSpare ||| BitVec.ofNat 96 ((r.moving.map fun h => 2 ^ h.val).sum) ∧
       t.rpr.field = s.rpr.field ∧ t.jobs = s.jobs ∧ (∀ h, h ∉ r.moving → t.hv h = s.hv h) ∧
       ∀ h, t.hv h = { s.hv h with csQueue := (t.hv h).csQueue, csSeen := (t.hv h).csSeen }) ∧
   (∀ (s : State) (row : RowId) (r : Retire) (h : HiveId), s.rpr.retire = [r] → r.row = row.val → h ∈ r.moving → (s.hv h).run.isSome = true →
     exec (.retirementDone row) s = .next s)) ∧
  (∀ (s : State),
     (∀ f : ScrubFind, ∃ t, exec (.combStoreScrub [f]) s = .next t ∧ t = { s with hives := t.hives, obs := t.obs } ∧
       (∀ k, k ≠ f.hive → t.hv k = s.hv k) ∧ (t.hv f.hive).cs = (s.hv f.hive).cs ∧ (t.hv f.hive).run = (s.hv f.hive).run ∧
       (∀ w, w ∈ (t.hv f.hive).csUe ↔ w ∈ (s.hv f.hive).csUe ∨ (w ∈ f.uncorrectable ∧ w < 196608)) ∧
       (tabWf 0 (s.hv f.hive).csSeen = true →
         (∀ r, r ∈ (t.hv f.hive).csQueue ↔ r ∈ (s.hv f.hive).csQueue ∨ (r ∈ f.rows ∧ r < 1536 ∧ 2 ≤ tabGet 0 (s.hv f.hive).csSeen r) ∨
           ∃ w, w ∈ f.uncorrectable ∧ w < 196608 ∧ r = w / 128) ∧
         (∀ r, r ∈ f.rows → r < 1536 → tabGet 0 (t.hv f.hive).csSeen r =
           if tabGet 0 (s.hv f.hive).csSeen r < 2 then tabGet 0 (s.hv f.hive).csSeen r + 1 else 0))) ∧
     (∀ (h : HiveId) row rest e, (s.hv h).csQueue = row :: rest → s.idleHive h = true → row < 1536 →
       s.rowsUsed (h.val / 12) (s.rpr.pcol.getD h.val 0) < 64 → e.ty = 4 → e.org = 3 → e.b2 = BitVec.ofNat 8 (h.val / 12) →
       e.b3 = BitVec.ofNat 8 (s.rpr.pcol.getD h.val 0) → e.b4 = BitVec.ofNat 8 row → e.b5 = BitVec.ofNat 8 (row / 256) →
       e.b6 = 0 → e.b7 = 0 →
       ∃ t, exec (.csrowRemap h) s = .next t ∧ (t.hv h).csQueue = rest ∧ (t.hv h).cs = (s.hv h).cs ∧ t.rpr.evt.getLsbD 3 = true ∧
         t.rpr.field = s.rpr.field ++ [e] ∧ t.rpr.factory = s.rpr.factory ∧ t.jobs = s.jobs ∧ ∀ k, k ≠ h → t.hv k = s.hv k) ∧
     (∀ (h : HiveId) row rest, (s.hv h).csQueue = row :: rest → s.idleHive h = true →
       64 ≤ s.rowsUsed (h.val / 12) (s.rpr.pcol.getD h.val 0) →
       exec (.csrowRemap h) s = .next (wantInsp h .rows s)) ∧
     (∀ h : HiveId, ((s.hv h).csQueue = [] ∨ s.idleHive h = false) → exec (.csrowRemap h) s = .next s))

/-- R435: the physical columns of a row that no HIVE entry retires host logical columns 0 to 11 in increasing order; only the first
HIVE entry of a row takes effect; a row without one leaves column 12 unused, its free spare; a BARREN entry changes no host, and a
barren hive runs no work. -/
def Obligations.HostsFollowTheFirstHiveEntry : Prop :=
  ∀ (m : List MapEnt) (row : Nat), row < 8 →
    (∀ c, c < 12 → hostCol m row c ≤ 12 ∧ some (hostCol m row c) ≠ retiredCol m row) ∧
    (∀ c d, c < d → d < 12 → hostCol m row c < hostCol m row d) ∧
    (∀ e r, m = e :: r → e.ty = 1 → e.b2.toNat = row → retiredCol m row = some e.b3.toNat) ∧
    (∀ e r, m = e :: r → ¬(e.ty = 1 ∧ e.b2.toNat = row) → retiredCol m row = retiredCol r row ∧ ∀ c, hostCol m row c = hostCol r row c) ∧
    ((∀ e, e ∈ m → ¬(e.ty = 1 ∧ e.b2.toNat = row)) → ∀ c, c < 12 → hostCol m row c = c) ∧
    (∀ s : State, s.rpr.map = m → (s.spareFree row = true ↔ ∀ e, e ∈ m → ¬(e.ty = 1 ∧ e.b2.toNat = row))) ∧
    (∀ (s : State) (h : HiveId), (s.hv h).barren = true → s.freeHive h = false)

/-- R224: BASE, SIZE or QUOTA of a colony takes a write only while no job of it is in flight, no model of it is loaded and the
allocation would not overlap; a write ignored sets SUP_EVT.CA_REFUSED. R236: an uncorrectable word sets SUP_EVT.UE, records its address
and queues it for repair; a job for which it was read and that runs ends with INTERNAL. R222, R226, R281 (Table 12.5): what BAR2
reads and writes: the supers at its window, zeros from the system region, and UR or CA where it does not answer. -/
def Obligations.SupersAllocationsAndErrors : Prop :=
  (∀ (c : ColId) (v : Word) (s : State),
     (((s.jobs.any fun j => j.col == c) || s.hasModel c) = true → ∀ k, exec (.supAllocWrite c k v) s = .next (postEvent .sup 4 s)) ∧
     (((s.jobs.any fun j => j.col == c) || s.hasModel c) = false →
       (s.allocBad c (fld v 0 16) (s.co c).caSize.toNat = true → exec (.supAllocWrite c 0 v) s = .next (postEvent .sup 4 s)) ∧
       (s.allocBad c (fld v 0 16) (s.co c).caSize.toNat = false →
         exec (.supAllocWrite c 0 v) s = .next (updCol c (fun x => { x with caBase := BitVec.ofNat 16 (fld v 0 16) }) s)) ∧
       (s.allocBad c (s.co c).caBase.toNat (fld v 0 16) = true → exec (.supAllocWrite c 1 v) s = .next (postEvent .sup 4 s)) ∧
       (s.allocBad c (s.co c).caBase.toNat (fld v 0 16) = false →
         exec (.supAllocWrite c 1 v) s = .next (updCol c (fun x => { x with caSize := BitVec.ofNat 16 (fld v 0 16) }) s)) ∧
       exec (.supAllocWrite c 2 v) s = .next (updCol c (fun x => { x with csQuota := BitVec.ofNat 11 (fld v 0 11) }) s)) ∧
     (∀ b n, n ≠ 0 → b * 2 ^ 20 < 0x4000000 → s.allocBad c b n = true) ∧ (∀ b n, n ≠ 0 → 2 ^ 35 < b * 2 ^ 20 + n * 2 ^ 20 → s.allocBad c b n = true)) ∧
  (∀ (addr : BitVec 35) (s : State),
     (∃ t, exec (.supersUe addr none) s = .next t ∧ t.sup.evt = s.sup.evt ||| 1 ∧ t.sup.ueAddr = BitVec.ofNat 35 (addr.toNat / 8 * 8) ∧
       addr.toNat / 8 * 8 ∈ t.sup.ppr ∧ addr.toNat / 8 * 8 ∈ t.sup.ue ∧ t.sup.mem = s.sup.mem ∧ t.jobs = s.jobs ∧ t.hives = s.hives) ∧
     (∀ (slot : SlotId) j, s.job? slot.val = some j → j.st = .running → j.ending = none → j.isHome = true → s.others j = [] →
       s.jobRuns slot.val = true → ∃ t, exec (.supersUe addr (some slot)) s = .next t ∧ t.sup.evt = s.sup.evt ||| 1 ∧
         (t.job? slot.val).bind (·.ending) = some { code := .internal, detail := 1 } ∧ (t.job? slot.val).map (·.st) = some .stopping)) ∧
  (∀ (s : State),
     (s.bar2Base = none → (∀ off n, exec (.bar2Access (.read off n)) s = .next ((aerUnc .pf0 20 s).cpl .ur)) ∧
       ∀ off bs, exec (.bar2Access (.write off bs)) s = .next (aerUnc .pf0 20 s)) ∧
     (∀ base, s.bar2Base = some base →
       (∀ off n, (s.pwr.held = true ∨ 0x10000000 < off + 4 * n ∨ 4096 < 4 * n) →
         exec (.bar2Access (.read off n)) s = .next ((aerUnc .pf0 15 s).cpl .ca)) ∧
       (∀ off bs, (s.pwr.held = true ∨ 0x10000000 < off + List.length bs ∨ s.maxPayload < bs.length) →
         exec (.bar2Access (.write off bs)) s = .next (aerUnc .pf0 15 s)) ∧
       (∀ off n, s.pwr.held = false → off + 4 * n ≤ 0x10000000 → n ≤ 1024 → 0x4000000 ≤ base + off → s.ueIn (base + off) (4 * n) = [] →
         ∃ t, exec (.bar2Access (.read off n)) s = .next t ∧ t = { s with resp := t.resp } ∧ t.resp.status = .sc ∧ t.resp.poisoned = false ∧
           t.resp.data = bytesToWords (memReadN s.sup.mem (base + off) (4 * n)) ∧ t.resp.parts.sum = 4 * n ∧
           ∀ x, x ∈ t.resp.parts → x ≤ s.maxPayload) ∧
       (∀ off n, s.pwr.held = false → off + 4 * n ≤ 0x10000000 → n ≤ 1024 → 0 < n → base + off + 4 * n ≤ 0x4000000 → s.sup.ue = [] →
         ∃ t, exec (.bar2Access (.read off n)) s = .next t ∧ t.resp.data = List.replicate n 0 ∧ t.sup.evt = s.sup.evt ||| 2 ∧
           t.sup.mem = s.sup.mem ∧ t.hives = s.hives) ∧
       (∀ (off : Nat) (bs : List (Option Byte)), s.pwr.held = false → off + bs.length ≤ 0x10000000 → bs.length ≤ s.maxPayload →
         Memory.wf s.sup.mem = true →
         ∃ t, exec (.bar2Access (.write off bs)) s = .next t ∧ t.resp = { status := .sc } ∧ t.hives = s.hives ∧ t.jobs = s.jobs ∧
           (∀ a, (a < 0x4000000 ∨ s.heldAt a = true ∨ s.sealedHit a 1 = true ∨ a < base + off ∨ base + off + bs.length ≤ a) →
             memRead t.sup.mem a = memRead s.sup.mem a) ∧
           (∀ i, bs[i]? = some none → memRead t.sup.mem (base + off + i) = memRead s.sup.mem (base + off + i)) ∧
           (∀ i b, bs[i]? = some (some b) → 0x4000000 ≤ base + off + i → s.heldAt (base + off + i) = false →
             s.sealedHit (base + off + i) 1 = false → memRead t.sup.mem (base + off + i) = b) ∧
           ((∃ i b, bs[i]? = some (some b) ∧ s.heldAt (base + off + i) = true) → t.wax.evt.getLsbD 8 = true))))

/-- R227, R228: GO starts a load unless one runs; the load waits until its partition is free, checks MAGIC, RESERVED and PARTITION
in this order, and its end reports the code and puts a model that passed in the place of the one before it. -/
def Obligations.ModelLoadsCheckThenReplace : Prop :=
  ∀ s : State,
    (s.mld.busy = true → exec .modelLoadGo s = .next s) ∧
    (s.mld.busy = false → ∃ t, exec .modelLoadGo s = .next t ∧ t.mld.busy = true ∧ t.mld.code = 1 ∧ t.mld.result = none ∧
      t.mld.at_ = alignDown s.mld.src.toNat 6 % 2 ^ 35 ∧ t = { s with mld := t.mld, hives := t.hives } ∧ t.models = s.models) ∧
    (s.mld.busy = true → s.mld.result = none → s.loadFree = true →
      (∀ b, s.mediaRead s.mld.at_ 32 = some b → b.take 4 ≠ [0x53, 0x4B, 0x4D, 0x44] →
        exec .modelLoadPerform s = .next { s with mld := { s.mld with result := some { code := 2 } } }) ∧
      (∀ b, s.mediaRead s.mld.at_ 32 = some b → b.take 4 = [0x53, 0x4B, 0x4D, 0x44] →
        (nonZero b 5 3 || nonZero b 12 4 || nonZero b 24 8) = true →
        exec .modelLoadPerform s = .next { s with mld := { s.mld with result := some { code := 3 } } }) ∧
      (∀ b, s.mediaRead s.mld.at_ 32 = some b → b.take 4 = [0x53, 0x4B, 0x4D, 0x44] →
        (nonZero b 5 3 || nonZero b 12 4 || nonZero b 24 8) = false →
        (∀ pid, partOf? (u8 b 4) = some pid → s.loadable pid = false) →
        exec .modelLoadPerform s = .next { s with mld := { s.mld with result := some { code := 4 } } }) ∧
      ∃ t r, exec .modelLoadPerform s = .next t ∧ t.mld.result = some r ∧ t.models = s.models ∧ t.jobs = s.jobs ∧
        (r.model = none → t.hives = s.hives)) ∧
    (s.mld.busy = false → exec .modelLoadPerform s = .next s) ∧
    (s.mld.result = none → exec .modelLoadDone s = .next s) ∧
    (∀ r, s.mld.result = some r → r.model = none → ∃ t, exec .modelLoadDone s = .next t ∧ t = { s with mld := t.mld } ∧
      t.mld.busy = false ∧ t.mld.code = r.code ∧ t.mld.hold = none ∧
      (∀ c k i, r.dld = some (c, k, i) → t.mld.dldCode = c ∧ t.mld.dldPos = BitVec.ofNat 24 i)) ∧
    (∀ r m, s.mld.result = some r → r.model = some m → ∃ t, exec .modelLoadDone s = .next t ∧ t = { s with mld := t.mld, models := t.models } ∧
      t.mld.busy = false ∧ t.mld.code = r.code ∧ t.model? m.part.val = some m ∧
      (∀ n, n ≠ m.part.val → t.model? n = s.model? n) ∧ t.mld.plan = m.plan.code)

/-- R241, R242, R251: a doorbell moves the tail or the head of its ring, and one of a disabled queue, of an index beyond the ring or
during a colony reset is ignored with COL_ERR.DB_RANGE. R267: queue registers keep their value while their queue is enabled;
enabling a queue starts its indices at 0, and CQ PHASE at 1; a submission queue is enabled only while the CQ is. R281 and R518: a
write within the mailbox stores the bytes whose enables are set; one that crosses its end is a Completer Abort and stores nothing.
-/
def Obligations.QueuesDoorbellsAndMailboxes : Prop :=
  (∀ (c : ColId) (q : Fin 4) (v : Word) (s : State),
     ((s.sq c q).en = true → (s.co c).resetBusy = false → v.toNat % 4096 < 2 ^ (s.sq c q).log2.toNat →
       exec (.sqDoorbell c q v) s = .next (updSq c q (fun x => { x with tail := v.toNat % 4096 }) s)) ∧
     (((s.sq c q).en = false ∨ (s.co c).resetBusy = true ∨ 2 ^ (s.sq c q).log2.toNat ≤ v.toNat % 4096) →
       exec (.sqDoorbell c q v) s = .next (colErr c 1 s)) ∧
     ((s.co c).r.cqEn = true → (s.co c).resetBusy = false → v.toNat % 4096 < 2 ^ (s.co c).r.cqLog2.toNat →
       exec (.cqDoorbell c v) s = .next (updVf c (fun r => { r with cqHead := v.toNat % 4096 }) s)) ∧
     (((s.co c).r.cqEn = false ∨ (s.co c).resetBusy = true ∨ 2 ^ (s.co c).r.cqLog2.toNat ≤ v.toNat % 4096) →
       exec (.cqDoorbell c v) s = .next (colErr c 1 s)) ∧
     (∀ b, ((colErr c b s).co c).r.err = setBit (s.co c).r.err b ∧ (colErr c b s).jobs = s.jobs ∧ (colErr c b s).hives = s.hives ∧
       ∀ d, d ≠ c → (colErr c b s).co d = s.co d)) ∧
  (∀ (c : ColId) (v : Word) (s : State),
     ((s.co c).r.cqEn = true → exec (.queueConfigWrite c 0x1000 v) s = .next s ∧ exec (.queueConfigWrite c 0x1004 v) s = .next s) ∧
     ((s.co c).r.cqEn = false →
       exec (.queueConfigWrite c 0x1000 v) s = .next (updVf c (fun r => { r with cqBase := setLo r.cqBase v }) s) ∧
       exec (.queueConfigWrite c 0x1004 v) s = .next (updVf c (fun r => { r with cqBase := setHi r.cqBase v }) s)) ∧
     ((s.co c).r.cqEn = false → v.toNat / 16 % 2 = 1 → 4 ≤ v.toNat % 16 → v.toNat % 16 ≤ 12 → exec (.queueConfigWrite c 0x1008 v) s =
       .next (updVf c (fun r => { r with cqLog2 := BitVec.ofNat 4 (v.toNat % 16), cqEn := true, cqTail := 0, cqHead := 0, cqPhase := true }) s)) ∧
     ((s.co c).r.cqEn = true → v.toNat / 16 % 2 = 0 → (∃ q : Fin 4, (s.sq c q).en = true) → exec (.queueConfigWrite c 0x1008 v) s = .next s) ∧
     (exec (.queueConfigWrite c 0x100C v) s = .next (updVf c (fun r => { r with
       modCnt := BitVec.ofNat 8 (v.toNat % 256), modUsec := BitVec.ofNat 16 (v.toNat / 256 % 65536) }) s)) ∧
     (∀ q : Fin 4, (s.sq c q).en = false → (s.co c).r.cqEn = true → v.toNat / 16 % 2 = 1 → 4 ≤ v.toNat % 16 → v.toNat % 16 ≤ 12 →
       exec (.queueConfigWrite c (0x1048 + 16 * q.val) v) s =
         .next (updSq c q (fun x => { x with log2 := BitVec.ofNat 4 (v.toNat % 16), en := true, head := 0, tail := 0 }) s)) ∧
     (∀ q : Fin 4, (s.sq c q).en = false → (s.co c).r.cqEn = false → ∃ t, exec (.queueConfigWrite c (0x1048 + 16 * q.val) v) s = .next t ∧
       (t.sq c q).en = false ∧ t.jobs = s.jobs ∧ ∀ k, k ≠ q → t.sq c k = s.sq c k) ∧
     (∀ q : Fin 4, (s.sq c q).en = true → exec (.queueConfigWrite c (0x1040 + 16 * q.val) v) s = .next s ∧
       exec (.queueConfigWrite c (0x1044 + 16 * q.val) v) s = .next s)) ∧
  (∀ (c : ColId) (off : Nat) (bytes : List (Option Byte)) (s : State),
     (512 < off + bytes.length → exec (.mailboxWrite c off bytes) s = .next (aerUnc (.vf c) 15 s)) ∧
     (off + bytes.length ≤ 512 → Memory.wf (s.co c).r.mailbox = true → ∃ t, exec (.mailboxWrite c off bytes) s = .next t ∧
       t.resp = { status := .sc } ∧ t = { s with cols := t.cols, resp := t.resp } ∧ (∀ d, d ≠ c → t.co d = s.co d) ∧
       (∀ i b, bytes[i]? = some (some b) → memRead (t.co c).r.mailbox (off + i) = b) ∧
       (∀ i, bytes[i]? = some none → memRead (t.co c).r.mailbox (off + i) = memRead (s.co c).r.mailbox (off + i)) ∧
       (∀ a, (a < off ∨ off + bytes.length ≤ a) → memRead (t.co c).r.mailbox a = memRead (s.co c).r.mailbox a) ∧
       (t.co c).r.sq = (s.co c).r.sq ∧ (t.co c).r.xp = (s.co c).r.xp))

/-- R239, R240, R243, R245 (Table 11.5): the entry that round-robin names becomes a queued job in a free slot, with the next
generation of the slot; one that fails a check is no job, and the first bad one is recorded. -/
def Obligations.FetchedEntriesBecomeJobs : Prop :=
  ∀ (c : ColId) (q : Fin 4) (bytes : List Byte) (s : State), s.nextFetch = some (c, q) → bytes.length = 64 →
    (descFail bytes (s.co c).highOk = none → ∃ t j, exec (.jobFetch c q bytes) s = .next t ∧ t.jobs = s.jobs ++ [j] ∧
      j.slot < 960 ∧ s.job? j.slot = none ∧ j.col = c ∧ j.kind = .queue q ∧ j.d = parseDesc bytes ∧ j.st = .queued ∧ j.order = s.order ∧
      j.gen = nextGen (tabGet 0 s.gens j.slot) ∧ t.order = s.order + 1 ∧
      (t.sq c q).head = ((s.sq c q).head + 1) % 2 ^ (s.sq c q).log2.toNat ∧ t.nextCol = (c.val + 1) % 64 ∧ t.hives = s.hives ∧
      (t.co c).r.err = (s.co c).r.err) ∧
    (∀ code, descFail bytes (s.co c).highOk = some code → ∃ t, exec (.jobFetch c q bytes) s = .next t ∧ t.jobs = s.jobs ∧
      (t.sq c q).head = ((s.sq c q).head + 1) % 2 ^ (s.sq c q).log2.toNat ∧ (t.co c).r.err = setBit (s.co c).r.err 0 ∧
      ((s.co c).r.errCode = 0 → (t.co c).r.errCode = code ∧ (t.co c).r.errSq = BitVec.ofNat 2 q.val ∧
        (t.co c).r.errIdx = BitVec.ofNat 12 (s.sq c q).head) ∧
      ((s.co c).r.errCode ≠ 0 → (t.co c).r.errCode = (s.co c).r.errCode ∧ (t.co c).r.errIdx = (s.co c).r.errIdx) ∧ t.hives = s.hives) ∧
    (∀ g, 1 ≤ nextGen g ∧ nextGen g ≤ 63 ∧ (g < 63 → nextGen g = g + 1))

/-- R246, R248, R253: a queued job that passes its checks runs: its key is the one it names, and every hive of the dance directory
has its program, which starts at instruction 0 with g0 to g3 of the descriptor. A job with HWSEED waits for its seed. -/
def Obligations.DispatchPlacesThePrograms : Prop :=
  ∀ (slot : SlotId) (s : State) (j : Job) (q : Fin 4), s.job? slot.val = some j → j.kind = .queue q →
    (s.mayDispatch j = false → exec (.jobDispatch slot) s = .next s) ∧
    (∀ m, s.mayDispatch j = true → s.checkFail j.part.val j.d true = none → j.d.hwseed = false → s.unreached j = none → s.others j = [] →
      s.model? j.part.val = some m → ∃ t i, exec (.jobDispatch slot) s = .next t ∧ t.job? slot.val = some i ∧ i.st = .running ∧
        i.key = j.d.key ∧ i.inputPend = (j.d.inLen != 0) ∧ (∀ b : Fin 32, (i.bars[b]).target = m.targets.getD b.val 0 ∧ (i.bars[b]).count = 0) ∧
        ∀ d, d ∈ m.dir → ∃ p, ((t.hv d.hive).run = some p ∨ p ∈ (t.hv d.hive).wait) ∧ p.slot = slot.val ∧ p.home = d.hive ∧ p.pc = 0 ∧
          p.g[(0 : Fin 16)] = BitVec.ofNat 32 j.d.inOff ∧ p.g[(1 : Fin 16)] = BitVec.ofNat 32 j.d.outOff ∧
          p.g[(2 : Fin 16)] = j.d.g2 ∧ p.g[(3 : Fin 16)] = j.d.g3 ∧ (p.needInput = true ↔ j.d.inLen ≠ 0 ∧ d.hive.val = j.d.inHive)) ∧
    (s.mayDispatch j = true → s.checkFail j.part.val j.d true = none → j.d.hwseed = true → j.seeded = false → s.guard.en.dead = false →
      exec (.jobDispatch slot) s = .next (updJob slot.val (fun j => { j with seedPend := true }) s)) ∧
    (∀ k, s.guard.en.wire = [(.job slot, k)] → j.seedPend = true → ∀ t, t = updJob slot.val (fun _ => { j with seedPend := false, seeded := true, key := k })
        { s with guard := { s.guard with en := { s.guard.en with wire := [] } } } →
      (t.mayDispatch { j with seedPend := false, seeded := true, key := k } = false → exec (.jobSeedArrive slot) s = .next t) ∧
      (t.mayDispatch { j with seedPend := false, seeded := true, key := k } = true →
        exec (.jobSeedArrive slot) s = .next (tryDispatch slot.val { j with seedPend := false, seeded := true, key := k } t))) ∧
    (s.guard.en.wire = [] → exec (.jobSeedArrive slot) s = .next s)

/-- R248: the input lands in the window of IN_HIVE, and the program there may start. R249 to R252: a job whose programs have ended
completes: its record goes to CQ_TAIL, which advances and flips PHASE at the wrap, and its slot is free; a record that waited goes
out once the ring has space; the delay limit raises VF vector 0. -/
def Obligations.InputsAndCompletionRecords : Prop :=
  (∀ (slot : SlotId) (bytes : List Byte) (s : State) (j : Job) (h : HiveId), s.job? slot.val = some j → j.inputPend = true →
     j.st = .running → bytes.length = j.d.inLen → (s.fn (.vf j.col)).bme = true → hiveOf? j.d.inHive = some h → j.winHive h = h → bytes.length ≤ s.winSize j.part.val →
     s.progRegion j.part.val h = none → Memory.wf (s.hv h).cs = true → ∃ t, exec (.inputCopyDone slot bytes) s = .next t ∧
       t.winRead j.part.val h j.d.inOff bytes.length = bytes ∧ (t.job? slot.val).map (·.inputPend) = some false ∧
       (∀ k p, p ∈ (t.hv k).wait → p.slot = slot.val → p.needInput = false) ∧ (∀ k, k ≠ h → (t.hv k).cs = (s.hv k).cs) ∧ t.cols = s.cols) ∧
  (∀ (slot : SlotId) (bytes : List Byte) (s : State) (j : Job), s.job? slot.val = some j → (s.fn (.vf j.col)).bme = false →
     exec (.inputCopyDone slot bytes) s = .next s) ∧
  (∀ (c : ColId) (s : State),
     (∀ (slot : SlotId) (j : Job) (q : Fin 4), s.job? slot.val = some j → j.kind = .queue q → j.col = c → s.jobOver j = true → j.ending = none → j.degr = 0 →
       j.sealed = false → j.d.outLen = 0 → j.d.rreg = false → j.repeats = 0 → (s.co c).r.cqFull = false → (s.co c).r.waiting = [] →
       (s.co c).resetBusy = false → (s.fn (.vf c)).bme = true →
       ∃ t, ∃ r : CplRec, exec (.jobEnd slot) s = .next t ∧ t.job? slot.val = none ∧ r.tag = j.tag ∧ r.code = .ok ∧ r.user = j.d.user ∧
         r.sec = s.tb.sec ∧ r.sub = BitVec.ofNat 32 s.tb.sub ∧ r.qual = s.tb.st.qual ∧
         Tx.write (.vf c) .record (alignDown (s.co c).r.cqBase.toNat 12 + 32 * (s.co c).r.cqTail) (r.bytes (s.co c).r.cqPhase false) ∈ t.tx ∧
         (t.co c).r.cqTail = (if (s.co c).r.cqTail + 1 = 2 ^ (s.co c).r.cqLog2.toNat then 0 else (s.co c).r.cqTail + 1) ∧
         (t.co c).r.cqPhase = (if (s.co c).r.cqTail + 1 = 2 ^ (s.co c).r.cqLog2.toNat then !(s.co c).r.cqPhase else (s.co c).r.cqPhase) ∧
         ∀ k, (t.hv k).cs = (s.hv k).cs) ∧
     (∀ (slot : SlotId) (j : Job), s.job? slot.val = some j → s.jobOver j = false → exec (.jobEnd slot) s = .next s) ∧
     (∀ r rest, (s.co c).r.waiting = r :: rest → ((s.co c).r.cqFull = true ∨ (s.fn (.vf c)).bme = false) →
       exec (.cqRecordWrite c) s = .next s) ∧
     (∀ r rest, (s.co c).r.waiting = r :: rest → (s.co c).r.cqFull = false → (s.fn (.vf c)).bme = true →
       ∃ t, exec (.cqRecordWrite c) s = .next t ∧ t.job? r.slot = none ∧ (t.co c).r.waiting = rest ∧
         Tx.write (.vf c) .record (alignDown (s.co c).r.cqBase.toNat 12 + 32 * (s.co c).r.cqTail) (r.bytes (s.co c).r.cqPhase false) ∈ t.tx ∧
         (t.co c).r.cqTail = (if (s.co c).r.cqTail + 1 = 2 ^ (s.co c).r.cqLog2.toNat then 0 else (s.co c).r.cqTail + 1) ∧ t.hives = s.hives) ∧
     ((s.co c).r.modUsec ≠ 0 → (s.co c).r.modPend ≠ 0 →
       exec (.cqModTimer c) s = .next (raise (.vf c) 0 (updVf c (fun v => { v with modPend := 0 }) s))) ∧
     (((s.co c).r.modUsec = 0 ∨ (s.co c).r.modPend = 0) → exec (.cqModTimer c) s = .next s))

/-- R90, R208, R263: the end of a job whose program runs sets its status once, the first cause or, of causes of one cycle, the one
of the lowest rank (R13), and asks each of its running programs for a stop; the HIV registers record the first HIVE_FAULT. R94,
R235, R263, R264: commands that end jobs: COL_CANCEL ends a job with CANCELLED and misses one that is not there; CANCEL_ALL of a
colony without jobs does nothing; an instruction that reads an uncorrectable word ends its job with HIVE_FAULT. -/
def Obligations.EndedAndCancelledJobs : Prop :=
  (∀ (slot : Nat) (s : State) (j : Job), s.job? slot = some j → j.st = .running → j.isHome = true → s.others j = [] → s.jobRuns slot = true →
     (∀ e w, (j.ending = none → ((endJob slot e w s).job? slot).bind (·.ending) = some e) ∧
       (∀ f, j.ending = some f → (j.endNow = false ∨ Code.rank f.code ≤ Code.rank e.code) →
         ((endJob slot e w s).job? slot).bind (·.ending) = some f) ∧
       (∀ f, j.ending = some f → j.endNow = true → Code.rank e.code < Code.rank f.code →
         ((endJob slot e w s).job? slot).bind (·.ending) = some e) ∧
       ((endJob slot e w s).job? slot).map (·.st) = some .stopping ∧
       (∀ h p, (s.hv h).run = some p → p.slot = slot → w ∈ ((endJob slot e w s).hv h).stops) ∧
       (∀ h p, (s.hv h).run = some p → ((endJob slot e w s).hv h).run = some p ∧ ((endJob slot e w s).hv h).cs = (s.hv h).cs) ∧
       ∀ h p, p ∈ ((endJob slot e w s).hv h).wait → p.slot ≠ slot) ∧
     (∀ (h : HiveId) cause, ((hiveFault h cause slot s).hv h).evt = (s.hv h).evt ||| 4 ∧
       ((s.hv h).evt.getLsbD 2 = false → ((hiveFault h cause slot s).hv h).faultCause = BitVec.ofNat 4 cause ∧
         ((hiveFault h cause slot s).hv h).faultTag = j.tag) ∧
       ((s.hv h).evt.getLsbD 2 = true → ((hiveFault h cause slot s).hv h).faultCause = (s.hv h).faultCause) ∧
       (j.ending = none → ((hiveFault h cause slot s).job? slot).bind (·.ending) =
         some { code := .hiveFault, detail := BitVec.ofNat 64 (h.val + 256 * cause) }))) ∧
  ((∀ (c : ColId) (tag : BitVec 16) (s : State), ((s.queueJobs c).find? fun j => j.tag == tag) = none →
     exec (.colCancel c tag) s = .next (colErr c 7 s)) ∧
   (∀ (c : ColId) (tag : BitVec 16) (s : State) (j : Job), ((s.queueJobs c).find? fun j => j.tag == tag) = some j → s.pastCancel j = true →
     exec (.colCancel c tag) s = .next (colErr c 7 s)) ∧
   (∀ (c : ColId) (tag : BitVec 16) (s : State) (j : Job), ((s.queueJobs c).find? fun j => j.tag == tag) = some j → s.pastCancel j = false →
     s.job? j.slot = some j → j.st = .running → j.ending = none → s.others j = [] → s.jobRuns j.slot = true →
     ∃ t, exec (.colCancel c tag) s = .next t ∧ (t.job? j.slot).bind (·.ending) = some { code := .cancelled, detail := 1 } ∧
       (t.job? j.slot).map (·.st) = some .stopping ∧ (t.co c).r.err = (s.co c).r.err) ∧
   (∀ (c : ColId) (s : State), s.queueJobs c = [] → exec (.cancelAll c) s = .next s) ∧
   (∀ (c : ColId) (s : State) (j : Job), s.queueJobs c = [j] → s.pastCancel j = false → s.job? j.slot = some j → j.st = .running →
     j.ending = none → s.others j = [] → s.jobRuns j.slot = true → ∃ t, exec (.cancelAll c) s = .next t ∧
       (t.job? j.slot).bind (·.ending) = some { code := .cancelled, detail := 1 }) ∧
   (∀ (h : HiveId) (s : State) (p : Prog) (j : Job) (rd ra : Reg4) (imm : Word), s.issues h p j (.ld rd ra imm) → j.st = .running →
     j.ending = none → j.isHome = true → s.others j = [] → s.winUe j.part.val h (alignDown (p.g[ra] + imm).toNat 2) 4 = true →
     ∃ t, exec (.ld h) s = .next t ∧ (t.job? p.slot).bind (·.ending) = some { code := .hiveFault, detail := BitVec.ofNat 64 (h.val + 256 * 3) } ∧
       (t.hv h).evt.getLsbD 2 = true))

/-- R255 to R257: the program that lending names moves to the express hive, with its registers and on context 0, and goes on there
or at home after a reclaim. -/
def Obligations.LentProgramsMove : Prop :=
  ∀ (h : HiveId) (slot : SlotId) (s : State) (j : Job) (home : HiveId) (p : Prog), s.job? slot.val = some j →
    (s.lendProg slot.val = some (home, p) → s.lendHive h = true → s.mayLend j = true → s.lendFirst j = true → s.rangesUe j.part.val home = false →
      ∃ t q, exec (.lendStart h slot) s = .next t ∧ ((t.hv h).run = some q ∨ q ∈ (t.hv h).wait) ∧ q.slot = p.slot ∧ q.home = p.home ∧
        q.lent = true ∧ q.g = p.g ∧ q.pc = p.pc ∧ (t.job? slot.val).map (·.lentAt) = some (some (h, home)) ∧
        (∀ x, x ∈ (t.hv home).wait → ¬(x.slot = p.slot ∧ x.home = p.home))) ∧
    (s.lendProg slot.val = some (home, p) → (s.lendHive h = false ∨ s.mayLend j = false) → exec (.lendStart h slot) s = .next s) ∧
    (s.lentProg slot.val = some (h, p) → s.resumable h = some p → p.inStream = none → p.win = none →
      ∃ t q, exec (.lentJobReturn slot false) s = .next t ∧ (t.hv h).run = some q ∧ q.lent = p.lent ∧ q.pc = p.pc ∧ q.g = p.g ∧
        (t.hv h).cs = (s.hv h).cs ∧ ((t.hv h).hny[(0 : Fin 2)]).ps = p.ps0 ∧ ((t.hv h).hny[(1 : Fin 2)]) = (s.hv h).hny[(1 : Fin 2)]) ∧
    (s.lentProg slot.val = some (h, p) → p.home ≠ h → s.freeHive p.home = true → s.mayRun p = true → s.chargeAdmits = true →
      (s.hv p.home).wait = [] → p.inStream = none → p.win = none → Memory.wf (s.hv h).cs = true →
      ∃ t q, exec (.lentJobReturn slot true) s = .next t ∧ (t.hv p.home).run = some q ∧ q.lent = false ∧ q.pc = p.pc ∧ q.g = p.g ∧
        (t.job? slot.val).map (·.lentAt) = some none ∧
        (∀ a, a < s.winSize j.part.val → memRead (t.hv p.home).cs a = memRead (s.hv h).cs a) ∧
        ∀ a, s.winSize j.part.val ≤ a → memRead (t.hv p.home).cs a = memRead (s.hv p.home).cs a)

/-- R258 to R260: an XP_DB that is accepted takes slot 960 + c with the values that the part holds; one that comes while a request
is in flight or with a bad length is refused with its error bits; the request that is next starts on the express hives. -/
def Obligations.ExpressRequests : Prop :=
  ∀ (c : ColId) (v : Word) (s : State),
    ((s.co c).resetBusy = true → exec (.xpDb c v) s = .next s) ∧
    ((s.co c).resetBusy = false → s.xpBusy c = true → (s.co c).r.xp.badLen = false →
      exec (.xpDb c v) s = .next (raise (.vf c) 2 (updVf c (fun r => { r with err := r.err ||| 4 }) s))) ∧
    ((s.co c).resetBusy = false → s.xpBusy c = false → (s.co c).r.xp.badLen = true →
      exec (.xpDb c v) s = .next (raise (.vf c) 2 (updVf c (fun r => { r with err := r.err ||| 8 }) s))) ∧
    ((s.co c).resetBusy = false → s.xpBusy c = false → (s.co c).r.xp.badLen = false → s.xpFail c (xpJob c (s.co c).r).d = none →
      ∃ t j, exec (.xpDb c v) s = .next t ∧ t.jobs = s.jobs ++ [j] ∧ j.slot = 960 + c.val ∧ j.col = c ∧ j.part.val = 0x40 ∧ j.st = .queued ∧
        j.kind = .express (memReadN (s.co c).r.mailbox 0 (s.co c).r.xp.lenIn.toNat) (s.co c).r.xp.pack (s.co c).r.xp.cpl ∧
        j.key = (s.co c).r.xp.key ∧ j.d.cls = 3 ∧ j.d.outLen = (s.co c).r.xp.lenOut.toNat ∧ j.d.g2 = (s.co c).r.xp.g2 ∧
        j.d.waxVer = (s.co c).r.xp.ver ∧ j.d.user = (s.co c).r.xp.user ∧ j.gen = nextGen (tabGet 0 s.gens (960 + c.val)) ∧
        t.hives = s.hives ∧ t.cols = s.cols) ∧
    (∀ j m, s.job? (960 + c.val) = some j → j.slot = 960 + c.val → (∃ bs pk a, j.kind = .express bs pk a) → j.part.val = 0x40 → s.xpNext j = true → s.holds 0x40 = false →
      s.pwr.stage < 5 → s.isReady = true → s.xpFail c j.d = none → s.model? 0x40 = some m →
      ∃ t i, exec (.expressStart c) s = .next t ∧ t.job? (960 + c.val) = some i ∧ i.st = .running ∧ i.started = true ∧
        (∀ d, d ∈ m.dir → ∃ p, ((t.hv d.hive).run = some p ∨ p ∈ (t.hv d.hive).wait) ∧ p.slot = 960 + c.val ∧ p.home = d.hive ∧
          p.cls = 3 ∧ p.pc = 0 ∧ p.g[(2 : Fin 16)] = j.d.g2 ∧ p.g[(3 : Fin 16)] = j.d.g3)) ∧
    (∀ j, s.job? (960 + c.val) = some j → (s.xpNext j = false ∨ s.holds 0x40 = true ∨ s.isReady = false) → exec (.expressStart c) s = .next s)

/-- R266: a colony reset disables the queues and cancels the jobs of the colony; it ends when none is in flight, with the registers
of the VF at reset; a Function Level Reset also returns the configuration space. -/
def Obligations.ColonyResets : Prop :=
  ∀ (c : ColId) (s : State), (s.co c).resetBusy = false → s.queueJobs c = [] → (s.co c).r.waiting = [] → (s.co c).r.xpHeld = none →
    ((s.jobs.any fun j => j.isHome && j.col == c) = false → ∃ t, exec (.colonyReset c) s = .next t ∧
      t.co c = { s.co c with r := {}, resetBusy := false, flr := false } ∧ (∀ d, d ≠ c → t.co d = s.co d) ∧ t.hives = s.hives ∧
      t.jobs = s.jobs ∧ (s.fn (.vf c)).bme = (t.fn (.vf c)).bme ∧ (t.fn (.vf c)).pba = 0 ∧ t.tx = s.tx) ∧
    ((s.jobs.any fun j => j.isHome && j.col == c) = true → ∃ t, exec (.colonyReset c) s = .next t ∧ (t.co c).resetBusy = true ∧
      (∀ q : Fin 4, (t.sq c q).en = false ∧ (t.sq c q).tail = (s.sq c q).tail) ∧ t.jobs = s.jobs ∧ t.hives = s.hives ∧
      ∀ d, d ≠ c → t.co d = s.co d) ∧
    (s.vfExists c = true → (s.jobs.any fun j => j.isHome && j.col == c) = false → ∃ t, exec (.vfFlr c) s = .next t ∧
      t.co c = { s.co c with r := {}, resetBusy := false, flr := false } ∧ t.fn (.vf c) = { FnSt.vfReset with held := (s.fn (.vf c)).held } ∧
      (∀ d, d ≠ c → t.co d = s.co d ∧ t.fn (.vf d) = s.fn (.vf d)) ∧ t.hives = s.hives ∧ t.jobs = s.jobs) ∧
    (s.vfExists c = false → exec (.vfFlr c) s = .next s)

/-- R269, R274, R275, R277: the link comes up at x16, x8 or x4; VF Enable needs the page size of the part; VF disable and an FLR of
PF0 take the VFs away, and the FLR returns the foragers and PF0's configuration space to reset. -/
def Obligations.LinkAndFunctions : Prop :=
  ∀ s : State,
    (∀ w sp, s.boot.pcie = true → s.boot.perstLow = false → w ∈ [16, 8, 4] → 1 ≤ sp → sp ≤ 5 →
      exec (.linkUp w sp) s = .next { s with host := { s.host with link := { up := true, width := w, speed := sp, adv := FcCredits.part } } }) ∧
    (∀ w sp, (w ∉ [16, 8, 4] ∨ s.boot.pcie = false) → exec (.linkUp w sp) s = .next s) ∧
    (s.isReady = true → s.host.sriov.pageSize = 1 →
      exec .vfEnable s = .next { s with host := { s.host with sriov := { s.host.sriov with vfEnable := true } } }) ∧
    (s.host.sriov.pageSize ≠ 1 → exec .vfEnable s = .next s) ∧
    (s.jobs = [] → (∀ c, (s.co c).r.waiting = [] ∧ (s.co c).r.xpHeld = none ∧ (s.co c).resetBusy = false) → ∃ t, exec .vfDisable s = .next t ∧
      t = { s with host := t.host, cols := t.cols, shadows := t.shadows } ∧ t.host.sriov = { s.host.sriov with vfEnable := false } ∧
      t.host.pf0 = s.host.pf0 ∧ t.host.forager = s.host.forager ∧
      (∀ c, s.vfExists c = true → (t.co c).r = {} ∧ t.host.vf[c] = { FnSt.vfReset with held := (s.host.vf[c]).held }) ∧
      ∀ c, s.vfExists c = false → t.co c = s.co c ∧ t.host.vf[c] = s.host.vf[c]) ∧
    (s.jobs = [] → (∀ c, (s.co c).r.waiting = [] ∧ (s.co c).r.xpHeld = none ∧ (s.co c).resetBusy = false) → ∃ t, exec .pf0Flr s = .next t ∧
      t = { s with host := t.host, cols := t.cols, shadows := t.shadows } ∧ t.host.sriov = {} ∧ t.host.pf0 = FnSt.pf0Reset ∧
      (∀ k : ChanId, t.host.forager[k] = ({ claimed := (s.host.forager[k]).claimed } : ForSt)) ∧ t.host.link = s.host.link ∧
      ∀ c, s.vfExists c = true → (t.co c).r = {})

/-- R278, R279: an event of a function with MSI-X disabled leaves no message and no PBA bit; with it enabled it sends the message of
its entry, or sets the PBA bit while the entry, the function or Bus Master Enable holds it back. R276, R278: Bus Master Enable lets
the writes that waited leave in their order, and then every pending message whose entry lets it; unmasking an entry lets its pending
message leave. -/
def Obligations.VectorsSendOrPend : Prop :=
  (∀ (f : Fn) (v : Nat) (s : State),
     ((s.fn f).msixEn = false → raise f v s = s) ∧
     ((s.fn f).msixEn = true → (s.fn f).msixMask = false → ((s.fn f).ent v).masked = false → (s.fn f).bme = true →
       raise f v s = { s with tx := Tx.msix f v ((s.fn f).ent v).addr ((s.fn f).ent v).data :: s.tx }) ∧
     ((s.fn f).msixEn = true → v < 64 → ((s.fn f).msixMask = true ∨ ((s.fn f).ent v).masked = true ∨ (s.fn f).bme = false) →
       ((raise f v s).fn f).pba.getLsbD v = true ∧ (raise f v s).tx = s.tx ∧
       ∀ i, i ≠ v → ((raise f v s).fn f).pba.getLsbD i = (s.fn f).pba.getLsbD i)) ∧
  (∀ (f : Fn) (s : State),
     (∃ t, exec (.busMasterEnable f) s = .next t ∧ (t.fn f).bme = true ∧ (∀ x, x ∈ s.tx → x ∈ t.tx) ∧
       (∀ k a bs, HeldTx.write k a bs ∈ (s.fn f).held → Tx.write f k a bs ((s.fn f).relaxed && TxKind.isData k) ∈ t.tx) ∧
       (∀ key a n, HeldTx.read key a n ∈ (s.fn f).held → Tx.read f key a n ∈ t.tx)) ∧
     (∀ v, ∃ t, exec (.msixUnmask f v) s = .next t ∧ t = { s with host := t.host, tx := t.tx } ∧
       (v < (s.fn f).msix.length → (t.fn f).ent v = { (s.fn f).ent v with masked := false }) ∧ ∀ x, x ∈ s.tx → x ∈ t.tx) ∧
     (∀ c r, f = .vf c → (s.co c).r.waiting = [r] → (s.co c).r.xpHeld = none → (s.co c).r.cqFull = false →
       ∃ t, exec (.busMasterEnable f) s = .next t ∧ t.job? r.slot = none ∧ (t.co c).r.waiting = [] ∧
         Tx.write (.vf c) .record (alignDown (s.co c).r.cqBase.toNat 12 + 32 * (s.co c).r.cqTail) (r.bytes (s.co c).r.cqPhase false) ∈ t.tx) ∧
     ((∀ c, f = .vf c → (s.co c).r.waiting = [] ∧ (s.co c).r.xpHeld = none) →
       (s.swarm.st ≠ .draining ∧ s.swarm.drainOwed = false ∧ s.swarm.walk = none) →
       ∃ t, exec (.busMasterEnable f) s = .next t ∧ t = { s with host := t.host, tx := t.tx } ∧ (t.fn f).bme = true ∧ (t.fn f).held = [] ∧
       (∀ v, v ∈ vecsOf f → (s.fn f).msixEn = true → (s.fn f).msixMask = false → ((s.fn f).ent v).masked = false →
         (t.fn f).pba.getLsbD v = false ∧
         ((s.fn f).pba.getLsbD v = true → Tx.msix f v ((s.fn f).ent v).addr ((s.fn f).ent v).data ∈ t.tx)) ∧
       (∀ v, ((s.fn f).ent v).masked = true → (t.fn f).pba.getLsbD v = (s.fn f).pba.getLsbD v)) ∧
     (∀ v, v < (s.fn f).msix.length → v ∈ vecsOf f → ∃ t, exec (.msixUnmask f v) s = .next t ∧ t = { s with host := t.host, tx := t.tx } ∧
       ((t.fn f).ent v) = { (s.fn f).ent v with masked := false } ∧ (∀ k, k ≠ v → (t.fn f).ent k = (s.fn f).ent k) ∧
       ((s.fn f).msixEn = true → (s.fn f).msixMask = false → (s.fn f).bme = true → (t.fn f).pba.getLsbD v = false ∧
         ((s.fn f).pba.getLsbD v = true → Tx.msix f v ((s.fn f).ent v).addr ((s.fn f).ent v).data ∈ t.tx)) ∧
       ((s.fn f).bme = false → t.tx = s.tx ∧ (t.fn f).pba = (s.fn f).pba)))

/-- R282, R283, R284, R286: the registers of a forager channel: its tail, enable with a ring size, disable, RESUME, ERR and GATE, as
a claim of the Guard lets them. R283, R284, R386 (Tables 12.3, 12.4): a descriptor that fails a check ends with its code in state
ERROR and moves nothing; one that passes starts, and its end moves the bytes, writes STATUS with WB and advances FOR_HEAD. -/
def Obligations.ForagerChannels : Prop :=
  (∀ (k : ChanId) (v : Word) (s : State),
     ((s.forg k).claimed = true → exec (.foragerTail k v) s = .next s ∧ (∀ l, exec (.foragerEnable k l) s = .next s) ∧
       exec (.foragerDisable k) s = .next s) ∧
     ((s.forg k).claimed = false → v.toNat % 4096 < 2 ^ (s.forg k).log2.toNat →
       exec (.foragerTail k v) s = .next (updFor k (fun f => { f with tail := v.toNat % 4096 }) s)) ∧
     (∀ l : BitVec 4, (s.forg k).claimed = false → (s.forg k).en = false → 4 ≤ l.toNat → l.toNat ≤ 12 → exec (.foragerEnable k l) s =
       .next (updFor k (fun f => { f with cur := f.cur.map fun d => { d with stale := true }, log2 := l, en := true, halting := false, head := 0, tail := 0, st := .run, bytes := 0 }) s)) ∧
     ((s.forg k).claimed = false → (s.forg k).en = true → (s.forg k).cur = none →
       exec (.foragerDisable k) s = .next (updFor k (fun f => { f with en := false, st := .idle }) s)) ∧
     ((s.forg k).claimed = false → (s.forg k).en = true → (s.forg k).cur ≠ none →
       exec (.foragerDisable k) s = .next (updFor k (fun f => { f with en := false, halting := true }) s)) ∧
     ((s.forg k).st = .stopped → exec (.resume k) s = .next (updFor k (fun f => { f with st := .run }) s)) ∧
     ((s.forg k).st ≠ .stopped → exec (.resume k) s = .next s) ∧
     ((s.forg k).st = .error → exec (.foragerErrClear k) s = .next (updFor k (fun f => { f with err := false, st := .run }) s)) ∧
     ((s.forg k).claimed = true → exec (.gate k true) s = .next (updFor k (fun f => { f with gate := true, claimDefer := true }) s)) ∧
     ((s.forg k).claimed = false → (s.forg k).en = false →
       exec (.gate k true) s = .next (updFor k (fun f => { f with gate := true, gated := true }) s)) ∧
     ((s.forg k).claimed = false → (s.forg k).en = true → exec (.gate k true) s = .next s) ∧
     (exec (.gate k false) s = .next (updFor k (fun f => { f with gate := false, claimDefer := false, gated := false }) s))) ∧
  (∀ (k : ChanId) (s : State), s.wax.hold = none →
     (∀ bytes code, s.forTakes k = true → bytes.length = 32 → forFail bytes = some code → (parseFor bytes).wb = false →
       (∃ t, exec (.foragerDescriptor k bytes) s = .next t ∧ (t.forg k).st = .error ∧ (t.forg k).err = true ∧ (t.forg k).code = code ∧
         (t.forg k).head = ((s.forg k).head + 1) % 2 ^ (s.forg k).log2.toNat ∧ t.sup.mem = s.sup.mem ∧ (t.forg k).bytes = (s.forg k).bytes ∧
         t.hives = s.hives)) ∧
     (∀ bytes, s.forTakes k = true → bytes.length = 32 → forFail bytes = none → s.forSealed (parseFor bytes) = false →
       ∃ t, exec (.foragerDescriptor k bytes) s = .next t ∧ t = { s with host := t.host, tx := t.tx } ∧
         t.forg k = { s.forg k with cur := some { parseFor bytes with statAt := alignDown (s.forg k).base.toNat 12 + 32 * (s.forg k).head + 24 } } ∧
         (∀ c, c ≠ k → t.forg c = s.forg c) ∧ (∀ x, x ∈ s.tx → x ∈ t.tx) ∧
         Tx.read .pf0 (.forDesc k) (alignDown (s.forg k).base.toNat 12 + 32 * (s.forg k).head) 32 ∈ t.tx ∧
         ((parseFor bytes).dir = 0 → ∃ a n, Tx.read .pf0 (.forData k) a n ∈ t.tx ∧ a = (parseFor bytes).src)) ∧
     (∀ bytes, s.forTakes k = false → exec (.foragerDescriptor k bytes) s = .next s) ∧
     (∀ d data, (s.forg k).cur = some d → (s.forg k).gated = false → s.pwr.held = false → s.host.pf0.bme = true → s.forSealed d = false →
       d.dir = 0 → data.length = d.len → 0x4000000 ≤ d.dst → d.wb = true → Memory.wf s.sup.mem = true →
       ∃ t, exec (.foragerDescriptorDone k data) s = .next t ∧ memReadN t.sup.mem d.dst d.len = data ∧
         (∀ a, (a < d.dst ∨ d.dst + d.len ≤ a) → memRead t.sup.mem a = memRead s.sup.mem a) ∧
         Tx.write .pf0 (.foragerStatus k) d.statAt [0, 1, 0, 0] ∈ t.tx ∧
         (t.forg k).head = (if d.stale then (s.forg k).head else ((s.forg k).head + 1) % 2 ^ (s.forg k).log2.toNat) ∧ (t.forg k).code = 0 ∧ (t.forg k).cur = none ∧
         (t.forg k).bytes = (s.forg k).bytes + BitVec.ofNat 64 d.len) ∧
     (∀ d, (s.forg k).cur = some d → ((s.forg k).gated = true ∨ s.pwr.held = true ∨ (s.host.pf0.bme = false ∧ d.dir ≠ 2)) →
       ∀ data, exec (.foragerDescriptorDone k data) s = .next s))

/-- R291 (Table 12.5): each error of the link sets its AER status bit in the function it is tied to, and a refused request gets its
completion status. R292, R293: a failed read of the part: a descriptor is no job and sets its check code, an input ends its job with
INTERNAL, a forager descriptor ends with code 0x05; with Completion Timeout Disable set a read waits. -/
def Obligations.LinkErrorsAndFailedReads : Prop :=
  (∀ (e : TlpErr) (fn : Option Fn) (posted : Bool) (s : State),
     ∃ t, exec (.tlpError e { fn := fn, posted := posted }) s = .next t ∧ t = { s with host := t.host, resp := t.resp, freeCtr := t.freeCtr } ∧
       t.host.forager = s.host.forager ∧
       (e = .malformed → (t.fn .pf0).aerUnc = setBit (s.fn .pf0).aerUnc 18) ∧
       (e = .poisoned → (t.fn (fn.getD .pf0)).aerUnc = setBit (s.fn (fn.getD .pf0)).aerUnc 12) ∧
       (e = .unexpectedCpl → (t.fn (fn.getD .pf0)).aerUnc = setBit (s.fn (fn.getD .pf0)).aerUnc 16) ∧
       (e = .completerAbort → (t.fn (fn.getD .pf0)).aerUnc = setBit (s.fn (fn.getD .pf0)).aerUnc 15 ∧
         (posted = false → t.resp.status = .ca) ∧ (posted = true → t.resp = s.resp)) ∧
       (e = .unsupported → (t.fn (fn.getD .pf0)).aerUnc = setBit (s.fn (fn.getD .pf0)).aerUnc 20 ∧
         (posted = false → t.resp.status = .ur) ∧ (posted = true → t.resp = s.resp)) ∧
       (e = .surpriseDown → (t.fn .pf0).aerUnc = setBit (s.fn .pf0).aerUnc 5 ∧ t.host.link.up = false) ∧
       (e = .badTlp → (t.fn .pf0).aerCor = setBit (s.fn .pf0).aerCor 6 ∧ (t.fn .pf0).aerUnc = (s.fn .pf0).aerUnc) ∧
       (∀ g, g ≠ .pf0 → g ≠ fn.getD .pf0 → t.fn g = s.fn g)) ∧
  (∀ (s : State) (why : RdRes), why ≠ .ok → why ≠ .timeout →
     (∀ c q, s.nextFetch = some (c, q) → ∃ t, exec (.cellarReadFail (.descriptor c q) why) s = .next t ∧ t.jobs = s.jobs ∧
       (t.sq c q).head = ((s.sq c q).head + 1) % 2 ^ (s.sq c q).log2.toNat ∧ (t.co c).r.err = setBit (s.co c).r.err 0 ∧
       ((s.co c).r.errCode = 0 → (t.co c).r.errCode = 5)) ∧
     (∀ (n : SlotId) j, s.job? n.val = some j → j.inputPend = true → j.st = .running → j.ending = none → j.isHome = true → s.others j = [] →
       s.jobRuns n.val = true → ∃ t, exec (.cellarReadFail (.input n) why) s = .next t ∧
         (t.job? n.val).bind (·.ending) = some { code := .internal, detail := BitVec.ofNat 64 (3 + 256 * rdReason why) } ∧
         (t.job? n.val).map (·.inputPend) = some false) ∧
     (∀ k d, (s.forg k).cur = some d → d.dir = 0 → 0 < d.len → d.wb = false → ∃ t, exec (.cellarReadFail (.forData k []) why) s = .next t ∧
       (t.forg k).code = 5 ∧ (t.forg k).st = .error ∧ (t.forg k).err = true ∧ (t.forg k).cur = none) ∧
     (∀ p, (s.fn (rdFn s p)).ctoDis = true → exec (.completionTimeout p) s = .next s ∧ exec (.cellarReadFail p .timeout) s = .next s) ∧
     (∀ c q, s.nextFetch = some (c, q) → (s.fn (.vf c)).ctoDis = false → ∃ t, exec (.completionTimeout (.descriptor c q)) s = .next t ∧
       t.jobs = s.jobs ∧ (t.co c).r.err = setBit (s.co c).r.err 0 ∧ (t.fn (.vf c)).aerUnc.getLsbD 14 = true))

/-- R299 to R301, R303, R306: a flit with a bad CRC is counted and discarded, and the first one that is not the flit expected is
answered by a NAK that names it; a good flit in order advances the number and extends or completes its message. R302 to R304, R306:
STATUS returns credits and acknowledges flits, which leave the retry buffer; a NAK and the retry timeout resend the held flits in
order; the heartbeat sends STATUS with the number last received and at most 63 credits of each kind. -/
def Obligations.FlitsAreCheckedAcknowledgedAndRetried : Prop :=
  (∀ (p : PortId) (bs b : List Byte) (k : Nat) (s : State) (x : Port), x = s.ports[p] → x.live = true → b = (bs.drop 1).take 13 → k = u8 bs 0 % 8 →
     (bs.length ≠ 16 → exec (.flitReceive p bs) s = .next s) ∧
     (bs.length = 16 → crcOk bs = false → x.discarding = true →
       exec (.flitReceive p bs) s = .next (updPort p (fun y => { y with crcCnt := y.crcCnt + 1 }) s)) ∧
     (bs.length = 16 → crcOk bs = false → x.discarding = false → exec (.flitReceive p bs) s = .next
       (updPort p (fun y => { y with discarding := true }) (emit p (linkFlit s p 2 x.rxNext (List.replicate 10 0))
         (updPort p (fun y => { y with crcCnt := y.crcCnt + 1 }) s)))) ∧
     (crcOk bs = true → 2 ≤ k → k ≤ 6 → u8 bs 0 / 32 ≠ x.rxNext % 8 → x.discarding = false → exec (.flitReceive p bs) s = .next
       (updPort p (fun y => { y with discarding := true }) (emit p (linkFlit s p 2 x.rxNext (List.replicate 10 0)) s))) ∧
     (∀ a, crcOk bs = true → 2 ≤ k → k ≤ 6 → u8 bs 0 / 32 = x.rxNext % 8 → u8 bs 0 / 8 % 4 = 1 → (∀ e, e ∈ x.rxPart → e.kind ≠ k) →
       0 < u8 b 2 % 64 → u8 b 2 % 64 < longest k → s.swarm.addr = some a → u8 b 0 % 64 = a.val → (x.admitted = true ∨ k = 6) →
       opKnown k (u8 b 6) = true → exec (.flitReceive p bs) s = .next (updPort p (fun y => { y with
         rxNext := (y.rxNext + 1) % 1024, rxfCnt := y.rxfCnt + 1, discarding := false, ackDue := true
         rxPart := y.rxPart ++ [{ kind := k, vc := u8 b 0 / 64 % 2, len := u8 b 2 % 64 + 1, got := 1, dest := .here, flits := [b] }] }) s)) ∧
     (∀ q out, crcOk bs = true → 2 ≤ k → k ≤ 6 → u8 bs 0 / 32 = x.rxNext % 8 → u8 bs 0 / 8 % 4 = 1 → (∀ e, e ∈ x.rxPart → e.kind ≠ k) →
       0 < u8 b 2 % 64 → u8 b 2 % 64 < longest k → rxTo p k b s = (.pass q, out) → q ≠ p → (s.ports[q]).live = true →
       ((s.ports[q]).admitted = true ∨ k = 6) → (s.ports[q]).outq = [] → (s.ports[q]).retry = [] → (s.ports[q]).loopOn = false →
       u8 b 2 % 64 < (s.ports[q]).credits.getD (creditIdx k out) 0 →
       ∃ t slot cycle, exec (.flitReceive p bs) s = .next t ∧
         Tx.flit q (flitBytes k true false (s.ports[q]).txNext (setVc out b)) slot cycle ∈ t.tx) ∧
     (∀ a, crcOk bs = true → 2 ≤ k → k ≤ 6 → u8 bs 0 / 32 = x.rxNext % 8 → u8 bs 0 / 8 % 4 = 3 → (∀ e, e ∈ x.rxPart → e.kind ≠ k) →
       u8 b 2 % 64 = 0 → s.swarm.addr = some a → u8 b 0 % 64 = a.val → (x.admitted = true ∨ k = 6) → opKnown k (u8 b 6) = true →
       ∃ t, exec (.flitReceive p bs) s = .next t ∧ t = { s with ports := t.ports, inbox := t.inbox } ∧
         t.inbox = s.inbox ++ [{ port := p, kind := k, vc := u8 b 0 / 64 % 2, payload := b, nflits := 1 }] ∧
         t.ports = (updPort p (fun y => { y with
           rxNext := (y.rxNext + 1) % 1024, rxfCnt := y.rxfCnt + 1, discarding := false, ackDue := true }) s).ports) ∧
     (isLink 1 bs = true → exec (.flitReceive p bs) s = exec (.status p bs) s) ∧
     (isLink 2 bs = true → exec (.flitReceive p bs) s = exec (.nak p bs) s)) ∧
  (∀ (p : PortId) (bs b : List Byte) (s : State) (x : Port), x = s.ports[p] → x.live = true → b = (bs.drop 1).take 13 →
     (isLink 1 bs = true → x.outq = [] → ∃ t, exec (.status p bs) s = .next t ∧ t = { s with ports := t.ports } ∧
       (∀ q, q ≠ p → t.ports[q] = s.ports[q]) ∧ (t.ports[p]).credits = x.credits.zipWith (· + ·) (readCredits (uN b 3 8)) ∧
       (t.ports[p]).partner = BitVec.ofNat 6 (u8 b 11) ∧ (t.ports[p]).pport = BitVec.ofNat 2 (u8 b 12) ∧
       (∀ pre f post, x.retry = pre ++ f :: post → f.num = uN b 1 2 % 1024 → (∀ g, g ∈ pre → g.num ≠ f.num) →
         (t.ports[p]).retry = post ∧ (t.ports[p]).acked = some f.num ∧ (t.ports[p]).failed = 0 ∧ (t.ports[p]).resent = false) ∧
       ((∀ g, g ∈ x.retry → g.num ≠ uN b 1 2 % 1024) → (t.ports[p]).retry = x.retry ∧ (t.ports[p]).acked = x.acked)) ∧
     (∀ pre f post, isLink 2 bs = true → x.outq = [] → x.loopOn = false → x.retry = pre ++ f :: post → f.num = uN b 1 2 % 1024 → (∀ g, g ∈ pre → g.num ≠ f.num) →
       x.resent = false → x.failed < 16 → ∃ t, exec (.nak p bs) s = .next t ∧ t = { s with ports := t.ports, tx := t.tx } ∧
         sentOn p t.tx = (((f :: post).map (·.bytes)).filter (· ≠ idleFlit)).reverse ++ sentOn p s.tx ∧ (t.ports[p]).retry = x.retry ∧
         (t.ports[p]).rtyCnt = x.rtyCnt + 1 ∧ (t.ports[p]).resent = true ∧ ∀ q, q ≠ p → t.ports[q] = s.ports[q]) ∧
     (x.retry ≠ [] → x.resent = false → x.failed < 16 → x.loopOn = false → ∃ t, exec (.retryTimeout p) s = .next t ∧
       t = { s with ports := t.ports, tx := t.tx } ∧ (∀ q, q ≠ p → t.ports[q] = s.ports[q]) ∧
       t.ports[p] = { x with rtyCnt := x.rtyCnt + 1, resent := true, slotN := (t.ports[p]).slotN } ∧
       sentOn p t.tx = ((x.retry.map (·.bytes)).filter (· ≠ idleFlit)).reverse ++ sentOn p s.tx) ∧
     (x.retry = [] → exec (.retryTimeout p) s = .next s) ∧
     (x.retry ≠ [] → x.resent = true → x.failed = 15 → x.partnerV = false → x.loopOn = false → x.light = true → s.nonePassed →
       ∃ t, exec (.retryTimeout p) s = .next t ∧ PortLost p 3 .train .full s t) ∧
     exec (.heartbeatSend p) s = .next (emit p (linkFlit s p 1 x.lastGood x.owed)
       (updPort p (fun y => { y with owed := x.owed.map (· - 63), ackDue := x.owed.any (63 < ·) }) s))) ∧
  (∀ (p : PortId) (bs : List Byte) (s : State) (x : Port) (w : Nat), x = s.ports[p] → w = (if x.half then 1 else 2) →
     (x.loopOn = true → x.slotN / w % 1024 ≠ 1023 →
       emit p bs s = updPort p (fun y => { y with slotN := y.slotN + 1, loopIn := y.loopIn ++ [bs] }) s) ∧
     (x.loopOn = false → x.slotN / w % 1024 ≠ 1023 →
       emit p bs s = (updPort p (fun y => { y with slotN := y.slotN + 1 }) s).send (.flit p bs (x.slotN % w) (x.slotN / w))) ∧
     (x.loopOn = false → x.half = false → x.slotN % 2 = 0 → x.slotN / 2 % 1024 = 1023 → (emit p bs s).tx =
       .flit p bs 0 (x.slotN / 2 + 1) :: .flit p idleFlit 1 (x.slotN / 2) :: .flit p idleFlit 0 (x.slotN / 2) :: s.tx) ∧
     (∀ k, s.lightSent (.flit p bs k x.slotN) = x.lightOf p k x.slotN bs) ∧
     (∀ k cycle w c v, (c, v) ∈ x.lightOf p k cycle bs → v ^^^ x.scramble p c cycle ∈ (List.range 4).map (slotWord bs) ∧
       (physical x.txUse (4 * k + w) = some c → w < 4 → v = slotWord bs w ^^^ x.scramble p c cycle)))

/-- R311 to R315, R319, R320: how a dark port comes to carry flits: probe, answer, relight, training with the lowest good
wavelengths, and the controls EN and LOOP; a retrain keeps numbers, credits and the retry buffer. -/
def Obligations.PortsProbeAnswerAndTrain : Prop :=
  (∀ m u : BitVec 9, useSet m = some u → goodOnes u = (goodOnes m).take (if 8 ≤ (goodOnes m).length then 8 else 4)) ∧
  (∀ m : BitVec 9, useSet m = none ↔ (goodOnes m).length < 4) ∧
  (∀ (x : Port) a serial, (x.peer = none → x.report a serial = (a, serial)) ∧
    ∀ i, x.peer = some i → x.report a serial = (i.good, i.serial)) ∧
  ∀ (p : PortId) (s : State) (x : Port), x = s.ports[p] →
    (x.st = .safe → exec (.probe p) s = .next { s with tx := Tx.probe p :: s.tx } ∧
      exec (.answer p) s = .next (updPort p (fun y => { y with st := .answer, tx := .answer, light := true }) s)) ∧
    (x.st ≠ .safe → exec (.probe p) s = .next s ∧ exec (.answer p) s = .next s) ∧
    (x.st = .safe ∨ x.st = .answer → ∃ t, exec (.relit p) s = .next t ∧
      t.ports[p] = { x with st := .relit, tx := .full, light := true, evt := x.evt ||| 4, peer := none, slotN := (t.ports[p]).slotN } ∧
      (x.loopOn = false → TrainSent p 0 0 t) ∧
      (∀ q, q ≠ p → t.ports[q] = s.ports[q]) ∧ t.swarm = s.swarm ∧ t.jobs = s.jobs ∧ t.hives = s.hives) ∧
    (x.st ≠ .safe → x.st ≠ .answer → exec (.relit p) s = .next s) ∧
    (∀ bs i, isLink 3 bs = true → i = readTrain ((bs.drop 1).take 13) →
      (x.st = .relit ∨ x.st = .train → exec (.train { port := p, bytes := bs }) s =
        .next (updPort p (fun y => { y with st := .train, peer := if i.good = 0 then y.peer else some i }) s)) ∧
      (x.st = .retrain → exec (.train { port := p, bytes := bs }) s = .next (updPort p (fun y => { y with peer := if i.good = 0 then y.peer else some i }) s))) ∧
    (∀ bs, (isLink 3 bs = false ∨ x.training = false) → exec (.train { port := p, bytes := bs }) s = .next s) ∧
    (∀ a b, (useSet a = none ∨ useSet b = none) → x.st = .relit ∨ x.st = .train → ∃ t, exec (.trainRetry p a b) s = .next t ∧
      t = { s with ports := t.ports, tx := t.tx } ∧ t.ports[p] = { x with st := .train, peer := none, slotN := (t.ports[p]).slotN } ∧
      (∀ q, q ≠ p → t.ports[q] = s.ports[q]) ∧ (x.loopOn = false → TrainSent p 0 0 t)) ∧
    (∀ a b tu ru serial rtt freq, x.st = .train → x.loopOn = false → useSet (x.report a serial).1 = some tu → useSet b = some ru →
      freqOk freq = true → (x.report a serial).2 ≠ Config.dsn → ∃ t, exec (.trainingDone p a b serial rtt freq) s = .next t ∧
      TrainSent p b ((x.peer.map (·.echo)).getD 0) t ∧ t.ports[p] = { x.clear with
        slotN := 0, seedAt := s.freeCtr, peer := none, lossNow := false, st := .active, self := false, half := (goodOnes tu).length == 4 || (goodOnes ru).length == 4, txUse := tu, rxUse := ru, rtt := rtt
        freq := freq, evt := x.evt ||| (BitVec.ofNat 32 (8 + 16 * b2n (spareSet tu || spareSet ru) +
          32 * b2n ((goodOnes tu).length == 4 || (goodOnes ru).length == 4))) } ∧
        (∀ q, q ≠ p → t.ports[q] = s.ports[q]) ∧ t.swarm = s.swarm ∧ t.jobs = s.jobs ∧ t.hives = s.hives) ∧
    (∀ a b tu ru serial rtt freq, x.st = .retrain → x.loopOn = false → useSet (x.report a serial).1 = some tu → useSet b = some ru →
      freqOk freq = true → x.retry = [] → x.outq = [] → ∃ t, exec (.trainingDone p a b serial rtt freq) s = .next t ∧ (t.ports[p]).st = .active ∧
        (t.ports[p]).txNext = x.txNext ∧ (t.ports[p]).rxNext = x.rxNext ∧ (t.ports[p]).credits = x.credits ∧ (t.ports[p]).txUse = tu ∧
        (t.ports[p]).rxUse = ru ∧ (t.ports[p]).admitted = x.admitted ∧ ∀ q, q ≠ p → t.ports[q] = s.ports[q]) ∧
    (x.st = .active → x.loopOn = false → ∃ t, exec (.portRetrain p) s = .next t ∧ t = { s with ports := t.ports, tx := t.tx } ∧
      t.ports[p] = { x with st := .retrain, peer := none, slotN := (t.ports[p]).slotN } ∧ (∀ q, q ≠ p → t.ports[q] = s.ports[q]) ∧
      linkFlit s p 4 x.lastGood (List.replicate 10 0) ∈ sentOn p t.tx ∧ TrainSent p 0 0 t ∧
      ∀ k : Fin 9, exec (.wavelengthLost p k) s = .next (if x.rxUse.getLsbD k.val then t else s)) ∧
    (∀ bs b, isLink 4 bs = true → b = (bs.drop 1).take 13 → x.carries = true → ∃ t, exec (.retrain { port := p, bytes := bs }) s = .next t ∧
      t = { s with ports := t.ports, tx := t.tx } ∧ (x.st = .active ∨ x.st = .retrain → (t.ports[p]).st = .retrain) ∧
      (t.ports[p]).credits = x.credits.zipWith (· + ·) (readCredits (uN b 3 8)) ∧ (t.ports[p]).partner = BitVec.ofNat 6 (u8 b 11) ∧
      (∀ q, q ≠ p → t.ports[q] = s.ports[q]) ∧
      ∀ pre f post, x.retry = pre ++ f :: post → f.num = uN b 1 2 % 1024 → (∀ g, g ∈ pre → g.num ≠ f.num) → (t.ports[p]).retry = post) ∧
    (x.st ≠ .active → exec (.portRetrain p) s = .next s) ∧
    (∀ bs, (isLink 4 bs = false ∨ x.carries = false) → exec (.retrain { port := p, bytes := bs }) s = .next s) ∧
    (x.en = false → s.boot.stage = 6 → x.loopOn = false →
      exec (.en p true) s = .next (updPort p (fun y => { y with en := true, st := .safe, tx := .dark }) s)) ∧
    (x.carries = false → x.lossNow = false → exec (.en p false) s = .next (updPort p (fun y => { y with en := false, st := .down, tx := .dark }) s)) ∧
    (x.st = .safe → x.loopOn = false → x.lossNow = false →
      exec (.loop p true) s = .next (updPort p (fun y => { y with loopOn := true, st := .train, tx := .dark, peer := none }) s)) ∧
    (x.st = .train → x.loopOn = true → x.lossNow = false →
      exec (.loop p false) s = .next (updPort p (fun y => { y with loopOn := false, st := .safe, tx := .dark }) s)) ∧
    (∀ v, x.loopOn = v → exec (.loop p v) s = .next s)

/-- R310, R313, R315, R317, R321, R322: how a port is lost: loss of light, no heartbeat, a retrain that fails or EN = 0, each with
its cause; training values return, the port is admitted no more, and it trains again while light is there. R310: an exchange that
waits too long ends: what waits of it is dropped, EXO_PEVT is set, and its job, of this station, ends with LINK_TIMEOUT, the
destination and the port. -/
def Obligations.PortsAndExchangesAreLost : Prop :=
  (∀ (p : PortId) (s : State) (x : Port), x = s.ports[p] → x.partnerV = false → x.loopOn = false → s.nonePassed →
     (x.live = true → x.light = true → ∃ t, exec (.heartbeatTimeout p) s = .next t ∧ PortLost p 2 .train .full s t) ∧
     (x.live = true → x.light = false → ∃ t, exec (.heartbeatTimeout p) s = .next t ∧ PortLost p 2 .safe .dark s t) ∧
     (x.live = false → x.lossNow = false → exec (.heartbeatTimeout p) s = .next s) ∧
     (x.live = false → x.lossNow = true → 2 < x.lossCause.toNat →
       exec (.heartbeatTimeout p) s = .next (updPort p (fun y => { y with lossCause := 2 }) s)) ∧
     (x.st = .retrain → x.light = true → (∃ t, exec (.retrainTimeout p) s = .next t ∧ PortLost p 4 .train .full s t) ∧
       ∀ a b serial rtt freq, (useSet (x.report a serial).1 = none ∨ useSet b = none) → ∃ t, exec (.trainingDone p a b serial rtt freq) s = .next t ∧
         PortLost p 5 .train .full s t) ∧
     (x.st ≠ .retrain → x.lossNow = false → exec (.retrainTimeout p) s = .next s) ∧
     (∀ pwr : BitVec 16, -14 * 256 ≤ pwr.toInt →
       exec (.lossOfLight p pwr) s = .next (updPort p (fun y => { y with light := true, rxPwr := pwr }) s)) ∧
     (∀ pwr : BitVec 16, pwr.toInt < -14 * 256 → x.st = .active ∨ x.st = .retrain → ∃ t, exec (.lossOfLight p pwr) s = .next t ∧ PortLost p 1 .safe .dark s t ∧
       (t.ports[p]).light = false ∧ (t.ports[p]).rxPwr = pwr ∧ (t.ports[p]).evt.getLsbD 1 = true) ∧
     (∀ pwr : BitVec 16, pwr.toInt < -14 * 256 → x.st = .safe → exec (.lossOfLight p pwr) s = .next (updPort p (fun y => { y with light := false, rxPwr := pwr }) s)) ∧
     (x.st = .active → ∃ t, exec (.en p false) s = .next t ∧ PortLost p 6 .down .dark s t ∧ (t.ports[p]).en = false)) ∧
  (∀ (p : PortId) (dst : StnId) (tag : BitVec 16) (s : State) (j : Job), (s.ports[p]).outq = [] → s.jobs = [j] → j.isHome = true → j.tag = tag →
     j.st = .running → j.ending = none → s.othersDone j = false →
     ∃ t, exec (.exchangeTimeout p dst s.stn tag) s = .next t ∧ (t.ports[p]).evt = (s.ports[p]).evt ||| 64 ∧
       (t.job? j.slot).bind (·.ending) = some { code := .linkTimeout, detail := BitVec.ofNat 64 (dst.val + 256 * p.val) })

/-- R310, R333, R334, R337: DISPATCH starts a job of another station and is answered by ACCEPT, or by REJECT with the code of the
check that failed; the home job starts at the last ACCEPT, ends with the code of a REJECT or a TIMEOUT, and completes at the last
DONE; R342: the REJECT of the last standby ends a job that lost a station with SWARM_LOST; SW_STOP stops the job here, and a station
without it answers at once. -/
def Obligations.SwarmJobsStartStopAndReport : Prop :=
  ∀ (m : MsgHdr) (s : State),
    (∀ d, s.holds (colPart d.col) = true → exec (.dispatch m d) s = .next s) ∧
    (∀ d n r p, s.holds (colPart d.col) = false → m.home ≠ s.stn → s.farJob m = none →
      s.swarm.route s.stn.val m.home.val = some (n :: r) → s.swarm.portTo s.stn.val n = some p →
      ((s.swarm.st = .draining ∨ s.swarm.st = .detached) → ∃ t, exec (.dispatch m d) s = .next t ∧ t.jobs = s.jobs ∧
        Tx.swarm m.home m.home m.tag (.reject 0x30 (BitVec.ofNat 64 s.stn.val)) ∈ t.tx) ∧
      (∀ e, s.swarm.st = .member → s.checkFail (colPart d.col).val (farJobOf m d).d d.hives.isSome = some e → ∃ t, exec (.dispatch m d) s = .next t ∧
        t.jobs = s.jobs ∧ t.hives = s.hives ∧ Tx.swarm m.home m.home m.tag (.reject e.code.num e.detail) ∈ t.tx) ∧
      (s.swarm.st = .member → s.checkFail (colPart d.col).val (farJobOf m d).d d.hives.isSome = none → ∃ t j, exec (.dispatch m d) s = .next t ∧
        Tx.swarm m.home m.home m.tag .accept ∈ t.tx ∧ t.farJob m = some j ∧ j.kind = .swarm (BitVec.ofNat 6 m.home.val) m.tag ∧
        j.st = .running ∧ j.started = true ∧ j.key = d.key ∧ j.col = d.col ∧ j.span = d.span ||| BitVec.ofNat 64 (2 ^ m.home.val) ∧
        j.inputPend = false)) ∧
    (∀ u, u = takeMsg m 4 2 s → (s.homeJob m = none → exec (.accept m) s = .next u) ∧
      (∀ j, s.homeJob m = some j → (j.st ≠ .running ∨ j.started = true ∨ ∃ a, a ∈ s.others j ∧ a ≠ m.src ∧ j.accepted.getLsbD a.val = false) →
        exec (.accept m) s = .next (updJob j.slot (fun _ => { j with accepted := j.accepted ||| BitVec.ofNat 64 (2 ^ m.src.val) }) u)) ∧
      (∀ j x, s.homeJob m = some j → s.job? j.slot = some j → j.st = .running → j.started = false → s.model? j.part.val = some x →
        (∀ a, a ∈ s.others j → a ≠ m.src → j.accepted.getLsbD a.val = true) → ∃ t i, exec (.accept m) s = .next t ∧
        t.job? j.slot = some i ∧ i.started = true ∧ i.st = .running ∧ i.key = j.key ∧ ∀ d, d ∈ x.dir →
          ∃ p, ((t.hv d.hive).run = some p ∨ p ∈ (t.hv d.hive).wait) ∧ p.slot = j.slot ∧ p.home = d.hive ∧ p.pc = 0)) ∧
    (∀ j, s.homeJob m = some j → s.job? j.slot = some j → j.st = .running → j.ending = none →
      (∃ a, a ∈ s.others j ∧ a ≠ m.src ∧ j.done.getLsbD a.val = false) →
      (∀ code detail, (∀ gone, j.role = some (gone, m.src.val) → j.accepted.getLsbD m.src.val = true) →
        ∃ t, exec (.reject m code detail) s = .next t ∧ (t.job? j.slot).map (·.st) = some .stopping ∧
        (t.job? j.slot).bind (·.ending) = some { code := codeOfNum code, detail := detail } ∧
        (t.job? j.slot).map (·.done) = some (j.done ||| BitVec.ofNat 64 (2 ^ m.src.val))) ∧
      (∀ dst port, dst < 256 → port < 256 → ∃ t, exec (.timeout m dst port) s = .next t ∧ (t.job? j.slot).map (·.st) = some .stopping ∧
        (t.job? j.slot).bind (·.ending) = some { code := .linkTimeout, detail := BitVec.ofNat 64 (dst + 256 * port) }) ∧
      exec (.done m) s = .next (updJob j.slot (fun j => { j with done := j.done ||| BitVec.ofNat 64 (2 ^ m.src.val) }) (takeMsg m 4 5 s))) ∧
    (∀ j q gone code detail, s.homeJob m = some j → s.job? j.slot = some j → j.kind = .queue q → j.st = .running → j.ending = none →
      j.role = some (gone, m.src.val) → gone < 64 → j.accepted.getLsbD m.src.val = false → s.swarm.stby = BitVec.ofNat 64 (2 ^ m.src.val) →
      (s.co j.col).r.cqFull = false → (s.co j.col).r.waiting = [] → (s.fn (.vf j.col)).bme = true → ∃ t, ∃ r : CplRec,
        exec (.reject m code detail) s = .next t ∧ t.job? j.slot = none ∧ r.tag = j.tag ∧ r.code = .swarmLost ∧
        r.detail = BitVec.ofNat 64 gone ∧ Tx.write (.vf j.col) .record
          (alignDown (s.co j.col).r.cqBase.toNat 12 + 32 * (s.co j.col).r.cqTail) (r.bytes (s.co j.col).r.cqPhase false) ∈ t.tx) ∧
    (∀ j q e, s.homeJob m = some j → s.job? j.slot = some j → j.kind = .queue q → j.st = .stopping → j.ending = some e → e.code = .cancelled →
      s.jobRuns j.slot = false → (∀ a, a ∈ s.others j → a ≠ m.src → j.done.getLsbD a.val = true) → (s.co j.col).r.cqFull = false →
      (s.co j.col).r.waiting = [] → (s.fn (.vf j.col)).bme = true → ∃ t, exec (.done m) s = .next t ∧ t.job? j.slot = none) ∧
    (∀ n reason, s.farJob m = none → m.home ≠ s.stn → s.swarm.route s.stn.val m.home.val = some n → n ≠ [] →
      (s.swarm.portTo s.stn.val (n.headD 0)).isSome = true →
      ∃ t, exec (.swStop m reason) s = .next t ∧ t.jobs = s.jobs ∧ Tx.swarm m.home m.home m.tag .done ∈ t.tx) ∧
    (∀ j reason, s.farJob m = some j → j.st = .running → j.ending = none → j.isHome = false → s.jobRuns j.slot = true →
      ∃ t, exec (.swStop m reason) s = .next t ∧ (t.job? j.slot).map (·.st) = some .stopping ∧
        (t.job? j.slot).bind (·.ending) = some { code := .cancelled, detail := BitVec.ofNat 64 reason } ∧
        ∀ h p, (s.hv h).run = some p → p.slot = j.slot → StopWhy.swarm ∈ (t.hv h).stops)

/-- R306: the command of a swarm message takes it out of the receive buffer of its port, whose credits are then owed. R75, R192,
R203, R335, R336, R339: what the messages of a running swarm job do: arrivals count at the home station, a release is the generation
that WAITs see, counts add, bytes land in windows, and copies of checkpoints are kept. -/
def Obligations.SwarmMessagesCarryArrivalsAndData : Prop :=
  (∀ (m : MsgHdr) (k op : Nat) (s : State),
     (s.inbox = [] → takeMsg m k op s = s) ∧
     (∀ x, x.port = m.port → x.kind = k → x.payload.getD 6 0 = BitVec.ofNat 8 op → x.payload.getD 1 0 = BitVec.ofNat 8 m.src.val →
       x.payload.getD 3 0 = BitVec.ofNat 8 m.home.val → uN x.payload 4 2 = m.tag.toNat → s.inbox = [x] →
       takeMsg m k op s = { updPort m.port (fun y => { y with
         owed := y.owed.set (creditIdx k x.vc) (y.owed.getD (creditIdx k x.vc) 0 + x.nflits), ackDue := true }) s with inbox := [] })) ∧
  (∀ (m : MsgHdr) (s : State),
     (∀ bar j, s.homeJob m = some j → s.job? j.slot = some j →
       ((j.bars[bar]).count + 1 < (j.bars[bar]).target → exec (.arriveMsg m bar) s = .next (updJob j.slot
         (fun i => { i with bars := i.bars.set bar { i.bars[bar] with count := (i.bars[bar]).count + 1 } }) (takeMsg m 5 1 s))) ∧
       ((j.bars[bar]).target ≠ 0 → (j.bars[bar]).target ≤ (j.bars[bar]).count + 1 → s.isCkpt j bar = false →
         ∃ t, exec (.arriveMsg m bar) s = .next t ∧ (t.job? j.slot).map (fun i => i.bars) =
           some (j.bars.set bar { j.bars[bar] with count := 0, gen := (j.bars[bar]).gen + 1 }) ∧ t.hives = s.hives ∧
           ∀ a n r, a ∈ s.others j → s.swarm.route s.stn.val a.val = some (n :: r) → (s.swarm.portTo s.stn.val n).isSome = true →
             Tx.swarm a s.stn j.tag (.release bar ((j.bars[bar]).gen + 1)) ∈ t.tx)) ∧
     (∀ bar gen j, s.farJob m = some j → s.isCkpt j bar = false → exec (.release m bar gen) s = .next (updJob j.slot
       (fun i => { i with bars := i.bars.set bar { i.bars[bar] with gen := gen } }) (takeMsg m 5 2 s))) ∧
     (∀ hive acc j h p v, s.anyJob m = some j → (s.hv h).run = some p → p.slot = j.slot → p.home = hive → p.sealed = false →
       tabWf 0 p.acc = true → v < 2 ^ 24 → ∃ t q, exec (.add m hive acc [v]) s = .next t ∧ (t.hv h).run = some q ∧
         q = { p with acc := q.acc } ∧ tabGet 0 q.acc (acc % 1024) = tabGet 0 p.acc (acc % 1024) +
           BitVec.ofInt 32 (if v < 2 ^ 23 then (v : Int) else (v : Int) - 2 ^ 24) ∧
         ∀ i, i < 1024 → i ≠ acc % 1024 → tabGet 0 q.acc i = tabGet 0 p.acc i) ∧
     (∀ hive off data j, s.anyJob m = some j → s.job? j.slot = some j → s.jobOwns j hive = true →
       (s.progOf j.slot hive).bind (·.win) = none → data.length ≤ s.winSize j.part.val → s.progRegion j.part.val hive = none →
       Memory.wf (s.hv (j.winHive hive)).cs = true → ∃ t, exec (.move m hive off data) s = .next t ∧ t.winRead j.part.val (j.winHive hive) off data.length = data ∧
         t.jobs = s.jobs ∧ ∀ k, k ≠ j.winHive hive → t.hv k = s.hv k) ∧
     (∀ hive off data j, s.anyJob m = some j → s.jobOwns j hive = false →
       exec (.move m hive off data) s = .next (colErr j.col 6 (takeMsg m 2 1 s))) ∧
     (∀ k hive off data j, s.homeJob m = some j → s.job? j.slot = some j → (j.ckpt.filter fun c => decide (k < c.k)).length < 2 →
       (∃ t i c, exec (.ckptData m k hive off data) s = .next t ∧ t.job? j.slot = some i ∧ c ∈ i.ckpt ∧ c.k = k ∧
         (m.src.val, hive, off, data) ∈ c.data ∧ t.hives = s.hives) ∧
       (∃ t i c, exec (.ckptDone m k) s = .next t ∧ t.job? j.slot = some i ∧ c ∈ i.ckpt ∧ c.k = k ∧ m.src.val ∈ c.done ∧ t.hives = s.hives)))

/-- R331, R340 to R343: a failed station leaves the map, and a job that reaches it and is not replayable ends with SWARM_LOST naming
it; a station that leaves fails no job; a ROLLBACK puts the copy of its checkpoint in place of a job's programs, and the pieces that
a standby is sent become a program on their hive. -/
def Obligations.StationsAreLostAndReplaced : Prop :=
  ∀ (m : MsgHdr) (s : State),
    (∀ a b u, u = takeMsg m 6 5 s → s.swarm.has a.val = false → s.noDrain → exec (.stnFail m a b) s = .next u) ∧
    (∀ a b, s.noDrain → s.swarm.has a.val = true → a ≠ s.stn → s.reaching a = [] → ∃ t, exec (.stnFail m a b) s = .next t ∧
      t.swarm.members = (s.swarm.members &&& ~~~(BitVec.ofNat 64 (2 ^ a.val))) ∧ t.swarm.mapGen = s.swarm.mapGen + 1 ∧
      t.swarm.failStn = BitVec.ofNat 6 a.val ∧ t.swarm.failV = true ∧ t.swarm.failBy = BitVec.ofNat 6 b.val ∧
      t.swarm.failCount = satInc s.swarm.failCount ∧ t.swarm.evt.getLsbD 2 = true ∧ t.hives = s.hives ∧ t.jobs = s.jobs) ∧
    (∀ a b j q, s.noDrain → s.jobs = [j] → s.swarm.has a.val = true → a ≠ s.stn → s.reaching a = [j] → j.kind = .queue q → j.d.replayable = false →
      j.ending = none → (s.co j.col).r.cqFull = false → (s.co j.col).r.waiting = [] → (s.fn (.vf j.col)).bme = true →
      ∃ t, ∃ r : CplRec, exec (.stnFail m a b) s = .next t ∧ t.jobs = [] ∧ r.tag = j.tag ∧ r.code = .swarmLost ∧
        r.detail = BitVec.ofNat 64 a.val ∧ Tx.write (.vf j.col) .record
          (alignDown (s.co j.col).r.cqBase.toNat 12 + 32 * (s.co j.col).r.cqTail) (r.bytes (s.co j.col).r.cqPhase false) ∈ t.tx) ∧
    (s.noDrain → s.swarm.has m.src.val = true → m.src ≠ s.stn → ∃ t, exec (.leaveMsg m) s = .next t ∧ t.jobs = s.jobs ∧ t.hives = s.hives ∧
      t.swarm.members = (s.swarm.members &&& ~~~(BitVec.ofNat 64 (2 ^ m.src.val))) ∧ t.swarm.mapGen = s.swarm.mapGen + 1 ∧
      t.swarm.evt.getLsbD 4 = true) ∧
    (∀ j k c gone sb, m.home ≠ s.stn → s.job? (farSlot m) = some j → sb ≠ s.stn → k ≠ 0 →
      s.swarm.ckpts.find? (fun c => c.slot == farSlot m && c.k == k && k != 0) = some c → (∀ p, p ∈ c.progs → p.slot = farSlot m ∧ p.ctx ≠ .fresh) →
      ∃ t i, exec (.rollbackMsg m k gone sb) s = .next t ∧ t.job? (farSlot m) = some i ∧ i.bars = c.bars ∧ i.ckptK = k ∧
        i.st = .running ∧ i.role = some (gone.val, sb.val) ∧ (∀ h p, (t.hv h).run = some p → p.slot ≠ farSlot m) ∧
        ∀ p, p ∈ c.progs → ∃ x, x ∈ (t.hv p.home).wait ∧ x.slot = farSlot m ∧ x.pc = p.pc ∧ x.g = p.g ∧ x.acc = p.acc ∧ x.e = p.e) ∧
    (∀ k hive off data, s.farJob m = none → exec (.ckptLoad m k hive off data) s = .next (takeMsg m 2 3 s)) ∧
    (∀ k hive data j, s.farJob m = some j → j.ckptK = k → j.ckpt = [] → s.progOf j.slot hive = none →
      data.length = s.ckptBytes j.part.val hive → ∃ t p, exec (.ckptLoad m k hive 0 data) s = .next t ∧ p ∈ (t.hv hive).wait ∧
        p.slot = j.slot ∧ p.home = hive ∧ p.pc = BitVec.ofNat 24 (uN data 72 4) ∧ p.layer = BitVec.ofNat 8 (u8 data 80) ∧
        ∀ i : Fin 16, p.g[i] = BitVec.ofNat 32 (uN data (4 * i.val) 4))

/-- R326 to R328, R330: the walk: ENUM drains the swarm, the token gives each station of a chain its value as the address, a station
reached twice returns it at once, every station reports its partners, and the map of the root makes the members. -/
def Obligations.TheWalkMakesTheMap : Prop :=
  ∀ (m : MsgHdr) (s : State),
    ((s.isRoot = false ∨ s.swarm.walk.isSome = true) → exec .enum s = .next s) ∧
    (s.isRoot = true → s.swarm.walk = none → s.boot.straps.stnMode = false → s.boot.straps.stnAddr ≠ 0 → ∃ t, exec .enum s = .next t ∧
      t.swarm = { s.swarm with err := 6, evt := s.swarm.evt ||| 2 } ∧ t.jobs = s.jobs) ∧
    (s.isRoot = true → s.swarm.walk = none → s.boot.straps.stnMode = true → s.swarmBusy = true → ∃ t, exec .enum s = .next t ∧
      t.swarm = { s.swarm with walk := some {}, drain := true, drained := 0, st := .walking } ∧ t.jobs = s.jobs) ∧
    (s.swarm.st ≠ .draining → s.swarm.walk = none → ∃ t, exec (.drain m) s = .next t ∧ t.jobs = s.jobs ∧
      t.swarm = { s.swarm with drain := true, drainOwed := s.swarmBusy }) ∧
    (s.swarmBusy = true → ∃ t, exec (.drained m) s = .next t ∧ t.jobs = s.jobs ∧
      t.swarm = { s.swarm with drained := s.swarm.drained ||| BitVec.ofNat 64 (2 ^ m.src.val) }) ∧
    (∀ w, s.swarmBusy = false → s.swarm.st = .walking → s.swarm.drainOwed = false → s.swarm.walk = some w → w.phase = .draining →
      s.isRoot = true → (∀ a, a ∈ s.peers → a ≠ m.src → s.swarm.drained.getLsbD a.val = true) → (s.ports[(1 : Fin 4)]).st = .active →
      (s.ports[(1 : Fin 4)]).self = false → ∃ t, exec (.drained m) s = .next t ∧ t.swarm.addr = some 0 ∧
        Tx.walk 1 0 (.token 1 false []) ∈ t.tx ∧ t.swarm.walk.map (·.phase) = some .token) ∧
    (∀ v root l, s.swarm.walk.isSome = true → ∃ t, exec (.token m v root l) s = .next t ∧ Tx.walk m.port s.stn (.tokenRet v root l) ∈ t.tx ∧
      t.swarm = s.swarm) ∧
    (∀ v root l, s.swarm.walk = none → s.isRoot = true → ∃ t, exec (.token m v root l) s = .next t ∧
      Tx.walk m.port s.stn (.tokenRet v true l) ∈ t.tx ∧ t.swarm = s.swarm) ∧
    (∀ (v : StnId) root l, s.swarm.walk = none → s.isRoot = false → s.boot.straps.stnMode = true → ∀ q, q = m.port + 1 →
      (s.ports[q]).st = .active → (s.ports[q]).self = false → ∃ t, exec (.token m v.val root l) s = .next t ∧
        t.swarm.addr = some v ∧ t.swarm.st = .walking ∧ Tx.walk q v (.token (v.val + 1) root (l ++ [v.val])) ∈ t.tx) ∧
    (∀ (v : StnId) root l, s.swarm.walk = none → s.isRoot = false → s.boot.straps.stnMode = true →
      (∀ q, q ≠ m.port → (s.ports[q]).st ≠ .active) → ∃ t, exec (.token m v.val root l) s = .next t ∧ t.swarm.addr = some v ∧
        Tx.walk m.port v (.tokenRet v.val root (l ++ [v.val])) ∈ t.tx) ∧
    (∀ v root l w, s.swarm.walk = some w → w.phase = .token → w.left = [] → s.isRoot = false →
      ∃ t, exec (.tokenRet m v root l) s = .next t ∧ Tx.walk w.arrival s.stn (.tokenRet v (w.twoRoot || root) l) ∈ t.tx ∧
        Tx.walk w.arrival s.stn (.links s.myPartners) ∈ t.tx) ∧
    (∀ v root l, s.swarm.walk = none → exec (.tokenRet m v root l) s = .next (takeMsg m 6 2 s)) ∧
    (∀ ps w, s.swarm.walk = some w → s.isRoot = false → ∃ t, exec (.links m ps) s = .next t ∧ t.swarm = s.swarm ∧
      Tx.walk w.arrival m.src (.links ps) ∈ t.tx) ∧
    (∀ ps w, s.swarm.walk = some w → s.isRoot = true → w.phase = .links → w.list = [m.src.val] → w.links = [] →
      (s.swarm.topoOk [(s.stn, s.myPartners), (m.src, ps)] = false → ∃ t, exec (.links m ps) s = .next t ∧ t.swarm.err = 3 ∧
        t.swarm.walk = none ∧ t.swarm.evt.getLsbD 1 = true ∧ t.swarm.members = s.swarm.members) ∧
      (s.swarm.topoOk [(s.stn, s.myPartners), (m.src, ps)] = true → ∃ t, exec (.links m ps) s = .next t ∧ t.swarm.err = 0 ∧
        t.swarm.st = .member ∧ t.swarm.mapGen = s.swarm.mapGen + 1 ∧ t.swarm.walk = none ∧
        ∀ a : StnId, t.swarm.has a.val = true ↔ a = s.stn ∨ a = m.src)) ∧
    (∀ sm, ∃ t, exec (.map m sm) s = .next t ∧ t.swarm = { s.swarm with
        members := sm.members, partners := sm.partners, mapGen := sm.gen, st := .member, walk := none, drain := false, drainOwed := false
        drained := 0, evt := s.swarm.evt ||| 1 } ∧ t.jobs = s.jobs ∧ t.hives = s.hives ∧
      ∀ p : PortId, (t.ports[p]).st = (s.ports[p]).st ∧ ((s.ports[p]).st = .active → (s.ports[p]).partnerV = true → (s.ports[p]).self = false →
        sm.members.getLsbD (s.ports[p]).partner.toNat = true → (t.ports[p]).admitted = true)) ∧
    (s.swarm.walk = none → s.swarm.drain = false → exec .walkTimeout s = .next s) ∧
    (s.isRoot = true → s.swarm.walk.isSome = true → ∃ t, exec .walkTimeout s = .next t ∧ t.swarm.err = 4 ∧ t.swarm.walk = none ∧
      t.swarm.drain = false ∧ t.swarm.evt.getLsbD 1 = true ∧ t.swarm.members = s.swarm.members) ∧
    (s.isRoot = false → s.swarm.walk.isSome = true → ∃ t, exec .walkTimeout s = .next t ∧ t.swarm.walk = none ∧ t.swarm.drain = false ∧
      t.swarm.members = s.swarm.members ∧ t.ports = s.ports) ∧
    (s.swarm.st ≠ .member → exec .leave s = .next s) ∧
    (s.swarm.st = .member → s.swarmBusy = true → exec .leave s = .next { s with swarm := { s.swarm with st := .draining } }) ∧
    (s.swarm.st = .member → s.swarmBusy = false → ∃ t, exec .leave s = .next t ∧ t.swarm.st = .alone ∧ t.swarm.members = 0 ∧
      t.swarm.partners = [] ∧ t.jobs = s.jobs ∧ (s.boot.straps.stnMode = true → t.swarm.addr = none) ∧ ∀ p : PortId, (t.ports[p]).admitted = false)

/-- R345, R347 to R352, R358, R359 (Table 15.1): raw pairs pass the conditioner, XOR or von Neumann, in their order; a window is
measured when every pair has delivered its 4,096 bits, and not before; a pass keeps its blocks and the second one in a row starts
the expander, unless raw-sample mode is on (R364); a failure is counted, and the second in a row halts and zeroizes the expander. -/
def Obligations.HealthTestsGateTheExpander : Prop :=
  (∀ bits stuck, ((winReasons bits stuck).getLsbD 0 = true ↔ 983 < (biasOf bits).natAbs) ∧
    ((winReasons bits stuck).getLsbD 1 = true ↔ 1638 < (corrOf bits 1).natAbs) ∧
    ((winReasons bits stuck).getLsbD 4 = true ↔ 1638 < (corrOf bits 4).natAbs) ∧
    (stuck = true → (winReasons bits stuck).getLsbD 5 = true) ∧ (winReasons bits stuck).getLsbD 6 = false) ∧
  (∀ (vn : Bool) (k m v : Nat), m ≤ 2 ^ k → (List.range (condBits vn k m v).1).map (condBits vn k m v).2.testBit =
    (List.range m).flatMap fun i =>
      let a := v.testBit (2 * i)
      let b := v.testBit (2 * i + 1)
      if vn then (if a = b then [] else [a]) else [a ^^ b]) ∧
  (∀ (s : State) (p : Fin 4) (e : EntropySt) (stuck : Bool), e = s.guard.en → stuck = (e.pairs.toList.any fun x => x.stuck x.n) →
    (e.run = 0 → ∃ t, exec (.htStarved p) s = .next t ∧ t.jobs = s.jobs ∧ t.hives = s.hives ∧
      t.guard.en = { e with
        pairs := e.pairs.map (fun x => x.after x.n), lastFail := true, reasons := if stuck then 96 else 64, run := 1, passes := 0
        win := e.win + 1, evt := e.evt ||| 2 }) ∧
    (e.run = 1 → e.dead = false → s.jobs = [] → (∀ c, (s.co c).r.sp.busy = false) → ∃ t, exec (.htStarved p) s = .next t ∧
      t.guard.en = { e with
        pairs := e.pairs.map (fun x => x.after x.n), lastFail := true, reasons := if stuck then 96 else 64, run := 2, passes := 0
        win := e.win + 1, evt := e.evt ||| 3, drbg := {}, calls := 0, blocks := [], port := [], portReq := true, wire := [], ivs := []
        dead := true, ready := false, throttled := false })) ∧
  ∀ (ns raw : List Nat) (s : State) (e : EntropySt) (bits : List (BitVec 4096)) (stuck : Bool),
    e = { s.guard.en with pairs := s.guard.en.sample (ns.zip raw) } → bits = e.window → stuck = (e.pairs.toList.any fun x => x.stuck 4096) →
    (e.full = false → exec (.htWindowClose ns raw) s = .next { s with guard := { s.guard with en := e } }) ∧
    (e.full = true → winReasons bits stuck = 0 → e.dead = false → (e.startup = false ∨ e.passes = 0 ∨ e.raw = true) →
      exec (.htWindowClose ns raw) s = .next { s with guard := { s.guard with en := { e with
        pairs := e.pairs.map (fun x => x.after 4096), bias := estQ (biasOf bits), corr := Vector.ofFn fun k => estQ (corrOf bits (k.val + 1))
        lastFail := false, reasons := 0, run := 0, win := e.win + 1, passes := e.passes + 1, blocks := winBlocks bits } } }) ∧
    (e.full = true → winReasons bits stuck = 0 → e.dead = false → e.startup = true → 1 ≤ e.passes → e.raw = false →
      ∃ t, exec (.htWindowClose ns raw) s = .next t ∧
      t = { s with guard := { s.guard with en := t.guard.en } } ∧ t.guard.en.ready = true ∧ t.guard.en.startup = false ∧ t.guard.en.calls = 0 ∧
      t.guard.en.drbg = drbgInstantiate ((winBlocks bits).getD 0 []) ((winBlocks bits).getD 1 []) (leBytes 8 Config.dsn.toNat) ∧
      t.guard.en.blocks = (winBlocks bits).drop 2) ∧
    (e.full = true → winReasons bits stuck ≠ 0 → e.run = 0 → ∃ t, exec (.htWindowClose ns raw) s = .next t ∧ t.jobs = s.jobs ∧ t.hives = s.hives ∧
      t.guard.en = { e with
        pairs := e.pairs.map (fun x => x.after 4096), bias := estQ (biasOf bits), corr := Vector.ofFn fun k => estQ (corrOf bits (k.val + 1))
        lastFail := true, reasons := winReasons bits stuck, run := 1, passes := 0, win := e.win + 1, evt := e.evt ||| 2 })

/-- R353 to R357, R364: a generate call serves one consumer and advances the expander; consumers are served in turn, and in
THROTTLED by priority; the software port is filled and read word by word; a reseed takes one block, and at the stretch limit
THROTTLED follows; a request that may not be served waits, and one of the key manager revokes raw-sample mode. R346, R362 to R365:
raw-sample mode is asked for, granted unless a colony is sealed or a key request waits, filled, read and ended, and its end owes a
reseed; a change of the conditioner or of the test pattern discards the window and the blocks. -/
def Obligations.TheExpanderAndRawMode : Prop :=
  (∀ (s : State) (e : EntropySt), e = s.guard.en → e.throttled = false → e.calls.toNat < 2 ^ 16 →
     (∀ k n, (k = .job n) → s.maySend k = true → exec (.generateCall k) s = .next { s with guard := { s.guard with en := { e with
       drbg := (drbgGenerate e.drbg 8).2, calls := e.calls + 1
       wire := e.wire ++ [(k, BitVec.ofNat 64 (leNat (drbgGenerate e.drbg 8).1))], turn := 2 } } }) ∧
     (∀ k c, (k = .sp c) → s.maySend k = true → exec (.generateCall k) s = .next { s with guard := { s.guard with en := { e with
       drbg := (drbgGenerate e.drbg 8).2, calls := e.calls + 1
       wire := e.wire ++ [(k, BitVec.ofNat 64 (leNat (drbgGenerate e.drbg 8).1))], turn := 2 } } }) ∧
     (s.maySend .port = true → exec (.generateCall .port) s = .next { s with guard := { s.guard with en := { e with
       drbg := (drbgGenerate e.drbg 16).2, calls := e.calls + 1, port := bytesToWords (drbgGenerate e.drbg 16).1, portReq := false
       turn := 3 } } }) ∧
     (s.maySend .keyManager = true → exec (.generateCall .keyManager) s = .next { s with guard := { s.guard with
       drawn := some (drbgGenerate e.drbg 32).1, en := { e with drbg := (drbgGenerate e.drbg 32).2, calls := e.calls + 1, turn := 0 } } }) ∧
     (s.maySend .cipher = true → exec (.generateCall .cipher) s = .next { s with guard := { s.guard with en := { e with
       drbg := (drbgGenerate e.drbg 12).2, calls := e.calls + 1, ivs := e.ivs ++ [(drbgGenerate e.drbg 12).1], turn := 1 } } }) ∧
     (∀ b r, e.ready = true → e.dead = false → e.raw = false → (e.needReseed = true ∨ (2 ^ 16 ≤ e.calls.toNat ∧ s.noneWaits = true)) →
       e.blocks = b :: r → exec .drbgReseed s = .next { s with guard := { s.guard with en := { e with
         drbg := drbgReseed e.drbg b, blocks := r, calls := 0, rseed := satInc e.rseed, needReseed := false } } }) ∧
     (e.needReseed = false → exec .drbgReseed s = .next s) ∧
     (∀ who : Req, (who = .pf0 ∨ who = .guard) → s.answers who = true → s.boot.stage ≠ 7 →
       (∀ w r, e.port = w :: r → e.raw = true → exec (.grdRngDataRead who false) s = .next { s with
         guard := { s.guard with en := { e with notReady := true } }, resp := { data := [0] } }) ∧
       (∀ w r, e.port = w :: r → e.raw = false → exec (.grdRngDataRead who false) s = .next { s with
         guard := { s.guard with en := { e with port := r, portReq := e.portReq || r.isEmpty } }, resp := { data := [w] } }) ∧
       (e.port = [] → e.dead = false → exec (.grdRngDataRead who false) s = .next { s with
         guard := { s.guard with en := { e with notReady := true, portReq := true } }, resp := { data := [0] } }) ∧
       (e.port = [] → e.dead = true → exec (.grdRngDataRead who false) s = .next { s with
         guard := { s.guard with en := { e with noData := true } }, resp := { data := [0] } })) ∧
     (∀ c, exec (.grdRngDataRead (.vf c) false) s = .next s)) ∧
  (∀ (s : State) (e : EntropySt), e = s.guard.en →
     (∀ k, s.maySend k = false → e.raw = false → exec (.generateCall k) s = .next s) ∧
     (e.raw = true → e.dead = false → s.keyWaits = true → ∃ t, exec (.generateCall .keyManager) s = .next t ∧ t.jobs = s.jobs ∧
       t.guard = { s.guard with en := { e with
         raw := false, rawReq := false, rawAsk := false, fifo := [], blocks := [], pairs := Vector.replicate 4 {}, needReseed := true
         evt := e.evt ||| 16 } }) ∧
     (e.throttled = false → (∀ i, s.placeWaits i = true) → s.nextPlace = some (e.turn + 1)) ∧
     (e.throttled = true → s.keyWaits = true → s.maySend .cipher = false ∧ s.maySend .port = false ∧ (∀ n, s.maySend (.job n) = false) ∧
       ∀ c, s.maySend (.sp c) = false) ∧
     (∀ b r, e.ready = true → e.dead = false → e.raw = false → e.throttled = false → e.calls.toNat = 2 ^ 20 → e.blocks = b :: r →
       s.keyWaits = true → ∃ t, exec .drbgReseed s = .next t ∧ t.jobs = s.jobs ∧ t.guard = { s.guard with en := { e with
         drbg := drbgReseed e.drbg b, blocks := r, calls := 0, rseed := satInc e.rseed, needReseed := false, throttled := true
         evt := e.evt ||| 4 } })) ∧
  (∀ (s : State) (e : EntropySt), e = s.guard.en →
     (e.rawReq = false → exec .rawReq s = .next { s with guard := { s.guard with en := { e with rawReq := true, rawAsk := true } } }) ∧
     (e.rawReq = true → exec .rawReq s = .next s) ∧
     (e.rawAsk = true → s.guard.seals = 0 → s.keyWaits = false → s.cipherWaits = false →
       exec .rawAnswer s = .next { s with guard := { s.guard with en := { e with raw := true, rawAsk := false, fifoAt := 0 } } }) ∧
     (e.rawAsk = true → s.guard.seals ≠ 0 → ∃ t, exec .rawAnswer s = .next t ∧ t.jobs = s.jobs ∧
       t.guard = { s.guard with en := { e with rawReq := false, rawAsk := false, evt := e.evt ||| 8 } }) ∧
     (e.rawAsk = false → exec .rawAnswer s = .next s) ∧
     (e.raw = true → exec .rawEnd s = .next { s with guard := { s.guard with en := { e with
       raw := false, rawReq := false, rawAsk := false, fifo := [], blocks := [], pairs := Vector.replicate 4 {}
       needReseed := e.needReseed || !e.dead } } }) ∧
     (e.raw = false → exec .rawEnd s = .next { s with guard := { s.guard with en := { e with rawReq := false, rawAsk := false } } }) ∧
     (∀ raw, e.raw = true → e.fifo.length < 1024 → exec (.rawFifoWord raw) s = .next { s with guard := { s.guard with en := { e with
       fifo := e.fifo ++ [e.rawWord raw], fifoAt := e.fifoAt + (if e.sel = 4 then 8 else 32) } } }) ∧
     (∀ raw, e.tp = false → e.sel ≠ 4 → e.rawWord raw = raw.getD e.sel.toNat 0) ∧
     (∀ raw (i : Nat), e.tp = false → e.sel = 4 → i < 32 → (e.rawWord raw).getLsbD i = (raw.getD (i % 4) 0).getLsbD (i / 4)) ∧
     (∀ raw, e.raw = true → 1024 ≤ e.fifo.length → exec (.rawFifoWord raw) s = .next { s with guard := { s.guard with en := { e with
       ovf := true, fifoAt := e.fifoAt + (if e.sel = 4 then 8 else 32) } } }) ∧
     (∀ raw, e.raw = false → exec (.rawFifoWord raw) s = .next s) ∧
     (s.answers .pf0 = true → s.boot.stage ≠ 7 → (∀ w r, e.fifo = w :: r → exec (.grdRawDataRead false) s = .next
         { s with guard := { s.guard with en := { e with fifo := r } }, resp := { data := [w] } }) ∧
       (e.fifo = [] → exec (.grdRawDataRead false) s = .next
         { s with guard := { s.guard with en := { e with empty := true } }, resp := { data := [0] } })) ∧
     (∀ v, s.guard.locked = false → e.cond ≠ v →
       exec (.cond v) s = .next { s with guard := { s.guard with en := { e with
         cond := v, pairs := Vector.replicate 4 {}, blocks := [], needReseed := true } } }) ∧
     (∀ v, (s.guard.locked = true ∨ e.cond = v) → exec (.cond v) s = .next s) ∧
     (∀ v, s.guard.lc = 1 → e.tp ≠ v → exec (.testPatternEn v) s = .next { s with guard := { s.guard with en := { e with
       tp := v, pairs := Vector.replicate 4 {}, fifoAt := 0, blocks := [], startup := true, ready := false, passes := 0, drbg := {}
       calls := 0 } } }) ∧
     (∀ v, (s.guard.lc ≠ 1 ∨ e.tp = v) → exec (.testPatternEn v) s = .next s))

/-- R373, R374, R375, R381 to R383, R385, R388 (Table 16.4): a command that meets a running one answers BUSY; else it claims the
cipher engine, and the channel when it is free, and its acceptance checks give the first refusal that holds. R373 to R375, R378,
R381, R383, R385, R388: a command that ends gives its result and releases what it claimed; an accepted one has its effect: the
lifecycle goes on, the key record of the other sector is in force with the next generation, the root key is burnt, the colony is
sealed or unsealed. -/
def Obligations.GuardCommands : Prop :=
  ((∀ (s : State) (c : ColId), s.guard.busy = true → ∀ x, x ∈ [Instr.seal c, .unseal c, .keyUpdate, .lcOpen, .lcSeal, .drkProg] →
     exec x s = .next { s with guard := { s.guard with result := 1 } }) ∧
   (∀ (s : State) (c : ColId), s.guard.busy = false →
     ∀ x ∈ [(Instr.seal c, (1 : Byte), BitVec.ofNat 6 c.val), (.unseal c, 2, BitVec.ofNat 6 c.val), (.keyUpdate, 3, 0), (.lcOpen, 4, 0), (.lcSeal, 5, 0), (.drkProg, 6, 0)],
     ∃ t, exec x.1 s = .next t ∧ t.guard.busy = true ∧ t.guard.op = x.2.1 ∧ t.guard.col = x.2.2 ∧ t.guard.ch = s.guard.fch ∧
       t.guard.drawn = none ∧ t.guard.ceClaimed = true ∧ t.guard.lc = s.guard.lc ∧ t.guard.seals = s.guard.seals ∧ t.jobs = s.jobs ∧
       (x.2.1 ≠ 3 → t.guard.log = s.guard.log)) ∧
   (∀ (s t : State) (c : ColId), s.guard.busy = false →
     (exec .lcOpen s = .next t → (t.guard.verdict = none ↔ s.guard.keysValid = true ∧ s.guard.lc = 1)) ∧
     (exec .drkProg s = .next t → (t.guard.verdict = none ↔ s.guard.lc = 1 ∧ s.guard.drkBlank = true)) ∧
     (exec .lcSeal s = .next t → (t.guard.verdict = none ↔ s.guard.keysValid = true ∧ s.guard.lc = 2 ∧ s.wax.st = .idle ∧
       ∃ r, s.guard.rec? = some r ∧ r.owner.isSome = true ∧ r.wax ≠ [])) ∧
     (exec (.unseal c) s = .next t → (t.guard.verdict = none ↔ s.guard.keysValid = true ∧ s.guard.lc ≠ 1 ∧ s.isSealed c = true ∧
       ∀ j, j ∈ s.jobs → j.col ≠ c)) ∧
     (exec (.seal c) s = .next t → t.guard.verdict = none → s.guard.keysValid = true ∧ s.guard.lc ≠ 1 ∧ s.isSealed c = false ∧
       (∀ j, j ∈ s.jobs → j.col ≠ c) ∧ (s.model? c.val).isSome = true ∧ s.wax.none_ = false) ∧
     (∀ k : ChanId, k.val = s.guard.fch.toNat → exec .keyUpdate s = .next t →
       ((s.host.forager[k]).cur ≠ none → t.guard.verdict = none ∧ t.guard.blk = [] ∧ t.guard.log = s.guard.log) ∧
       ((s.host.forager[k]).cur = none → t.guard.verdict = none → t.guard.blk = s.keyBlock ∧ s.guard.keysValid = true ∧
         keyBlockOk s.keyBlock = true ∧ (s.guard.lc = 3 → s.keyAuth s.keyBlock = true) ∧ ∀ d, s.guard.drk = some d →
           t.guard.log = s.guard.log ++ [mkLog d false (s.guard.gen + 1)])))) ∧
  ((∀ (s : State) ok, s.guard.busy = false → exec (.guardCommandDone ok) s = .next s) ∧
   (∀ (s : State) v, (s.guard.ceClaimed = true → exec (.ceGate v) s = .next { s with guard := { s.guard with ceGate := v, ceDefer := true } }) ∧
     (s.guard.ceClaimed = false → exec (.ceGate v) s = .next { s with guard := { s.guard with ceGate := v, ceGated := v } })) ∧
   ∀ (s : State) (g : GuardSt) (k : ChanId), g = s.guard → g.busy = true → k.val = g.ch.toNat → (s.host.forager[k]).claimed = true →
     g.en.throttled = false →
     (∀ ok r, g.verdict = some r → ∃ t, exec (.guardCommandDone ok) s = .next t ∧ t.guard.result = r ∧ t.guard.busy = false ∧
       t.guard.ceClaimed = s.waxUsesCe ∧ (s.waxUsesCe = false → t.guard.ceGated = g.ceGate) ∧ (t.host.forager[k]).claimed = false ∧ t.guard.lc = g.lc ∧ t.guard.seals = g.seals ∧
       t.guard.recA = g.recA ∧ t.guard.recB = g.recB ∧ t.guard.drk = g.drk ∧ t.jobs = s.jobs) ∧
     (∀ ok, g.verdict = none → g.op = 4 → ∃ t, exec (.guardCommandDone ok) s = .next t ∧ t.guard.lc = 2 ∧ t.guard.result = 0 ∧
       t.guard.busy = false ∧ t.guard.en.tp = false) ∧
     (∀ ok, g.verdict = none → g.op = 5 → ∃ t, exec (.guardCommandDone ok) s = .next t ∧ t.guard.lc = 3 ∧ t.guard.locked = true ∧
       t.guard.result = 0 ∧ t.guard.busy = false) ∧
     (∀ d, g.verdict = none → g.op = 3 → g.blk ≠ [] → g.key = some d → ∃ t, exec (.guardCommandDone true) s = .next t ∧ t.guard.result = 0 ∧
       t.guard.rec? = some (mkKeyRec d g.blk (g.gen + 1)) ∧ t.guard.gen = g.gen + 1 ∧ t.guard.log = g.log ++ [mkLog d true (g.gen + 1)] ∧ (g.inForce = some false → t.guard.inForce = some true ∧
         t.guard.recA = g.recA) ∧ (g.inForce ≠ some false → t.guard.inForce = some false ∧ t.guard.recB = g.recB)) ∧
     (g.verdict = none → g.op = 3 → g.blk ≠ [] → ∃ t, exec (.guardCommandDone false) s = .next t ∧ t.guard.result = 6 ∧ t.guard.inForce = g.inForce) ∧
     (∀ bits, g.verdict = none → g.op = 6 → g.drawn = some bits → (∃ t, exec (.guardCommandDone true) s = .next t ∧ t.guard.result = 0 ∧
         t.guard.drk = some (BitVec.ofNat 256 (beNat bits)) ∧ t.guard.keysValid = true) ∧
       ∃ t, exec (.guardCommandDone false) s = .next t ∧ t.guard.result = 10 ∧ t.guard.keysValid = false) ∧
     (∀ ok bits (c : ColId), g.verdict = none → g.op = 1 → g.drawn = some bits → g.col.toNat = c.val → ∃ t, exec (.guardCommandDone ok) s = .next t ∧
       t.isSealed c = true ∧ (c.val, bits) ∈ t.guard.sealKeys ∧ t.guard.result = 0 ∧ t.guard.en.raw = false ∧
       (∀ d, d ≠ c → t.isSealed d = s.isSealed d) ∧ ∀ h, h ∈ s.hivesOwned c.val → (s.hv h).gated = false → (t.hv h).claimed = true) ∧
     (∀ ok (c : ColId), g.verdict = none → g.op = 2 → g.col.toNat = c.val → ∃ t, exec (.guardCommandDone ok) s = .next t ∧
       t.isSealed c = false ∧ (∀ e, e ∈ t.guard.sealKeys → e.1 ≠ c.val) ∧ t.guard.sealEvt.getLsbD 3 = true ∧ t.guard.result = 0 ∧
       (∀ d, d ≠ c → t.isSealed d = s.isSealed d) ∧ ∀ h, h ∈ s.hivesOwned c.val → (t.hv h).claimed = false) ∧
     (∀ ok, g.verdict = none → (g.op = 1 ∨ g.op = 6) → g.drawn = none → g.en.dead = true → ∃ t, exec (.guardCommandDone ok) s = .next t ∧
       t.guard.result = 5 ∧ t.guard.genFail = true ∧ t.guard.seals = g.seals ∧ t.guard.drk = g.drk))

/-- R361, R389, R391, R392: a deferral saves the sealed work of a stopped hive, scrubs the hive and releases it; a save set whose
tag verifies runs again with its registers and SCRATCH; a Guard reset ends every sealing and keeps the fuses and the lifecycle. -/
def Obligations.SealedWorkIsSavedResumedOrAborted : Prop :=
  ∀ (h : HiveId) (s : State),
    ((s.hv h).claimed = false → exec (.sealedDeferral h) s = .next s) ∧
    ((s.hv h).claimed = true → (s.hv h).clkDefer = true → (s.hv h).run.isSome = true → StopWhy.seal ∉ (s.hv h).stops →
      exec (.sealedDeferral h) s = .next (updHive h (fun x => { x with stops := x.stops ++ [.seal] }) s)) ∧
    ((s.hv h).claimed = true → (s.hv h).clkDefer = true → (s.hv h).run = none → s.sealedHeld h = [] → s.guard.en.throttled = false →
      ∃ t, exec (.sealedDeferral h) s = .next t ∧ (t.hv h).claimed = false ∧ (t.hv h).cs = [] ∧ (t.hv h).clkDefer = false ∧
        t.guard.sealEvt = s.guard.sealEvt ||| 1 ∧ t.guard.sealCnt = satInc s.guard.sealCnt ∧ t.jobs = s.jobs ∧
        ∀ k, k ≠ h → t.hv k = s.hv k) ∧
    ((s.hv h).claimed = true → (s.hv h).pwrDefer = true → (s.hv h).run = none → s.sealedHeld h ≠ [] → s.guard.en.ivs = [] →
      s.guard.en.raw = false → s.guard.en.ready = false → s.guard.en.dead = false → exec (.sealedDeferral h) s = .next s) ∧
    (∀ p j iv, (s.hv h).claimed = true → (s.hv h).pwrDefer = true → (s.hv h).run = none → (s.hv h).wait = [p] → s.sealedHeld h = [p] →
      s.job? p.slot = some j → s.guard.en.throttled = false → s.guard.en.dead = false →
      (s.guard.en.ivs = [iv] ∨ (s.guard.en.ivs = [] ∧ s.guard.en.serves = true ∧ s.guard.en.tp = false ∧ s.guard.en.turn = 0 ∧
        s.guard.en.calls.toNat < 2 ^ 16 ∧ iv = (drbgGenerate s.guard.en.drbg 12).1)) →
      ∃ t x, exec (.sealedDeferral h) s = .next t ∧ t.guard.saves = s.guard.saves ++ [x] ∧ x.slot = p.slot ∧ x.hive = p.home ∧
        x.prog = { p with paused := none } ∧ x.iv = iv ∧ t.guard.en.ivs = [] ∧
        x.cnt = tabGet 0 s.guard.saveCnt p.slot + 1 ∧ (t.hv h).cs = [] ∧ (t.hv h).claimed = false ∧
        (∃ q, (t.hv h).wait = [q] ∧ q.sealed = true ∧ q.slot = p.slot ∧ q.g = Vector.replicate 16 0 ∧ q.acc = []) ∧
        t.guard.sealCnt = satInc s.guard.sealCnt) ∧
    (∀ slot at_ p x j, s.sealedStub slot = some (at_, p) → s.guard.saves.find? (fun y => y.slot == slot && y.hive == p.home) = some x →
      s.job? slot = some j → s.freeHive h = true → s.mayRun p = true → s.wax.img.owner? h.val = some j.part.val → s.chargeAdmits = true →
      (∀ k : SlotId, k.val = slot → (s.rangesUe j.part.val x.hive = false → x.prog.slot = slot → ∃ t q,
          exec (.sealedResume h k true) s = .next t ∧ (t.hv h).run = some q ∧ q.pc = x.prog.pc ∧ q.g = x.prog.g ∧
          q.acc = x.prog.acc ∧ q.ovs = x.prog.ovs.restored h ∧ (t.hv h).claimed = true ∧ x ∉ t.guard.saves ∧
          t.job? slot = some { j with movedAt := (j.movedAt.filter fun m => m.1 != x.hive) ++ (if x.hive = h then [] else [(x.hive, h)]) }) ∧
        (j.st = .running → j.ending = none → s.jobRuns slot = true → s.others j = [] → ∃ t, exec (.sealedResume h k false) s = .next t ∧
          (t.job? slot).bind (·.ending) = some { code := .sealedAbort, detail := BitVec.ofNat 64 h.val } ∧
          t.guard.sealEvt.getLsbD 2 = true ∧ x ∉ t.guard.saves))) ∧
    (∀ k : SlotId, s.sealedStub k.val = none → ∀ ok, exec (.sealedResume h k ok) s = .next s) ∧
    (∀ ok, s.jobs = [] → s.guard.busy = false → ∃ t, exec (.grst ok) s = .next t ∧ t.guard.seals = 0 ∧ t.guard.sealKeys = [] ∧
      t.guard.saves = [] ∧ t.guard.lc = s.guard.lc ∧ t.guard.drk = s.guard.drk ∧ t.guard.recA = s.guard.recA ∧ t.guard.recB = s.guard.recB ∧
      t.guard.keysValid = (ok && s.guard.drk.isSome) ∧ t.guard.locked = (s.guard.lc == 3) ∧ t.guard.en = {} ∧
      (s.guard.seals ≠ 0 → t.guard.sealEvt.getLsbD 3 = true) ∧ ∀ k, (t.hv k).claimed = false)

/-- R396 to R401, R404, R405, R338: an accepted edge moves the timebase: FREE acquires, two good intervals lock, a locked part trims
and removes the offset by STEP or SLEW, three bad edges in a row start over; TB_SEC advances at the rollover and takes SETSEC; TICK
brings the second of the root. -/
def Obligations.TheTimebaseFollowsItsEdges : Prop :=
  (∀ (s : State) (sub iv : Nat) (e : Int), sub < 1500000000 → e = edgeOffs sub → s.swarm.tsrc = false → s.tb.ppsEn = true → s.boot.stage = 6 →
    s.tb.setsecPend = false →
    (s.tb.st = .free → ∃ t, exec (.ppsEdge sub iv) s = .next t ∧ t = { s with tb := t.tb } ∧ t.tb.st = .acquire ∧ t.tb.acq = 0 ∧ t.tb.sub = 3 ∧
      t.tb.offs = BitVec.ofInt 32 e ∧ t.tb.sec = (if e < 0 then s.tb.sec + 1 else s.tb.sec) ∧ t.tb.ftrim = s.tb.ftrim) ∧
    (s.tb.st = .acquire → 1499550000 ≤ iv → iv ≤ 1500450000 → ∃ t, exec (.ppsEdge sub iv) s = .next t ∧ t.tb.sub = 3 ∧
      t.tb.ftrim = 1500000000 - (iv : Int) ∧ (s.tb.acq = 0 → t.tb.st = .acquire ∧ t.tb.acq = 1) ∧
      (s.tb.acq = 1 → t.tb.st = .locked ∧ t.tb.evt.getLsbD 3 = true)) ∧
    (s.tb.st = .acquire → (iv < 1499250000 ∨ 1500750000 < iv) → ∃ t, exec (.ppsEdge sub iv) s = .next t ∧ t.tb.st = .acquire ∧
      t.tb.acq = 0 ∧ t.tb.ftrim = s.tb.ftrim) ∧
    (s.tb.st = .locked → e.natAbs ≤ 1500 → e % 4 ≠ 2 → (s.tb.ftrim - (e + 2) / 4).natAbs ≤ 450000 → ∃ t, exec (.ppsEdge sub iv) s = .next t ∧
      t.tb.st = .locked ∧ t.tb.ftrim = s.tb.ftrim - (e + 2) / 4 ∧ t.tb.badrun = 0 ∧
      (s.tb.mode = true → t.tb.slew = e ∧ t.tb.sub = s.tb.sub ∧ t.tb.sec = s.tb.sec) ∧ (s.tb.mode = false → t.tb.slew = 0 ∧ t.tb.sub = 3)) ∧
    (s.tb.st = .holdover → e.natAbs ≤ 1500 → ∃ t, exec (.ppsEdge sub iv) s = .next t ∧ t.tb.st = .locked ∧ t.tb.evt.getLsbD 3 = true) ∧
    (s.tb.st = .locked ∨ s.tb.st = .holdover → 1500 < e.natAbs → s.tb.badrun.toNat < 2 → ∃ t, exec (.ppsEdge sub iv) s = .next t ∧
      t.tb.st = s.tb.st ∧ t.tb.badrun = s.tb.badrun + 1 ∧ t.tb.evt = s.tb.evt ||| 1 ∧ t.tb.sub = s.tb.sub ∧ t.tb.ftrim = s.tb.ftrim) ∧
    (s.tb.st = .locked ∨ s.tb.st = .holdover → 1500 < e.natAbs → s.tb.badrun = 2 → ∃ t, exec (.ppsEdge sub iv) s = .next t ∧
      t.tb.st = .acquire ∧ t.tb.acq = 0 ∧ t.tb.badrun = 0 ∧ t.tb.sub = 3 ∧ t.tb.evt = s.tb.evt ||| 3)) ∧
  (∀ (s : State) (sub iv : Nat), (s.swarm.tsrc = true ∨ s.tb.ppsEn = false ∨ s.boot.stage ≠ 6) → exec (.ppsEdge sub iv) s = .next s) ∧
  (∀ s : State, (s.tb.st = .locked → ∃ t, exec .holdoverTimeout s = .next t ∧ t.tb = { s.tb with st := .holdover, evt := s.tb.evt ||| 4 } ∧
      t.jobs = s.jobs ∧ t.hives = s.hives) ∧ (s.tb.st ≠ .locked → exec .holdoverTimeout s = .next s)) ∧
  (∀ s : State, (s.swarm.tsrc = false → exec .setsec s = .next { s with tb := { s.tb with setsecPend := true } }) ∧
    (s.swarm.tsrc = true → exec .setsec s = .next s) ∧
    exec .ppsOutEnd s = .next { s with tb := { s.tb with ppsOut := false } } ∧
    exec .tbSlewDone s = .next { s with tb := { s.tb with slew := 0 } }) ∧
  (∀ s : State, (s.isRoot = false ∨ s.swarm.members = 0 ∨ s.swarm.st = .detached) → ∃ t, exec .tbSecondRollover s = .next t ∧ t.tb.sub = 0 ∧
    (s.tb.setsecPend = false → t.tb.sec = s.tb.sec + 1) ∧
    (s.tb.setsecPend = true → s.swarm.tsrc = false → t.tb.sec = s.tb.setsec ∧ t.tb.setsecPend = false ∧ t.tb.evt.getLsbD 4 = true) ∧
    (s.tb.poutEn = true → s.tb.st ≠ .free → t.tb.ppsOut = true) ∧ t.jobs = s.jobs ∧ t.hives = s.hives) ∧
  (∀ (s : State) (a : StnId) n r, s.isRoot = true → s.swarm.members ≠ 0 → s.swarm.st ≠ .detached → a ∈ s.tickNext →
    s.swarm.route s.stn.val a.val = some (n :: r) → (s.swarm.portTo s.stn.val n).isSome = true →
    ∃ t, exec .tbSecondRollover s = .next t ∧ Tx.swarm a s.stn 0 (.tick t.tb.sec 0) ∈ t.tx) ∧
  (∀ (m : MsgHdr) (sec : Word) (d sub iv : Nat) (s : State) (e : Int), e = edgeOffs (subLess sub (d + hopTime s.ports[m.port])) →
    (s.swarm.tsrc = false → ∃ t, exec (.tick m sec d sub iv) s = .next t ∧ t.tb = s.tb ∧ t.jobs = s.jobs) ∧
    (s.swarm.tsrc = true → s.isRoot = false → s.boot.stage = 6 → s.tb.st = .locked → s.tb.mode = true →
      e.natAbs ≤ 1500 → ∃ t, exec (.tick m sec d sub iv) s = .next t ∧ t.tb.sec = sec ∧ t.tb.st = .locked ∧
        t.tb.slew = e ∧ t.jobs = s.jobs))

/-- R409, R410, R415, R420, R421, R423 to R428: the inputs move the load: VIN_A lost goes to VIN_B or to RIDE, a switchover sheds to
the smallest stage that the budget carries or stops in order, stage 6 holds, and VIN_A back brings MAIN again. -/
def Obligations.PowerFollowsItsInputs : Prop :=
  ∀ s : State,
    (s.pwr.srcB = false → s.pwr.st = .main → s.pwr.bGood = true → ∃ t, exec .vinAFail s = .next t ∧
      t.pwr = { s.pwr with aGood := false, resume := false, closing := true } ∧ t.jobs = s.jobs ∧ t.hives = s.hives) ∧
    (s.pwr.srcB = false → s.pwr.st = .main → s.pwr.bGood = false → ∃ t, exec .vinAFail s = .next t ∧ t.pwr.st = .ride ∧
      t.pwr.stage = 6 ∧ t.pwr.evt = s.pwr.evt ||| 8 ∧ t.pwr.aGood = false) ∧
    (s.pwr.st = .standby → ∃ t, exec .vinAFail s = .next t ∧ t.pwr = { s.pwr with aGood := false, resume := false } ∧ t.jobs = s.jobs) ∧
    (s.pwr.closing = false → s.pwr.srcB = false → ∃ t, exec .vinBFail s = .next t ∧ t.jobs = s.jobs ∧ t.hives = s.hives ∧
      t.pwr = { s.pwr with bGood := false, evt := s.pwr.evt ||| 4 }) ∧
    (s.pwr.closing = false → s.pwr.srcB = true → s.pwr.st = .backup → s.pwr.aGood = true → ∃ t, exec .vinBFail s = .next t ∧
      t.pwr = { s.pwr with bGood := false, srcB := false, evt := s.pwr.evt ||| 4 } ∧ t.jobs = s.jobs) ∧
    (s.pwr.closing = true → ∃ t, exec .vinBFail s = .next t ∧ t.pwr.st = .ride ∧ t.pwr.stage = 6 ∧ t.pwr.closing = false ∧
      t.pwr.evt = s.pwr.evt ||| 12) ∧
    ((s.pwr.closing = false ∨ s.pwr.bGood = false) → exec .switchover s = .next s) ∧
    (s.pwr.closing = true → s.pwr.bGood = true → 120 ≤ s.budget → ∃ t, exec .switchover s = .next t ∧ t.pwr.st = .backup ∧ t.pwr.srcB = true ∧
      t.pwr.closing = false ∧ t.pwr.switches = satInc s.pwr.switches ∧ t.pwr.stage = s.pickStage ∧ t.pwr.evt = s.pwr.evt ||| 1 ∧
      t.jobs = s.jobs ∧ (s.pwr.stage = 0 → s.pickStage ≠ 0 → ∀ b : BankId, (t.phx.bank[b]).st = .shed)) ∧
    (s.pwr.closing = true → s.pwr.bGood = true → s.budget < 120 → s.jobs = [] → ∃ t, exec .switchover s = .next t ∧ t.pwr.st = .standby ∧
      t.pwr.stops = satInc s.pwr.stops ∧ t.pwr.evt.getLsbD 4 = true ∧ t.sup.mem = [] ∧ t.host.link.up = false ∧
      ∀ p : PortId, (t.ports[p]).st = .down) ∧
    ((s.pwr.stage ≠ 6 ∨ s.pwr.held = true) → exec .holdEnter s = .next s) ∧
    (s.pwr.stage = 6 → s.pwr.held = false → (∀ h p, (s.hv h).run = some p → s.classShed p.cls = false) → s.cutSealed = [] →
      exec .holdEnter s = .next { s with pwr := { s.pwr with held := true }, sup := { s.sup with selfRefresh := true } }) ∧
    ((s.pwr.st = .backup ∨ s.pwr.st = .ride) → s.pwr.aGood = true → s.pwr.resume = true → ∃ t, exec .returnToMain s = .next t ∧
      t.pwr.st = .main ∧ t.pwr.stage = 0 ∧ t.pwr.srcB = false ∧ t.pwr.resume = false ∧ t.pwr.held = false ∧
      t.pwr.evt = s.pwr.evt ||| 2 ∧ t.jobs = s.jobs) ∧
    ((s.pwr.aGood = false ∨ s.pwr.resume = false) → exec .returnToMain s = .next s ∧ exec .standbyReturn s = .next s) ∧
    (s.pwr.st = .standby → s.pwr.aGood = true → s.pwr.resume = true → ∃ t, exec .standbyReturn s = .next t ∧ WasReset false 0xB s t ∧
      t.pwr.st = .main) ∧
    (s.boot.dark = false → s.pwr.st = .main → exec (.vinGood .a) s = .next { s with pwr := { s.pwr with aGood := true } }) ∧
    (s.boot.dark = false → s.pwr.st = .standby → ∃ t, exec (.vinGood .a) s = .next t ∧
      t.pwr = { s.pwr with aGood := true, resume := true } ∧ t.jobs = s.jobs) ∧
    (s.boot.dark = false → s.pwr.st = .ride → s.pwr.aGood = false → ∃ t, exec (.vinGood .b) s = .next t ∧
      t.pwr = { s.pwr with bGood := true, st := .backup, srcB := true } ∧ t.jobs = s.jobs) ∧
    (s.boot.dark = true → s.boot.cause ≠ 4 → ∃ t, exec (.vinGood .a) s = .next t ∧ WasReset true 1 s t ∧ t.boot.dark = false ∧ t.pwr.st = .main) ∧
    (∀ v : Word, 0x5F < v.toNat % 128 → exec (.budgetWrite v) s = .next s) ∧
    (∀ v : Word, v.toNat % 128 ≤ 0x5F → s.pwr.st ≠ .backup →
      exec (.budgetWrite v) s = .next { s with pwr := { s.pwr with bkup := BitVec.ofNat 7 (v.toNat % 128) } }) ∧
    (∀ (v : Word) u, v.toNat % 128 ≤ 0x5F → s.pwr.st = .backup → u = { s with pwr := { s.pwr with bkup := BitVec.ofNat 7 (v.toNat % 128) } } →
      120 ≤ u.budget → (u.pickStage = s.pwr.stage → exec (.budgetWrite v) s = .next u) ∧
      (u.pickStage ≠ s.pwr.stage → ∃ t, exec (.budgetWrite v) s = .next t ∧ t.pwr.stage = u.pickStage ∧ t.pwr.evt = s.pwr.evt ||| 32 ∧
        t.pwr.bkup = u.pwr.bkup ∧ t.jobs = s.jobs)) ∧
    ((s.pwr.st = .ride ∨ s.pwr.st = .standby) → ∃ t, exec .powerLoss s = .next t ∧ t.boot.dark = true ∧ t.pwr.aGood = false ∧ t.pwr.bGood = false ∧
      t.jobs = [] ∧ t.sup.mem = [] ∧ t.guard.lc = s.guard.lc ∧ t.wax.secX = s.wax.secX ∧ t.wax.secY = s.wax.secY ∧
      t.rpr.m0 = s.rpr.m0 ∧ t.rpr.m1 = s.rpr.m1 ∧ (s.guard.busy = false → t.guard.drk = s.guard.drk)) ∧
    (s.pwr.st = .main → exec .powerLoss s = .next s)

/-- R394, R455 to R458, R463 to R466: every source of a reset gives its cause, and Table 20.2 says what the reset keeps; a thermal
trip cuts the rails and waits for its release. -/
def Obligations.ResetsKeepWhatTheirTableKeeps : Prop :=
  ∀ s : State,
    (s.noBoot = false →
      (∃ t, exec .resetN s = .next t ∧ WasReset true 2 s t ∧ t.boot.resetLow = true) ∧
      (∃ t, exec .pllLockLoss s = .next t ∧ WasReset true 3 s t) ∧
      (∃ t, exec .perstN s = .next t ∧ WasReset false 8 s t ∧ t.boot.perstLow = true) ∧
      (s.host.link.up = true ∨ s.host.link.lost = true → ∃ t, exec .linkHotReset s = .next t ∧ WasReset false 9 s t) ∧
      (s.boot.stage = 6 ∨ s.boot.stage = 7 → (∃ t, exec .warm s = .next t ∧ WasReset false 0xA s t) ∧
        ∃ t, exec .cold s = .next t ∧ WasReset true 5 s t) ∧
      (s.boot.stage = 6 → ∃ t, exec .queenFault s = .next t ∧ t.boot.cause = 0xC ∧ t.boot.stage = 1 ∧ t.jobs = [] ∧ t.models = [] ∧
        t.hives = Vector.replicate 96 {} ∧ (s.jobs = [] → WasReset false 0xC s t)) ∧
      (∃ t, exec .thermalTrip s = .next t ∧ t.boot = { s.boot with thermtrip := true, tripPend := true } ∧ t.jobs = [] ∧ t.models = [] ∧
        t.hives = Vector.replicate 96 {} ∧ t.sup.mem = [] ∧ t.host.link.up = false ∧ t.guard = s.guard ∧ t.alarmN = true ∧
        ∀ p : PortId, (t.ports[p]).tx = .dark)) ∧
    (s.host.link.up = false → s.host.link.lost = false → exec .linkHotReset s = .next s) ∧
    (s.boot.stage ≠ 6 → s.boot.stage ≠ 7 → exec .warm s = .next s ∧ exec .cold s = .next s) ∧
    (s.boot.stage = 7 → s.boot.rcode ≠ 2 → (∃ t, exec (.rcvGo true) s = .next t ∧ WasReset true 5 s t) ∧
      exec (.rcvGo false) s = .next { s with boot := { s.boot with rcode := 3 } }) ∧
    (∀ ok, s.boot.stage ≠ 7 → exec (.rcvGo ok) s = .next s) ∧
    (∀ tj : BitVec 16, tj.toInt < 25600 → ∃ t, exec (.thermtripNDeassert tj) s = .next t ∧ t.boot = { s.boot with thermtrip := false } ∧
      t.jobs = s.jobs) ∧
    (∀ tj : BitVec 16, 25600 ≤ tj.toInt → exec (.thermtripNDeassert tj) s = .next s) ∧
    (s.boot.dark = false → s.boot.tripPend = true → s.boot.thermtrip = false → ∃ t, exec .thermtripRelease s = .next t ∧ WasReset true 4 s t ∧
      t.boot.resetLow = false) ∧
    (s.boot.dark = true → exec .thermtripRelease s = .next s)

/-- R370, R377, R394, R459, R460, R462, R463, R496: the stages of a boot in their order, from PLL to READY or to RECOVERY. -/
def Obligations.BootGoesThroughItsStages : Prop :=
  ∀ (i : BootInfo) (s : State), s.noBoot = false →
    (∀ x, s.boot.stage = 0 → exec (.pllLock x) s =
      .next { s with boot := { s.boot with stage := 1, straps := if s.boot.cold then x else s.boot.straps } }) ∧
    (∀ x, s.boot.stage ≠ 0 → exec (.pllLock x) s = .next s) ∧
    (s.boot.stage = 0 ∨ s.boot.stage = 6 ∨ s.boot.stage = 7 → exec (.bootStageDone i) s = .next s) ∧
    (s.boot.stage = 1 → ∃ t, exec (.bootStageDone i) s = .next t ∧ t.boot.stage = 2 ∧ t.boot.resetLow = false ∧ t.guard = { s.guard with
      keysValid := i.drkOk && s.guard.drk.isSome, locked := s.guard.lc == 3 } ∧ t.boot.newSrc = 0 ∧
      t.boot.newFlags = (if s.guard.drkBlank || (i.drkOk && s.guard.drk.isSome) then 0 else 4)) ∧
    (s.boot.stage = 2 → i.fwA = true → ∃ t, exec (.bootStageDone i) s = .next t ∧ t.boot.stage = 3 ∧ t.boot.newSrc = s.boot.newSrc) ∧
    (s.boot.stage = 2 → i.fwA = false → i.fwB = true → ∃ t, exec (.bootStageDone i) s = .next t ∧ t.boot.stage = 3 ∧ t.boot.newSrc = 1 ∧
      t.boot.newFlags.getLsbD 0 = true) ∧
    (s.boot.stage = 2 → i.fwA = false → i.fwB = false → ∃ t, exec (.bootStageDone i) s = .next t ∧ t.boot.stage = 7 ∧ t.boot.rcode = 1 ∧
      t.boot.fwSrc = 3) ∧
    (s.boot.stage = 3 → ∃ t, exec (.bootStageDone i) s = .next t ∧ t.boot.stage = 4 ∧ t.guard.inForce = s.guard.pick ∧
      t.boot.pcie = !s.boot.perstLow) ∧
    (s.boot.stage = 4 → (i.sup0 = false ∨ i.sup1 = false) → ∃ t, exec (.bootStageDone i) s = .next t ∧ t.boot.stage = 7 ∧ t.boot.rcode = 2) ∧
    (s.boot.stage = 4 → i.sup0 = true → i.sup1 = true → ∃ t, exec (.bootStageDone i) s = .next t ∧ t.boot.stage = 5 ∧ t.sup.s0Up = true ∧
      t.sup.s1Up = true) ∧
    (s.boot.stage = 5 → s.boot.perstLow = true → exec (.bootStageDone i) s = .next s) ∧
    (s.boot.stage = 5 → s.boot.perstLow = false → (∀ b, b ∈ banksOf s.wax.img → (s.phx.bank[b]).st ≠ .cal ∧ (s.phx.bank[b]).st ≠ .acquiring) →
      ∃ t, exec (.bootStageDone i) s = .next t ∧ t.isReady = true ∧ t.boot.rcode = 0 ∧ t.boot.fwSrc = s.boot.newSrc ∧ t.boot.us = i.us ∧
        t.boot.pcie = true ∧ t.jobs = s.jobs ∧ t.wax = s.wax ∧ (∀ p : PortId, (s.ports[p]).en = true → (t.ports[p]).st = .safe) ∧
        t.swarm.addr = (if s.boot.straps.stnMode then none else some ⟨s.boot.straps.stnAddr.toNat, s.boot.straps.stnAddr.isLt⟩)) ∧
    (s.boot.stage = 6 → s.boot.fwSrc = 1 → s.boot.flags.getLsbD 0 = true →
      exec .fwRewriteDone s = .next { s with boot := { s.boot with flags := s.boot.flags ||| 2 } }) ∧
    (s.boot.fwSrc ≠ 1 → exec .fwRewriteDone s = .next s) ∧
    (exec .perstNRelease s = .next { s with boot := { s.boot with
      perstLow := false, pcie := s.boot.pcie || decide (4 ≤ s.boot.stage.toNat) } })

/-- R476, R478 to R480, R484 to R486, R488 to R491: SNAP copies every counter and the time, OBS_CSEL shows the counter that it
names, a MARK and the buffered records enter the ring in their order, and the ring and the sampler are set up only when their range
is good. R508 to R510 (Table 23.11): while the clock runs, each read of the SMBus map returns its word, low byte first, and leaves
the part as it was but for the figure that it reports; STATUS and an alert response won clear the alert; a write or another code is
not acknowledged. R504, R505: the TAP instructions; those that take the pins act so only while RESET_N is low, else as BYPASS;
Test-Logic-Reset selects IDCODE and gives the pins back. -/
def Obligations.ObservationAndManagement : Prop :=
  (∀ (s : State) (v : Word),
     exec .snap s = .next { s with obs := { s.obs with
       snap := s.obs.live, snapSub := BitVec.ofNat 32 s.tb.sub, snapSec := s.tb.sec } } ∧
     (∃ t, exec (.obsCselWrite v) s = .next t ∧ t = { s with obs := { s.obs with csel := v &&& 0x1F37F, cval := t.obs.cval } } ∧
       (v.toNat / 65536 % 2 = 0 → v.toNat / 256 % 4 = 0 → v.toNat % 128 < 96 →
         t.obs.cval = tabGet 0 s.obs.live.hive (v.toNat % 128 * 16 + v.toNat / 4096 % 16)) ∧
       (v.toNat / 65536 % 2 = 1 → v.toNat / 256 % 4 = 1 → v.toNat % 128 < 64 →
         t.obs.cval = tabGet 0 s.obs.snap.col (v.toNat % 128 * 16 + v.toNat / 4096 % 16)) ∧
       (v.toNat / 65536 % 2 = 0 → v.toNat / 256 % 4 = 2 → v.toNat % 128 < 8 →
         t.obs.cval = tabGet 0 s.obs.live.bank (v.toNat % 128 * 16 + v.toNat / 4096 % 16)) ∧ (v.toNat / 256 % 4 = 3 → t.obs.cval = 0)) ∧
     (s.glassOn 7 = false → exec (.glassMark v) s = .next s) ∧
     (s.glassOn 7 = true → s.obs.buf.length < 512 → exec (.glassMark v) s = .next { s with obs := { s.obs with buf := s.obs.buf ++
       [glassBytes s 7 none none 0 0 ([0, 0, 0, 0] ++ leBytes 4 v.toNat)] } }) ∧
     (v.getLsbD 0 = true → s.obs.en = false → s.obs.ringBase < 0x4000000 → exec (.glassEnable v) s = .next (obsEvent 4 s)) ∧
     (v.getLsbD 0 = true → s.obs.en = false → 0x4000000 ≤ s.obs.ringBase → s.obs.ringBase + 4096 * s.obs.size.toNat ≤ 0x800000000 →
       s.ringHits s.obs.ringBase (4096 * s.obs.size.toNat) = false → exec (.glassEnable v) s = .next { s with obs := { s.obs with
         en := true, mode := v.getLsbD 1, kindEn := BitVec.ofNat 7 (v.toNat / 256 % 128), wr := 0, rd := 0 } }) ∧
     (v.getLsbD 0 = false → exec (.glassEnable v) s = .next { s with obs := { s.obs with
       en := false, mode := v.getLsbD 1, kindEn := BitVec.ofNat 7 (v.toNat / 256 % 128) } }) ∧
     (s.obs.buf = [] → exec .glassRecordWrite s = .next s) ∧
     (∀ r rest, s.obs.buf = r :: rest → s.obs.size ≠ 0 → s.obs.mode = true → r.length = 32 → Memory.wf s.sup.mem = true →
       ∃ t, exec .glassRecordWrite s = .next t ∧ t.obs.buf = rest ∧ t.obs.wr = (s.obs.wr + 1) % (128 * s.obs.size.toNat) ∧ t.obs.loss = false ∧
         memReadN t.sup.mem (s.obs.ringBase + 32 * (s.obs.wr % (128 * s.obs.size.toNat))) 32 =
           (if s.obs.loss then r.set 7 (r.getD 7 0 ||| 0x80) else r) ∧ t.hives = s.hives ∧ t.jobs = s.jobs) ∧
     (∀ r rest, s.obs.buf = r :: rest → s.obs.size ≠ 0 → s.obs.mode = false →
       (s.obs.wr + 1) % (128 * s.obs.size.toNat) = s.obs.rd % (128 * s.obs.size.toNat) → ∃ t, exec .glassRecordWrite s = .next t ∧
         t.obs.buf = rest ∧ t.obs.wr = s.obs.wr ∧ t.obs.loss = true ∧ t.obs.drop = satInc s.obs.drop ∧ t.obs.evt = s.obs.evt ||| 2 ∧
         t.sup = s.sup) ∧
     (v.getLsbD 28 = true → s.obs.smpArm = true → exec (.arm v) s = .next s) ∧
     (v.getLsbD 28 = true → s.obs.smpArm = false → s.obs.smpBase < 0x4000000 → exec (.arm v) s = .next (obsEvent 4 s)) ∧
     (v.getLsbD 28 = true → s.obs.smpArm = false → 0x4000000 ≤ s.obs.smpBase → s.obs.smpBase + 2048 ≤ 0x800000000 →
       exec (.arm v) s = .next { s with obs := { s.obs with
         smpHive := BitVec.ofNat 7 v.toNat, smpComb := BitVec.ofNat 3 (v.toNat / 128), smpCell := BitVec.ofNat 6 (v.toNat / 1024)
         smpCount := BitVec.ofNat 4 (v.toNat / 65536), smpStride := BitVec.ofNat 8 (v.toNat / 1048576), smpArm := true
         smpTaken := 0, smpSkip := 0 } }) ∧
     (∀ bits, (obsEvent bits s).obs.evt = s.obs.evt ||| bits ∧ (obsEvent bits s).jobs = s.jobs ∧ (obsEvent bits s).hives = s.hives)) ∧
  (∀ (s : State) (v : BitVec 16) (m : BitVec 12) (r : Fin 16),
     (s.pllOn = true →
       exec .smbStatus s = .next { s with bmc := { s.bmc with
         alert := false, out := some (leBytes 2 (s.status.toNat + 128 * b2n s.isReady)) } } ∧
       (∃ t, exec (.tempCmp v) s = .next t ∧ t.bmc.out = some (leBytes 2 v.toNat) ∧ t.boot.tj = v ∧ t.boot.peak =
         (if s.boot.peak.toInt < v.toInt then v else s.boot.peak) ∧ t.jobs = s.jobs) ∧
       exec (.tempPhx v) s = .next { s with phx := { s.phx with temp := v }, bmc := { s.bmc with out := some (leBytes 2 v.toNat) } } ∧
       exec (.smbVinAMv v) s = .next { s with pwr := { s.pwr with mvA := v }, bmc := { s.bmc with out := some (leBytes 2 v.toNat) } } ∧
       exec (.smbVinAMa v) s = .next { s with pwr := { s.pwr with maA := v }, bmc := { s.bmc with out := some (leBytes 2 v.toNat) } } ∧
       exec (.smbVinBMv v) s = .next { s with pwr := { s.pwr with mvB := v }, bmc := { s.bmc with out := some (leBytes 2 v.toNat) } } ∧
       exec (.smbVinBMa v) s = .next { s with pwr := { s.pwr with maB := v }, bmc := { s.bmc with out := some (leBytes 2 v.toNat) } } ∧
       exec (.smbMeas m) s = .next { s with pwr := { s.pwr with meas := m }, bmc := { s.bmc with out := some (leBytes 2 m.toNat) } } ∧
       exec .smbCharge s = .next { s with bmc := { s.bmc with out := some (leBytes 2 s.charge) } } ∧
       exec .smbBoot s = .next { s with bmc := { s.bmc with out := some (leBytes 2
         (s.boot.stage.toNat + 16 * s.boot.fwSrc.toNat + 256 * s.boot.rcode.toNat + 4096 * s.boot.cause.toNat)) } } ∧
       (∃ t, exec (.smbRailMv r v) s = .next t ∧ t.bmc.out = some (leBytes 2 (if s.railOn r.val then v.toNat else 0)) ∧
         (∀ k, k ≠ r → t.pwr.rail[k] = s.pwr.rail[k]) ∧ t.jobs = s.jobs) ∧
       (∃ t, exec (.smbRailP r v) s = .next t ∧ t.bmc.out = some (leBytes 2 v.toNat) ∧ (t.pwr.rail[r]).2 = v ∧
         (∀ k, k ≠ r → t.pwr.rail[k] = s.pwr.rail[k]) ∧ t.jobs = s.jobs) ∧
       exec .smbIdent s = .next { s with bmc := { s.bmc with out := some ([0x31, 0x00, 0x96, 0x4B] ++ leBytes 8 Config.dsn.toNat) } } ∧
       (s.bmc.alert = true → exec (.alertResponse true) s = .next { s with bmc := { s.bmc with
         alert := false, out := some [0x58 + s.boot.straps.smbAddr.setWidth 8] } })) ∧
     (s.pllOn = false → ∀ c, c ∈ [Instr.smbStatus, .smbCharge, .smbBoot, .smbIdent, .alertResponse true] →
       exec c s = .next { s with bmc := { s.bmc with out := none } }) ∧
     (exec (.alertResponse false) s = .next { s with bmc := { s.bmc with out := none } }) ∧
     (s.bmc.alert = false → exec (.alertResponse true) s = .next { s with bmc := { s.bmc with out := none } }) ∧
     (exec .smbClockLowTimeout s = .next { s with bmc := { s.bmc with out := none } }) ∧
     (∀ code, exec (.smbOtherCommand code true) s = .next { s with bmc := { s.bmc with out := none } }) ∧
     (∀ code, smbCode code = false → exec (.smbOtherCommand code false) s = .next { s with bmc := { s.bmc with out := none } })) ∧
  (∀ (s : State) (pins : List Bool), s.pllOn = true →
     exec .bypass s = .next { s with bmc := { s.bmc with tap := .bypass, drive := .function, out := none } } ∧
     exec .idcode s = .next { s with bmc := { s.bmc with tap := .idcode, drive := .function, out := some [0x4D, 0x68, 0xB9, 0x14] } } ∧
     (∃ t, exec (.samplePreload pins none) s = .next t ∧ t = { s with bmc := t.bmc } ∧ t.bmc.tap = .samplePreload ∧ t.bmc.boundary = pins ∧
       t.bmc.drive = .function) ∧
     (∀ bits, ∃ t, exec (.samplePreload pins (some bits)) s = .next t ∧ t.bmc.boundary = bits ∧ t.bmc.tap = .samplePreload) ∧
     (s.boot.resetLow = true →
       exec .extest s = .next { s with bmc := { s.bmc with tap := .extest, drive := .boundary, out := none } } ∧
       exec .clamp s = .next { s with bmc := { s.bmc with tap := .clamp, drive := .held, out := none } } ∧
       exec .highz s = .next { s with bmc := { s.bmc with tap := .highz, drive := .floating, out := none } }) ∧
     (s.boot.resetLow = false → ∀ c, c ∈ [Instr.extest, .clamp, .highz] → exec c s = exec .bypass s) ∧
     exec .tapReset s = .next { s with bmc := { s.bmc with tap := .idcode, drive := .function } })

/-- Every command has an effect in every state of the part (log entry 2): exec answers a next state, and so does every step. -/
def Obligations.EveryCommandAnswersANextState : Prop :=
  (∀ (c : Instr) (s : State), ∃ t, exec c s = .next t) ∧ (∀ s : State, s.safe)

/-- Model, log entry 1, and R432: whatever a command does, it leaves the queue of commands and the factory map as they were. -/
def Obligations.CommandsKeepTheQueueAndTheFactoryMap : Prop :=
  ∀ (c : Instr) (s t : State), exec c s = .next t → t.pending = s.pending ∧ t.rpr.factory = s.rpr.factory

/-- Model, log entry 3: from every state whose memories and tables are in canonical form, a step leads to one. -/
def Obligations.StepsKeepMemoriesCanonical : Prop :=
  ∀ s t : State, s.canonical → step s = .next t → t.canonical

/-- R374, R375 (spec/16): the lifecycle never goes back, and a step moves it only at the end of a Guard command. -/
def Obligations.TheLifecycleOnlyGoesForward : Prop :=
  (∀ s t : State, s.lifecycleOk → step s = .next t → t.lifecycleOk ∧ s.guard.lc.toNat ≤ t.guard.lc.toNat) ∧
  ∀ (c : Instr) (s t : State), exec c s = .next t → t.guard.lc ≠ s.guard.lc → ∃ ok, c = .guardCommandDone ok

/-- R17, R458, R459 and the reset columns of the register tables: what the part holds after its first cold reset. -/
def Obligations.ResetLeavesTheStatedValues : Prop :=
  State.reset.pending = [] ∧ State.reset.boot.stage = 0 ∧ State.reset.boot.cause = 1 ∧ State.reset.guard.lc = 2 ∧
  State.reset.guard.seals = 0 ∧ State.reset.guard.busy = false ∧ State.reset.jobs = [] ∧ State.reset.models = [] ∧
  State.reset.wax.st = .idle ∧ State.reset.wax.slotA = Config.factoryImage ∧ State.reset.tb.st = .free ∧ State.reset.tb.sec = 0 ∧
  State.reset.tmo = 0x3E8 ∧ State.reset.rpr.period = 0x3E8 ∧ State.reset.guard.fch = 0xF ∧ State.reset.obs.en = false ∧
  regRead State.reset (.cap .id) = 0x4B960031 ∧ (∀ h, (State.reset.hv h).run = none ∧ (State.reset.hv h).cs = []) ∧
  (∀ p : PortId, (State.reset.ports[p]).st = .down ∧ (State.reset.ports[p]).tx = .dark) ∧
  (∀ b : BankId, (State.reset.phx.bank[b]).st = .off) ∧ (∀ c, (State.reset.co c).r.cqEn = false) ∧
  State.reset.canonical ∧ State.reset.lifecycleOk

end
end

