-- ==== Sys2Proof/Laws/State.lean ====
section
/-! SUPPORT. Laws/State.lean: what each update of the state leaves alone, field by field, and how one element of an array
is read after an update. -/

namespace Sys2Proof.Machine

@[simp] theorem updAt_same {α : Type} {n : Nat} (v : Vector α n) (i : Fin n) (f : α → α) : (updAt v i f)[i] = f v[i] := by
  simp [updAt]

theorem updAt_other {α : Type} {n : Nat} (v : Vector α n) (i k : Fin n) (f : α → α) (h : k ≠ i) : (updAt v i f)[k] = v[k] := by
  have : i.val ≠ k.val := fun e => h (Fin.ext e.symm)
  simp [updAt, this]

@[simp] theorem updHive_hv (h : HiveId) (f : Hive → Hive) (s : State) : (updHive h f s).hv h = f (s.hv h) := updAt_same _ _ _
theorem updHive_hv_other (h k : HiveId) (f : Hive → Hive) (s : State) (e : k ≠ h) : (updHive h f s).hv k = s.hv k := updAt_other _ _ _ _ e
@[simp] theorem updCol_co (c : ColId) (f : Colony → Colony) (s : State) : (updCol c f s).co c = f (s.co c) := updAt_same _ _ _
theorem updCol_co_other (c d : ColId) (f : Colony → Colony) (s : State) (e : d ≠ c) : (updCol c f s).co d = s.co d := updAt_other _ _ _ _ e

@[simp] theorem updHive_pending (h : HiveId) (f : Hive → Hive) (s : State) : (updHive h f s).pending = s.pending := rfl
@[simp] theorem updHive_resp (h : HiveId) (f : Hive → Hive) (s : State) : (updHive h f s).resp = s.resp := rfl
@[simp] theorem updHive_tx (h : HiveId) (f : Hive → Hive) (s : State) : (updHive h f s).tx = s.tx := rfl
@[simp] theorem updHive_wired (h : HiveId) (f : Hive → Hive) (s : State) : (updHive h f s).wired = s.wired := rfl
@[simp] theorem updHive_txFloor (h : HiveId) (f : Hive → Hive) (s : State) : (updHive h f s).txFloor = s.txFloor := rfl
@[simp] theorem updHive_freeCtr (h : HiveId) (f : Hive → Hive) (s : State) : (updHive h f s).freeCtr = s.freeCtr := rfl
@[simp] theorem updHive_host (h : HiveId) (f : Hive → Hive) (s : State) : (updHive h f s).host = s.host := rfl
@[simp] theorem updHive_shadows (h : HiveId) (f : Hive → Hive) (s : State) : (updHive h f s).shadows = s.shadows := rfl
@[simp] theorem updHive_cols (h : HiveId) (f : Hive → Hive) (s : State) : (updHive h f s).cols = s.cols := rfl
@[simp] theorem updHive_nextCol (h : HiveId) (f : Hive → Hive) (s : State) : (updHive h f s).nextCol = s.nextCol := rfl
@[simp] theorem updHive_jobs (h : HiveId) (f : Hive → Hive) (s : State) : (updHive h f s).jobs = s.jobs := rfl
@[simp] theorem updHive_lostJobs (h : HiveId) (f : Hive → Hive) (s : State) : (updHive h f s).lostJobs = s.lostJobs := rfl
@[simp] theorem updHive_gens (h : HiveId) (f : Hive → Hive) (s : State) : (updHive h f s).gens = s.gens := rfl
@[simp] theorem updHive_order (h : HiveId) (f : Hive → Hive) (s : State) : (updHive h f s).order = s.order := rfl
@[simp] theorem updHive_mesh (h : HiveId) (f : Hive → Hive) (s : State) : (updHive h f s).mesh = s.mesh := rfl
@[simp] theorem updHive_arrivals (h : HiveId) (f : Hive → Hive) (s : State) : (updHive h f s).arrivals = s.arrivals := rfl
@[simp] theorem updHive_seq (h : HiveId) (f : Hive → Hive) (s : State) : (updHive h f s).seq = s.seq := rfl
@[simp] theorem updHive_sup (h : HiveId) (f : Hive → Hive) (s : State) : (updHive h f s).sup = s.sup := rfl
@[simp] theorem updHive_mld (h : HiveId) (f : Hive → Hive) (s : State) : (updHive h f s).mld = s.mld := rfl
@[simp] theorem updHive_models (h : HiveId) (f : Hive → Hive) (s : State) : (updHive h f s).models = s.models := rfl
@[simp] theorem updHive_wax (h : HiveId) (f : Hive → Hive) (s : State) : (updHive h f s).wax = s.wax := rfl
@[simp] theorem updHive_phx (h : HiveId) (f : Hive → Hive) (s : State) : (updHive h f s).phx = s.phx := rfl
@[simp] theorem updHive_ovs (h : HiveId) (f : Hive → Hive) (s : State) : (updHive h f s).ovs = s.ovs := rfl
@[simp] theorem updHive_ports (h : HiveId) (f : Hive → Hive) (s : State) : (updHive h f s).ports = s.ports := rfl
@[simp] theorem updHive_tmo (h : HiveId) (f : Hive → Hive) (s : State) : (updHive h f s).tmo = s.tmo := rfl
@[simp] theorem updHive_swarm (h : HiveId) (f : Hive → Hive) (s : State) : (updHive h f s).swarm = s.swarm := rfl
@[simp] theorem updHive_inbox (h : HiveId) (f : Hive → Hive) (s : State) : (updHive h f s).inbox = s.inbox := rfl
@[simp] theorem updHive_guard (h : HiveId) (f : Hive → Hive) (s : State) : (updHive h f s).guard = s.guard := rfl
@[simp] theorem updHive_tb (h : HiveId) (f : Hive → Hive) (s : State) : (updHive h f s).tb = s.tb := rfl
@[simp] theorem updHive_pwr (h : HiveId) (f : Hive → Hive) (s : State) : (updHive h f s).pwr = s.pwr := rfl
@[simp] theorem updHive_rpr (h : HiveId) (f : Hive → Hive) (s : State) : (updHive h f s).rpr = s.rpr := rfl
@[simp] theorem updHive_boot (h : HiveId) (f : Hive → Hive) (s : State) : (updHive h f s).boot = s.boot := rfl
@[simp] theorem updHive_obs (h : HiveId) (f : Hive → Hive) (s : State) : (updHive h f s).obs = s.obs := rfl
@[simp] theorem updHive_bmc (h : HiveId) (f : Hive → Hive) (s : State) : (updHive h f s).bmc = s.bmc := rfl
@[simp] theorem updCol_pending (c : ColId) (f : Colony → Colony) (s : State) : (updCol c f s).pending = s.pending := rfl
@[simp] theorem updCol_resp (c : ColId) (f : Colony → Colony) (s : State) : (updCol c f s).resp = s.resp := rfl
@[simp] theorem updCol_tx (c : ColId) (f : Colony → Colony) (s : State) : (updCol c f s).tx = s.tx := rfl
@[simp] theorem updCol_wired (c : ColId) (f : Colony → Colony) (s : State) : (updCol c f s).wired = s.wired := rfl
@[simp] theorem updCol_txFloor (c : ColId) (f : Colony → Colony) (s : State) : (updCol c f s).txFloor = s.txFloor := rfl
@[simp] theorem updCol_freeCtr (c : ColId) (f : Colony → Colony) (s : State) : (updCol c f s).freeCtr = s.freeCtr := rfl
@[simp] theorem updCol_host (c : ColId) (f : Colony → Colony) (s : State) : (updCol c f s).host = s.host := rfl
@[simp] theorem updCol_shadows (c : ColId) (f : Colony → Colony) (s : State) : (updCol c f s).shadows = s.shadows := rfl
@[simp] theorem updCol_nextCol (c : ColId) (f : Colony → Colony) (s : State) : (updCol c f s).nextCol = s.nextCol := rfl
@[simp] theorem updCol_jobs (c : ColId) (f : Colony → Colony) (s : State) : (updCol c f s).jobs = s.jobs := rfl
@[simp] theorem updCol_lostJobs (c : ColId) (f : Colony → Colony) (s : State) : (updCol c f s).lostJobs = s.lostJobs := rfl
@[simp] theorem updCol_gens (c : ColId) (f : Colony → Colony) (s : State) : (updCol c f s).gens = s.gens := rfl
@[simp] theorem updCol_order (c : ColId) (f : Colony → Colony) (s : State) : (updCol c f s).order = s.order := rfl
@[simp] theorem updCol_hives (c : ColId) (f : Colony → Colony) (s : State) : (updCol c f s).hives = s.hives := rfl
@[simp] theorem updCol_mesh (c : ColId) (f : Colony → Colony) (s : State) : (updCol c f s).mesh = s.mesh := rfl
@[simp] theorem updCol_arrivals (c : ColId) (f : Colony → Colony) (s : State) : (updCol c f s).arrivals = s.arrivals := rfl
@[simp] theorem updCol_seq (c : ColId) (f : Colony → Colony) (s : State) : (updCol c f s).seq = s.seq := rfl
@[simp] theorem updCol_sup (c : ColId) (f : Colony → Colony) (s : State) : (updCol c f s).sup = s.sup := rfl
@[simp] theorem updCol_mld (c : ColId) (f : Colony → Colony) (s : State) : (updCol c f s).mld = s.mld := rfl
@[simp] theorem updCol_models (c : ColId) (f : Colony → Colony) (s : State) : (updCol c f s).models = s.models := rfl
@[simp] theorem updCol_wax (c : ColId) (f : Colony → Colony) (s : State) : (updCol c f s).wax = s.wax := rfl
@[simp] theorem updCol_phx (c : ColId) (f : Colony → Colony) (s : State) : (updCol c f s).phx = s.phx := rfl
@[simp] theorem updCol_ovs (c : ColId) (f : Colony → Colony) (s : State) : (updCol c f s).ovs = s.ovs := rfl
@[simp] theorem updCol_ports (c : ColId) (f : Colony → Colony) (s : State) : (updCol c f s).ports = s.ports := rfl
@[simp] theorem updCol_tmo (c : ColId) (f : Colony → Colony) (s : State) : (updCol c f s).tmo = s.tmo := rfl
@[simp] theorem updCol_swarm (c : ColId) (f : Colony → Colony) (s : State) : (updCol c f s).swarm = s.swarm := rfl
@[simp] theorem updCol_inbox (c : ColId) (f : Colony → Colony) (s : State) : (updCol c f s).inbox = s.inbox := rfl
@[simp] theorem updCol_guard (c : ColId) (f : Colony → Colony) (s : State) : (updCol c f s).guard = s.guard := rfl
@[simp] theorem updCol_tb (c : ColId) (f : Colony → Colony) (s : State) : (updCol c f s).tb = s.tb := rfl
@[simp] theorem updCol_pwr (c : ColId) (f : Colony → Colony) (s : State) : (updCol c f s).pwr = s.pwr := rfl
@[simp] theorem updCol_rpr (c : ColId) (f : Colony → Colony) (s : State) : (updCol c f s).rpr = s.rpr := rfl
@[simp] theorem updCol_boot (c : ColId) (f : Colony → Colony) (s : State) : (updCol c f s).boot = s.boot := rfl
@[simp] theorem updCol_obs (c : ColId) (f : Colony → Colony) (s : State) : (updCol c f s).obs = s.obs := rfl
@[simp] theorem updCol_bmc (c : ColId) (f : Colony → Colony) (s : State) : (updCol c f s).bmc = s.bmc := rfl
@[simp] theorem updVf_pending (c : ColId) (f : VfRegs → VfRegs) (s : State) : (updVf c f s).pending = s.pending := rfl
@[simp] theorem updVf_resp (c : ColId) (f : VfRegs → VfRegs) (s : State) : (updVf c f s).resp = s.resp := rfl
@[simp] theorem updVf_tx (c : ColId) (f : VfRegs → VfRegs) (s : State) : (updVf c f s).tx = s.tx := rfl
@[simp] theorem updVf_wired (c : ColId) (f : VfRegs → VfRegs) (s : State) : (updVf c f s).wired = s.wired := rfl
@[simp] theorem updVf_txFloor (c : ColId) (f : VfRegs → VfRegs) (s : State) : (updVf c f s).txFloor = s.txFloor := rfl
@[simp] theorem updVf_freeCtr (c : ColId) (f : VfRegs → VfRegs) (s : State) : (updVf c f s).freeCtr = s.freeCtr := rfl
@[simp] theorem updVf_host (c : ColId) (f : VfRegs → VfRegs) (s : State) : (updVf c f s).host = s.host := rfl
@[simp] theorem updVf_shadows (c : ColId) (f : VfRegs → VfRegs) (s : State) : (updVf c f s).shadows = s.shadows := rfl
@[simp] theorem updVf_nextCol (c : ColId) (f : VfRegs → VfRegs) (s : State) : (updVf c f s).nextCol = s.nextCol := rfl
@[simp] theorem updVf_jobs (c : ColId) (f : VfRegs → VfRegs) (s : State) : (updVf c f s).jobs = s.jobs := rfl
@[simp] theorem updVf_lostJobs (c : ColId) (f : VfRegs → VfRegs) (s : State) : (updVf c f s).lostJobs = s.lostJobs := rfl
@[simp] theorem updVf_gens (c : ColId) (f : VfRegs → VfRegs) (s : State) : (updVf c f s).gens = s.gens := rfl
@[simp] theorem updVf_order (c : ColId) (f : VfRegs → VfRegs) (s : State) : (updVf c f s).order = s.order := rfl
@[simp] theorem updVf_hives (c : ColId) (f : VfRegs → VfRegs) (s : State) : (updVf c f s).hives = s.hives := rfl
@[simp] theorem updVf_mesh (c : ColId) (f : VfRegs → VfRegs) (s : State) : (updVf c f s).mesh = s.mesh := rfl
@[simp] theorem updVf_arrivals (c : ColId) (f : VfRegs → VfRegs) (s : State) : (updVf c f s).arrivals = s.arrivals := rfl
@[simp] theorem updVf_seq (c : ColId) (f : VfRegs → VfRegs) (s : State) : (updVf c f s).seq = s.seq := rfl
@[simp] theorem updVf_sup (c : ColId) (f : VfRegs → VfRegs) (s : State) : (updVf c f s).sup = s.sup := rfl
@[simp] theorem updVf_mld (c : ColId) (f : VfRegs → VfRegs) (s : State) : (updVf c f s).mld = s.mld := rfl
@[simp] theorem updVf_models (c : ColId) (f : VfRegs → VfRegs) (s : State) : (updVf c f s).models = s.models := rfl
@[simp] theorem updVf_wax (c : ColId) (f : VfRegs → VfRegs) (s : State) : (updVf c f s).wax = s.wax := rfl
@[simp] theorem updVf_phx (c : ColId) (f : VfRegs → VfRegs) (s : State) : (updVf c f s).phx = s.phx := rfl
@[simp] theorem updVf_ovs (c : ColId) (f : VfRegs → VfRegs) (s : State) : (updVf c f s).ovs = s.ovs := rfl
@[simp] theorem updVf_ports (c : ColId) (f : VfRegs → VfRegs) (s : State) : (updVf c f s).ports = s.ports := rfl
@[simp] theorem updVf_tmo (c : ColId) (f : VfRegs → VfRegs) (s : State) : (updVf c f s).tmo = s.tmo := rfl
@[simp] theorem updVf_swarm (c : ColId) (f : VfRegs → VfRegs) (s : State) : (updVf c f s).swarm = s.swarm := rfl
@[simp] theorem updVf_inbox (c : ColId) (f : VfRegs → VfRegs) (s : State) : (updVf c f s).inbox = s.inbox := rfl
@[simp] theorem updVf_guard (c : ColId) (f : VfRegs → VfRegs) (s : State) : (updVf c f s).guard = s.guard := rfl
@[simp] theorem updVf_tb (c : ColId) (f : VfRegs → VfRegs) (s : State) : (updVf c f s).tb = s.tb := rfl
@[simp] theorem updVf_pwr (c : ColId) (f : VfRegs → VfRegs) (s : State) : (updVf c f s).pwr = s.pwr := rfl
@[simp] theorem updVf_rpr (c : ColId) (f : VfRegs → VfRegs) (s : State) : (updVf c f s).rpr = s.rpr := rfl
@[simp] theorem updVf_boot (c : ColId) (f : VfRegs → VfRegs) (s : State) : (updVf c f s).boot = s.boot := rfl
@[simp] theorem updVf_obs (c : ColId) (f : VfRegs → VfRegs) (s : State) : (updVf c f s).obs = s.obs := rfl
@[simp] theorem updVf_bmc (c : ColId) (f : VfRegs → VfRegs) (s : State) : (updVf c f s).bmc = s.bmc := rfl
@[simp] theorem updPort_pending (p : PortId) (f : Port → Port) (s : State) : (updPort p f s).pending = s.pending := rfl
@[simp] theorem updPort_resp (p : PortId) (f : Port → Port) (s : State) : (updPort p f s).resp = s.resp := rfl
@[simp] theorem updPort_tx (p : PortId) (f : Port → Port) (s : State) : (updPort p f s).tx = s.tx := rfl
@[simp] theorem updPort_wired (p : PortId) (f : Port → Port) (s : State) : (updPort p f s).wired = s.wired := rfl
@[simp] theorem updPort_txFloor (p : PortId) (f : Port → Port) (s : State) : (updPort p f s).txFloor = s.txFloor := rfl
@[simp] theorem updPort_freeCtr (p : PortId) (f : Port → Port) (s : State) : (updPort p f s).freeCtr = s.freeCtr := rfl
@[simp] theorem updPort_host (p : PortId) (f : Port → Port) (s : State) : (updPort p f s).host = s.host := rfl
@[simp] theorem updPort_shadows (p : PortId) (f : Port → Port) (s : State) : (updPort p f s).shadows = s.shadows := rfl
@[simp] theorem updPort_cols (p : PortId) (f : Port → Port) (s : State) : (updPort p f s).cols = s.cols := rfl
@[simp] theorem updPort_nextCol (p : PortId) (f : Port → Port) (s : State) : (updPort p f s).nextCol = s.nextCol := rfl
@[simp] theorem updPort_jobs (p : PortId) (f : Port → Port) (s : State) : (updPort p f s).jobs = s.jobs := rfl
@[simp] theorem updPort_lostJobs (p : PortId) (f : Port → Port) (s : State) : (updPort p f s).lostJobs = s.lostJobs := rfl
@[simp] theorem updPort_gens (p : PortId) (f : Port → Port) (s : State) : (updPort p f s).gens = s.gens := rfl
@[simp] theorem updPort_order (p : PortId) (f : Port → Port) (s : State) : (updPort p f s).order = s.order := rfl
@[simp] theorem updPort_hives (p : PortId) (f : Port → Port) (s : State) : (updPort p f s).hives = s.hives := rfl
@[simp] theorem updPort_mesh (p : PortId) (f : Port → Port) (s : State) : (updPort p f s).mesh = s.mesh := rfl
@[simp] theorem updPort_arrivals (p : PortId) (f : Port → Port) (s : State) : (updPort p f s).arrivals = s.arrivals := rfl
@[simp] theorem updPort_seq (p : PortId) (f : Port → Port) (s : State) : (updPort p f s).seq = s.seq := rfl
@[simp] theorem updPort_sup (p : PortId) (f : Port → Port) (s : State) : (updPort p f s).sup = s.sup := rfl
@[simp] theorem updPort_mld (p : PortId) (f : Port → Port) (s : State) : (updPort p f s).mld = s.mld := rfl
@[simp] theorem updPort_models (p : PortId) (f : Port → Port) (s : State) : (updPort p f s).models = s.models := rfl
@[simp] theorem updPort_wax (p : PortId) (f : Port → Port) (s : State) : (updPort p f s).wax = s.wax := rfl
@[simp] theorem updPort_phx (p : PortId) (f : Port → Port) (s : State) : (updPort p f s).phx = s.phx := rfl
@[simp] theorem updPort_ovs (p : PortId) (f : Port → Port) (s : State) : (updPort p f s).ovs = s.ovs := rfl
@[simp] theorem updPort_tmo (p : PortId) (f : Port → Port) (s : State) : (updPort p f s).tmo = s.tmo := rfl
@[simp] theorem updPort_swarm (p : PortId) (f : Port → Port) (s : State) : (updPort p f s).swarm = s.swarm := rfl
@[simp] theorem updPort_inbox (p : PortId) (f : Port → Port) (s : State) : (updPort p f s).inbox = s.inbox := rfl
@[simp] theorem updPort_guard (p : PortId) (f : Port → Port) (s : State) : (updPort p f s).guard = s.guard := rfl
@[simp] theorem updPort_tb (p : PortId) (f : Port → Port) (s : State) : (updPort p f s).tb = s.tb := rfl
@[simp] theorem updPort_pwr (p : PortId) (f : Port → Port) (s : State) : (updPort p f s).pwr = s.pwr := rfl
@[simp] theorem updPort_rpr (p : PortId) (f : Port → Port) (s : State) : (updPort p f s).rpr = s.rpr := rfl
@[simp] theorem updPort_boot (p : PortId) (f : Port → Port) (s : State) : (updPort p f s).boot = s.boot := rfl
@[simp] theorem updPort_obs (p : PortId) (f : Port → Port) (s : State) : (updPort p f s).obs = s.obs := rfl
@[simp] theorem updPort_bmc (p : PortId) (f : Port → Port) (s : State) : (updPort p f s).bmc = s.bmc := rfl
@[simp] theorem updBank_pending (b : BankId) (f : Bank → Bank) (s : State) : (updBank b f s).pending = s.pending := rfl
@[simp] theorem updBank_resp (b : BankId) (f : Bank → Bank) (s : State) : (updBank b f s).resp = s.resp := rfl
@[simp] theorem updBank_tx (b : BankId) (f : Bank → Bank) (s : State) : (updBank b f s).tx = s.tx := rfl
@[simp] theorem updBank_wired (b : BankId) (f : Bank → Bank) (s : State) : (updBank b f s).wired = s.wired := rfl
@[simp] theorem updBank_txFloor (b : BankId) (f : Bank → Bank) (s : State) : (updBank b f s).txFloor = s.txFloor := rfl
@[simp] theorem updBank_freeCtr (b : BankId) (f : Bank → Bank) (s : State) : (updBank b f s).freeCtr = s.freeCtr := rfl
@[simp] theorem updBank_host (b : BankId) (f : Bank → Bank) (s : State) : (updBank b f s).host = s.host := rfl
@[simp] theorem updBank_shadows (b : BankId) (f : Bank → Bank) (s : State) : (updBank b f s).shadows = s.shadows := rfl
@[simp] theorem updBank_cols (b : BankId) (f : Bank → Bank) (s : State) : (updBank b f s).cols = s.cols := rfl
@[simp] theorem updBank_nextCol (b : BankId) (f : Bank → Bank) (s : State) : (updBank b f s).nextCol = s.nextCol := rfl
@[simp] theorem updBank_jobs (b : BankId) (f : Bank → Bank) (s : State) : (updBank b f s).jobs = s.jobs := rfl
@[simp] theorem updBank_lostJobs (b : BankId) (f : Bank → Bank) (s : State) : (updBank b f s).lostJobs = s.lostJobs := rfl
@[simp] theorem updBank_gens (b : BankId) (f : Bank → Bank) (s : State) : (updBank b f s).gens = s.gens := rfl
@[simp] theorem updBank_order (b : BankId) (f : Bank → Bank) (s : State) : (updBank b f s).order = s.order := rfl
@[simp] theorem updBank_hives (b : BankId) (f : Bank → Bank) (s : State) : (updBank b f s).hives = s.hives := rfl
@[simp] theorem updBank_mesh (b : BankId) (f : Bank → Bank) (s : State) : (updBank b f s).mesh = s.mesh := rfl
@[simp] theorem updBank_arrivals (b : BankId) (f : Bank → Bank) (s : State) : (updBank b f s).arrivals = s.arrivals := rfl
@[simp] theorem updBank_seq (b : BankId) (f : Bank → Bank) (s : State) : (updBank b f s).seq = s.seq := rfl
@[simp] theorem updBank_sup (b : BankId) (f : Bank → Bank) (s : State) : (updBank b f s).sup = s.sup := rfl
@[simp] theorem updBank_mld (b : BankId) (f : Bank → Bank) (s : State) : (updBank b f s).mld = s.mld := rfl
@[simp] theorem updBank_models (b : BankId) (f : Bank → Bank) (s : State) : (updBank b f s).models = s.models := rfl
@[simp] theorem updBank_wax (b : BankId) (f : Bank → Bank) (s : State) : (updBank b f s).wax = s.wax := rfl
@[simp] theorem updBank_ovs (b : BankId) (f : Bank → Bank) (s : State) : (updBank b f s).ovs = s.ovs := rfl
@[simp] theorem updBank_ports (b : BankId) (f : Bank → Bank) (s : State) : (updBank b f s).ports = s.ports := rfl
@[simp] theorem updBank_tmo (b : BankId) (f : Bank → Bank) (s : State) : (updBank b f s).tmo = s.tmo := rfl
@[simp] theorem updBank_swarm (b : BankId) (f : Bank → Bank) (s : State) : (updBank b f s).swarm = s.swarm := rfl
@[simp] theorem updBank_inbox (b : BankId) (f : Bank → Bank) (s : State) : (updBank b f s).inbox = s.inbox := rfl
@[simp] theorem updBank_guard (b : BankId) (f : Bank → Bank) (s : State) : (updBank b f s).guard = s.guard := rfl
@[simp] theorem updBank_tb (b : BankId) (f : Bank → Bank) (s : State) : (updBank b f s).tb = s.tb := rfl
@[simp] theorem updBank_pwr (b : BankId) (f : Bank → Bank) (s : State) : (updBank b f s).pwr = s.pwr := rfl
@[simp] theorem updBank_rpr (b : BankId) (f : Bank → Bank) (s : State) : (updBank b f s).rpr = s.rpr := rfl
@[simp] theorem updBank_boot (b : BankId) (f : Bank → Bank) (s : State) : (updBank b f s).boot = s.boot := rfl
@[simp] theorem updBank_obs (b : BankId) (f : Bank → Bank) (s : State) : (updBank b f s).obs = s.obs := rfl
@[simp] theorem updBank_bmc (b : BankId) (f : Bank → Bank) (s : State) : (updBank b f s).bmc = s.bmc := rfl
@[simp] theorem updRow_pending (r : RowId) (f : OvsRow → OvsRow) (s : State) : (updRow r f s).pending = s.pending := rfl
@[simp] theorem updRow_resp (r : RowId) (f : OvsRow → OvsRow) (s : State) : (updRow r f s).resp = s.resp := rfl
@[simp] theorem updRow_tx (r : RowId) (f : OvsRow → OvsRow) (s : State) : (updRow r f s).tx = s.tx := rfl
@[simp] theorem updRow_wired (r : RowId) (f : OvsRow → OvsRow) (s : State) : (updRow r f s).wired = s.wired := rfl
@[simp] theorem updRow_txFloor (r : RowId) (f : OvsRow → OvsRow) (s : State) : (updRow r f s).txFloor = s.txFloor := rfl
@[simp] theorem updRow_freeCtr (r : RowId) (f : OvsRow → OvsRow) (s : State) : (updRow r f s).freeCtr = s.freeCtr := rfl
@[simp] theorem updRow_host (r : RowId) (f : OvsRow → OvsRow) (s : State) : (updRow r f s).host = s.host := rfl
@[simp] theorem updRow_shadows (r : RowId) (f : OvsRow → OvsRow) (s : State) : (updRow r f s).shadows = s.shadows := rfl
@[simp] theorem updRow_cols (r : RowId) (f : OvsRow → OvsRow) (s : State) : (updRow r f s).cols = s.cols := rfl
@[simp] theorem updRow_nextCol (r : RowId) (f : OvsRow → OvsRow) (s : State) : (updRow r f s).nextCol = s.nextCol := rfl
@[simp] theorem updRow_jobs (r : RowId) (f : OvsRow → OvsRow) (s : State) : (updRow r f s).jobs = s.jobs := rfl
@[simp] theorem updRow_lostJobs (r : RowId) (f : OvsRow → OvsRow) (s : State) : (updRow r f s).lostJobs = s.lostJobs := rfl
@[simp] theorem updRow_gens (r : RowId) (f : OvsRow → OvsRow) (s : State) : (updRow r f s).gens = s.gens := rfl
@[simp] theorem updRow_order (r : RowId) (f : OvsRow → OvsRow) (s : State) : (updRow r f s).order = s.order := rfl
@[simp] theorem updRow_hives (r : RowId) (f : OvsRow → OvsRow) (s : State) : (updRow r f s).hives = s.hives := rfl
@[simp] theorem updRow_mesh (r : RowId) (f : OvsRow → OvsRow) (s : State) : (updRow r f s).mesh = s.mesh := rfl
@[simp] theorem updRow_arrivals (r : RowId) (f : OvsRow → OvsRow) (s : State) : (updRow r f s).arrivals = s.arrivals := rfl
@[simp] theorem updRow_seq (r : RowId) (f : OvsRow → OvsRow) (s : State) : (updRow r f s).seq = s.seq := rfl
@[simp] theorem updRow_sup (r : RowId) (f : OvsRow → OvsRow) (s : State) : (updRow r f s).sup = s.sup := rfl
@[simp] theorem updRow_mld (r : RowId) (f : OvsRow → OvsRow) (s : State) : (updRow r f s).mld = s.mld := rfl
@[simp] theorem updRow_models (r : RowId) (f : OvsRow → OvsRow) (s : State) : (updRow r f s).models = s.models := rfl
@[simp] theorem updRow_wax (r : RowId) (f : OvsRow → OvsRow) (s : State) : (updRow r f s).wax = s.wax := rfl
@[simp] theorem updRow_phx (r : RowId) (f : OvsRow → OvsRow) (s : State) : (updRow r f s).phx = s.phx := rfl
@[simp] theorem updRow_ports (r : RowId) (f : OvsRow → OvsRow) (s : State) : (updRow r f s).ports = s.ports := rfl
@[simp] theorem updRow_tmo (r : RowId) (f : OvsRow → OvsRow) (s : State) : (updRow r f s).tmo = s.tmo := rfl
@[simp] theorem updRow_swarm (r : RowId) (f : OvsRow → OvsRow) (s : State) : (updRow r f s).swarm = s.swarm := rfl
@[simp] theorem updRow_inbox (r : RowId) (f : OvsRow → OvsRow) (s : State) : (updRow r f s).inbox = s.inbox := rfl
@[simp] theorem updRow_guard (r : RowId) (f : OvsRow → OvsRow) (s : State) : (updRow r f s).guard = s.guard := rfl
@[simp] theorem updRow_tb (r : RowId) (f : OvsRow → OvsRow) (s : State) : (updRow r f s).tb = s.tb := rfl
@[simp] theorem updRow_pwr (r : RowId) (f : OvsRow → OvsRow) (s : State) : (updRow r f s).pwr = s.pwr := rfl
@[simp] theorem updRow_rpr (r : RowId) (f : OvsRow → OvsRow) (s : State) : (updRow r f s).rpr = s.rpr := rfl
@[simp] theorem updRow_boot (r : RowId) (f : OvsRow → OvsRow) (s : State) : (updRow r f s).boot = s.boot := rfl
@[simp] theorem updRow_obs (r : RowId) (f : OvsRow → OvsRow) (s : State) : (updRow r f s).obs = s.obs := rfl
@[simp] theorem updRow_bmc (r : RowId) (f : OvsRow → OvsRow) (s : State) : (updRow r f s).bmc = s.bmc := rfl
@[simp] theorem updFor_pending (k : ChanId) (f : ForSt → ForSt) (s : State) : (updFor k f s).pending = s.pending := rfl
@[simp] theorem updFor_resp (k : ChanId) (f : ForSt → ForSt) (s : State) : (updFor k f s).resp = s.resp := rfl
@[simp] theorem updFor_tx (k : ChanId) (f : ForSt → ForSt) (s : State) : (updFor k f s).tx = s.tx := rfl
@[simp] theorem updFor_wired (k : ChanId) (f : ForSt → ForSt) (s : State) : (updFor k f s).wired = s.wired := rfl
@[simp] theorem updFor_txFloor (k : ChanId) (f : ForSt → ForSt) (s : State) : (updFor k f s).txFloor = s.txFloor := rfl
@[simp] theorem updFor_freeCtr (k : ChanId) (f : ForSt → ForSt) (s : State) : (updFor k f s).freeCtr = s.freeCtr := rfl
@[simp] theorem updFor_shadows (k : ChanId) (f : ForSt → ForSt) (s : State) : (updFor k f s).shadows = s.shadows := rfl
@[simp] theorem updFor_cols (k : ChanId) (f : ForSt → ForSt) (s : State) : (updFor k f s).cols = s.cols := rfl
@[simp] theorem updFor_nextCol (k : ChanId) (f : ForSt → ForSt) (s : State) : (updFor k f s).nextCol = s.nextCol := rfl
@[simp] theorem updFor_jobs (k : ChanId) (f : ForSt → ForSt) (s : State) : (updFor k f s).jobs = s.jobs := rfl
@[simp] theorem updFor_lostJobs (k : ChanId) (f : ForSt → ForSt) (s : State) : (updFor k f s).lostJobs = s.lostJobs := rfl
@[simp] theorem updFor_gens (k : ChanId) (f : ForSt → ForSt) (s : State) : (updFor k f s).gens = s.gens := rfl
@[simp] theorem updFor_order (k : ChanId) (f : ForSt → ForSt) (s : State) : (updFor k f s).order = s.order := rfl
@[simp] theorem updFor_hives (k : ChanId) (f : ForSt → ForSt) (s : State) : (updFor k f s).hives = s.hives := rfl
@[simp] theorem updFor_mesh (k : ChanId) (f : ForSt → ForSt) (s : State) : (updFor k f s).mesh = s.mesh := rfl
@[simp] theorem updFor_arrivals (k : ChanId) (f : ForSt → ForSt) (s : State) : (updFor k f s).arrivals = s.arrivals := rfl
@[simp] theorem updFor_seq (k : ChanId) (f : ForSt → ForSt) (s : State) : (updFor k f s).seq = s.seq := rfl
@[simp] theorem updFor_sup (k : ChanId) (f : ForSt → ForSt) (s : State) : (updFor k f s).sup = s.sup := rfl
@[simp] theorem updFor_mld (k : ChanId) (f : ForSt → ForSt) (s : State) : (updFor k f s).mld = s.mld := rfl
@[simp] theorem updFor_models (k : ChanId) (f : ForSt → ForSt) (s : State) : (updFor k f s).models = s.models := rfl
@[simp] theorem updFor_wax (k : ChanId) (f : ForSt → ForSt) (s : State) : (updFor k f s).wax = s.wax := rfl
@[simp] theorem updFor_phx (k : ChanId) (f : ForSt → ForSt) (s : State) : (updFor k f s).phx = s.phx := rfl
@[simp] theorem updFor_ovs (k : ChanId) (f : ForSt → ForSt) (s : State) : (updFor k f s).ovs = s.ovs := rfl
@[simp] theorem updFor_ports (k : ChanId) (f : ForSt → ForSt) (s : State) : (updFor k f s).ports = s.ports := rfl
@[simp] theorem updFor_tmo (k : ChanId) (f : ForSt → ForSt) (s : State) : (updFor k f s).tmo = s.tmo := rfl
@[simp] theorem updFor_swarm (k : ChanId) (f : ForSt → ForSt) (s : State) : (updFor k f s).swarm = s.swarm := rfl
@[simp] theorem updFor_inbox (k : ChanId) (f : ForSt → ForSt) (s : State) : (updFor k f s).inbox = s.inbox := rfl
@[simp] theorem updFor_guard (k : ChanId) (f : ForSt → ForSt) (s : State) : (updFor k f s).guard = s.guard := rfl
@[simp] theorem updFor_tb (k : ChanId) (f : ForSt → ForSt) (s : State) : (updFor k f s).tb = s.tb := rfl
@[simp] theorem updFor_pwr (k : ChanId) (f : ForSt → ForSt) (s : State) : (updFor k f s).pwr = s.pwr := rfl
@[simp] theorem updFor_rpr (k : ChanId) (f : ForSt → ForSt) (s : State) : (updFor k f s).rpr = s.rpr := rfl
@[simp] theorem updFor_boot (k : ChanId) (f : ForSt → ForSt) (s : State) : (updFor k f s).boot = s.boot := rfl
@[simp] theorem updFor_obs (k : ChanId) (f : ForSt → ForSt) (s : State) : (updFor k f s).obs = s.obs := rfl
@[simp] theorem updFor_bmc (k : ChanId) (f : ForSt → ForSt) (s : State) : (updFor k f s).bmc = s.bmc := rfl
@[simp] theorem updJob_pending (n : Nat) (f : Job → Job) (s : State) : (updJob n f s).pending = s.pending := rfl
@[simp] theorem updJob_resp (n : Nat) (f : Job → Job) (s : State) : (updJob n f s).resp = s.resp := rfl
@[simp] theorem updJob_tx (n : Nat) (f : Job → Job) (s : State) : (updJob n f s).tx = s.tx := rfl
@[simp] theorem updJob_wired (n : Nat) (f : Job → Job) (s : State) : (updJob n f s).wired = s.wired := rfl
@[simp] theorem updJob_txFloor (n : Nat) (f : Job → Job) (s : State) : (updJob n f s).txFloor = s.txFloor := rfl
@[simp] theorem updJob_freeCtr (n : Nat) (f : Job → Job) (s : State) : (updJob n f s).freeCtr = s.freeCtr := rfl
@[simp] theorem updJob_host (n : Nat) (f : Job → Job) (s : State) : (updJob n f s).host = s.host := rfl
@[simp] theorem updJob_shadows (n : Nat) (f : Job → Job) (s : State) : (updJob n f s).shadows = s.shadows := rfl
@[simp] theorem updJob_cols (n : Nat) (f : Job → Job) (s : State) : (updJob n f s).cols = s.cols := rfl
@[simp] theorem updJob_nextCol (n : Nat) (f : Job → Job) (s : State) : (updJob n f s).nextCol = s.nextCol := rfl
@[simp] theorem updJob_lostJobs (n : Nat) (f : Job → Job) (s : State) : (updJob n f s).lostJobs = s.lostJobs := rfl
@[simp] theorem updJob_gens (n : Nat) (f : Job → Job) (s : State) : (updJob n f s).gens = s.gens := rfl
@[simp] theorem updJob_order (n : Nat) (f : Job → Job) (s : State) : (updJob n f s).order = s.order := rfl
@[simp] theorem updJob_hives (n : Nat) (f : Job → Job) (s : State) : (updJob n f s).hives = s.hives := rfl
@[simp] theorem updJob_mesh (n : Nat) (f : Job → Job) (s : State) : (updJob n f s).mesh = s.mesh := rfl
@[simp] theorem updJob_arrivals (n : Nat) (f : Job → Job) (s : State) : (updJob n f s).arrivals = s.arrivals := rfl
@[simp] theorem updJob_seq (n : Nat) (f : Job → Job) (s : State) : (updJob n f s).seq = s.seq := rfl
@[simp] theorem updJob_sup (n : Nat) (f : Job → Job) (s : State) : (updJob n f s).sup = s.sup := rfl
@[simp] theorem updJob_mld (n : Nat) (f : Job → Job) (s : State) : (updJob n f s).mld = s.mld := rfl
@[simp] theorem updJob_models (n : Nat) (f : Job → Job) (s : State) : (updJob n f s).models = s.models := rfl
@[simp] theorem updJob_wax (n : Nat) (f : Job → Job) (s : State) : (updJob n f s).wax = s.wax := rfl
@[simp] theorem updJob_phx (n : Nat) (f : Job → Job) (s : State) : (updJob n f s).phx = s.phx := rfl
@[simp] theorem updJob_ovs (n : Nat) (f : Job → Job) (s : State) : (updJob n f s).ovs = s.ovs := rfl
@[simp] theorem updJob_ports (n : Nat) (f : Job → Job) (s : State) : (updJob n f s).ports = s.ports := rfl
@[simp] theorem updJob_tmo (n : Nat) (f : Job → Job) (s : State) : (updJob n f s).tmo = s.tmo := rfl
@[simp] theorem updJob_swarm (n : Nat) (f : Job → Job) (s : State) : (updJob n f s).swarm = s.swarm := rfl
@[simp] theorem updJob_inbox (n : Nat) (f : Job → Job) (s : State) : (updJob n f s).inbox = s.inbox := rfl
@[simp] theorem updJob_guard (n : Nat) (f : Job → Job) (s : State) : (updJob n f s).guard = s.guard := rfl
@[simp] theorem updJob_tb (n : Nat) (f : Job → Job) (s : State) : (updJob n f s).tb = s.tb := rfl
@[simp] theorem updJob_pwr (n : Nat) (f : Job → Job) (s : State) : (updJob n f s).pwr = s.pwr := rfl
@[simp] theorem updJob_rpr (n : Nat) (f : Job → Job) (s : State) : (updJob n f s).rpr = s.rpr := rfl
@[simp] theorem updJob_boot (n : Nat) (f : Job → Job) (s : State) : (updJob n f s).boot = s.boot := rfl
@[simp] theorem updJob_obs (n : Nat) (f : Job → Job) (s : State) : (updJob n f s).obs = s.obs := rfl
@[simp] theorem updJob_bmc (n : Nat) (f : Job → Job) (s : State) : (updJob n f s).bmc = s.bmc := rfl
@[simp] theorem updRun_pending (h : HiveId) (f : Prog → Prog) (s : State) : (updRun h f s).pending = s.pending := rfl
@[simp] theorem updRun_resp (h : HiveId) (f : Prog → Prog) (s : State) : (updRun h f s).resp = s.resp := rfl
@[simp] theorem updRun_tx (h : HiveId) (f : Prog → Prog) (s : State) : (updRun h f s).tx = s.tx := rfl
@[simp] theorem updRun_wired (h : HiveId) (f : Prog → Prog) (s : State) : (updRun h f s).wired = s.wired := rfl
@[simp] theorem updRun_txFloor (h : HiveId) (f : Prog → Prog) (s : State) : (updRun h f s).txFloor = s.txFloor := rfl
@[simp] theorem updRun_freeCtr (h : HiveId) (f : Prog → Prog) (s : State) : (updRun h f s).freeCtr = s.freeCtr := rfl
@[simp] theorem updRun_host (h : HiveId) (f : Prog → Prog) (s : State) : (updRun h f s).host = s.host := rfl
@[simp] theorem updRun_shadows (h : HiveId) (f : Prog → Prog) (s : State) : (updRun h f s).shadows = s.shadows := rfl
@[simp] theorem updRun_cols (h : HiveId) (f : Prog → Prog) (s : State) : (updRun h f s).cols = s.cols := rfl
@[simp] theorem updRun_nextCol (h : HiveId) (f : Prog → Prog) (s : State) : (updRun h f s).nextCol = s.nextCol := rfl
@[simp] theorem updRun_jobs (h : HiveId) (f : Prog → Prog) (s : State) : (updRun h f s).jobs = s.jobs := rfl
@[simp] theorem updRun_lostJobs (h : HiveId) (f : Prog → Prog) (s : State) : (updRun h f s).lostJobs = s.lostJobs := rfl
@[simp] theorem updRun_gens (h : HiveId) (f : Prog → Prog) (s : State) : (updRun h f s).gens = s.gens := rfl
@[simp] theorem updRun_order (h : HiveId) (f : Prog → Prog) (s : State) : (updRun h f s).order = s.order := rfl
@[simp] theorem updRun_mesh (h : HiveId) (f : Prog → Prog) (s : State) : (updRun h f s).mesh = s.mesh := rfl
@[simp] theorem updRun_arrivals (h : HiveId) (f : Prog → Prog) (s : State) : (updRun h f s).arrivals = s.arrivals := rfl
@[simp] theorem updRun_seq (h : HiveId) (f : Prog → Prog) (s : State) : (updRun h f s).seq = s.seq := rfl
@[simp] theorem updRun_sup (h : HiveId) (f : Prog → Prog) (s : State) : (updRun h f s).sup = s.sup := rfl
@[simp] theorem updRun_mld (h : HiveId) (f : Prog → Prog) (s : State) : (updRun h f s).mld = s.mld := rfl
@[simp] theorem updRun_models (h : HiveId) (f : Prog → Prog) (s : State) : (updRun h f s).models = s.models := rfl
@[simp] theorem updRun_wax (h : HiveId) (f : Prog → Prog) (s : State) : (updRun h f s).wax = s.wax := rfl
@[simp] theorem updRun_phx (h : HiveId) (f : Prog → Prog) (s : State) : (updRun h f s).phx = s.phx := rfl
@[simp] theorem updRun_ovs (h : HiveId) (f : Prog → Prog) (s : State) : (updRun h f s).ovs = s.ovs := rfl
@[simp] theorem updRun_ports (h : HiveId) (f : Prog → Prog) (s : State) : (updRun h f s).ports = s.ports := rfl
@[simp] theorem updRun_tmo (h : HiveId) (f : Prog → Prog) (s : State) : (updRun h f s).tmo = s.tmo := rfl
@[simp] theorem updRun_swarm (h : HiveId) (f : Prog → Prog) (s : State) : (updRun h f s).swarm = s.swarm := rfl
@[simp] theorem updRun_inbox (h : HiveId) (f : Prog → Prog) (s : State) : (updRun h f s).inbox = s.inbox := rfl
@[simp] theorem updRun_guard (h : HiveId) (f : Prog → Prog) (s : State) : (updRun h f s).guard = s.guard := rfl
@[simp] theorem updRun_tb (h : HiveId) (f : Prog → Prog) (s : State) : (updRun h f s).tb = s.tb := rfl
@[simp] theorem updRun_pwr (h : HiveId) (f : Prog → Prog) (s : State) : (updRun h f s).pwr = s.pwr := rfl
@[simp] theorem updRun_rpr (h : HiveId) (f : Prog → Prog) (s : State) : (updRun h f s).rpr = s.rpr := rfl
@[simp] theorem updRun_boot (h : HiveId) (f : Prog → Prog) (s : State) : (updRun h f s).boot = s.boot := rfl
@[simp] theorem updRun_obs (h : HiveId) (f : Prog → Prog) (s : State) : (updRun h f s).obs = s.obs := rfl
@[simp] theorem updRun_bmc (h : HiveId) (f : Prog → Prog) (s : State) : (updRun h f s).bmc = s.bmc := rfl
@[simp] theorem cntHive_pending (h : HiveId) (k n : Nat) (s : State) : (cntHive h k n s).pending = s.pending := rfl
@[simp] theorem cntHive_resp (h : HiveId) (k n : Nat) (s : State) : (cntHive h k n s).resp = s.resp := rfl
@[simp] theorem cntHive_tx (h : HiveId) (k n : Nat) (s : State) : (cntHive h k n s).tx = s.tx := rfl
@[simp] theorem cntHive_wired (h : HiveId) (k n : Nat) (s : State) : (cntHive h k n s).wired = s.wired := rfl
@[simp] theorem cntHive_txFloor (h : HiveId) (k n : Nat) (s : State) : (cntHive h k n s).txFloor = s.txFloor := rfl
@[simp] theorem cntHive_freeCtr (h : HiveId) (k n : Nat) (s : State) : (cntHive h k n s).freeCtr = s.freeCtr := rfl
@[simp] theorem cntHive_host (h : HiveId) (k n : Nat) (s : State) : (cntHive h k n s).host = s.host := rfl
@[simp] theorem cntHive_shadows (h : HiveId) (k n : Nat) (s : State) : (cntHive h k n s).shadows = s.shadows := rfl
@[simp] theorem cntHive_cols (h : HiveId) (k n : Nat) (s : State) : (cntHive h k n s).cols = s.cols := rfl
@[simp] theorem cntHive_nextCol (h : HiveId) (k n : Nat) (s : State) : (cntHive h k n s).nextCol = s.nextCol := rfl
@[simp] theorem cntHive_jobs (h : HiveId) (k n : Nat) (s : State) : (cntHive h k n s).jobs = s.jobs := rfl
@[simp] theorem cntHive_lostJobs (h : HiveId) (k n : Nat) (s : State) : (cntHive h k n s).lostJobs = s.lostJobs := rfl
@[simp] theorem cntHive_gens (h : HiveId) (k n : Nat) (s : State) : (cntHive h k n s).gens = s.gens := rfl
@[simp] theorem cntHive_order (h : HiveId) (k n : Nat) (s : State) : (cntHive h k n s).order = s.order := rfl
@[simp] theorem cntHive_hives (h : HiveId) (k n : Nat) (s : State) : (cntHive h k n s).hives = s.hives := rfl
@[simp] theorem cntHive_mesh (h : HiveId) (k n : Nat) (s : State) : (cntHive h k n s).mesh = s.mesh := rfl
@[simp] theorem cntHive_arrivals (h : HiveId) (k n : Nat) (s : State) : (cntHive h k n s).arrivals = s.arrivals := rfl
@[simp] theorem cntHive_seq (h : HiveId) (k n : Nat) (s : State) : (cntHive h k n s).seq = s.seq := rfl
@[simp] theorem cntHive_sup (h : HiveId) (k n : Nat) (s : State) : (cntHive h k n s).sup = s.sup := rfl
@[simp] theorem cntHive_mld (h : HiveId) (k n : Nat) (s : State) : (cntHive h k n s).mld = s.mld := rfl
@[simp] theorem cntHive_models (h : HiveId) (k n : Nat) (s : State) : (cntHive h k n s).models = s.models := rfl
@[simp] theorem cntHive_wax (h : HiveId) (k n : Nat) (s : State) : (cntHive h k n s).wax = s.wax := rfl
@[simp] theorem cntHive_phx (h : HiveId) (k n : Nat) (s : State) : (cntHive h k n s).phx = s.phx := rfl
@[simp] theorem cntHive_ovs (h : HiveId) (k n : Nat) (s : State) : (cntHive h k n s).ovs = s.ovs := rfl
@[simp] theorem cntHive_ports (h : HiveId) (k n : Nat) (s : State) : (cntHive h k n s).ports = s.ports := rfl
@[simp] theorem cntHive_tmo (h : HiveId) (k n : Nat) (s : State) : (cntHive h k n s).tmo = s.tmo := rfl
@[simp] theorem cntHive_swarm (h : HiveId) (k n : Nat) (s : State) : (cntHive h k n s).swarm = s.swarm := rfl
@[simp] theorem cntHive_inbox (h : HiveId) (k n : Nat) (s : State) : (cntHive h k n s).inbox = s.inbox := rfl
@[simp] theorem cntHive_guard (h : HiveId) (k n : Nat) (s : State) : (cntHive h k n s).guard = s.guard := rfl
@[simp] theorem cntHive_tb (h : HiveId) (k n : Nat) (s : State) : (cntHive h k n s).tb = s.tb := rfl
@[simp] theorem cntHive_pwr (h : HiveId) (k n : Nat) (s : State) : (cntHive h k n s).pwr = s.pwr := rfl
@[simp] theorem cntHive_rpr (h : HiveId) (k n : Nat) (s : State) : (cntHive h k n s).rpr = s.rpr := rfl
@[simp] theorem cntHive_boot (h : HiveId) (k n : Nat) (s : State) : (cntHive h k n s).boot = s.boot := rfl
@[simp] theorem cntHive_bmc (h : HiveId) (k n : Nat) (s : State) : (cntHive h k n s).bmc = s.bmc := rfl
@[simp] theorem cntCol_pending (c : ColId) (k n : Nat) (s : State) : (cntCol c k n s).pending = s.pending := rfl
@[simp] theorem cntCol_resp (c : ColId) (k n : Nat) (s : State) : (cntCol c k n s).resp = s.resp := rfl
@[simp] theorem cntCol_tx (c : ColId) (k n : Nat) (s : State) : (cntCol c k n s).tx = s.tx := rfl
@[simp] theorem cntCol_wired (c : ColId) (k n : Nat) (s : State) : (cntCol c k n s).wired = s.wired := rfl
@[simp] theorem cntCol_txFloor (c : ColId) (k n : Nat) (s : State) : (cntCol c k n s).txFloor = s.txFloor := rfl
@[simp] theorem cntCol_freeCtr (c : ColId) (k n : Nat) (s : State) : (cntCol c k n s).freeCtr = s.freeCtr := rfl
@[simp] theorem cntCol_host (c : ColId) (k n : Nat) (s : State) : (cntCol c k n s).host = s.host := rfl
@[simp] theorem cntCol_shadows (c : ColId) (k n : Nat) (s : State) : (cntCol c k n s).shadows = s.shadows := rfl
@[simp] theorem cntCol_cols (c : ColId) (k n : Nat) (s : State) : (cntCol c k n s).cols = s.cols := rfl
@[simp] theorem cntCol_nextCol (c : ColId) (k n : Nat) (s : State) : (cntCol c k n s).nextCol = s.nextCol := rfl
@[simp] theorem cntCol_jobs (c : ColId) (k n : Nat) (s : State) : (cntCol c k n s).jobs = s.jobs := rfl
@[simp] theorem cntCol_lostJobs (c : ColId) (k n : Nat) (s : State) : (cntCol c k n s).lostJobs = s.lostJobs := rfl
@[simp] theorem cntCol_gens (c : ColId) (k n : Nat) (s : State) : (cntCol c k n s).gens = s.gens := rfl
@[simp] theorem cntCol_order (c : ColId) (k n : Nat) (s : State) : (cntCol c k n s).order = s.order := rfl
@[simp] theorem cntCol_hives (c : ColId) (k n : Nat) (s : State) : (cntCol c k n s).hives = s.hives := rfl
@[simp] theorem cntCol_mesh (c : ColId) (k n : Nat) (s : State) : (cntCol c k n s).mesh = s.mesh := rfl
@[simp] theorem cntCol_arrivals (c : ColId) (k n : Nat) (s : State) : (cntCol c k n s).arrivals = s.arrivals := rfl
@[simp] theorem cntCol_seq (c : ColId) (k n : Nat) (s : State) : (cntCol c k n s).seq = s.seq := rfl
@[simp] theorem cntCol_sup (c : ColId) (k n : Nat) (s : State) : (cntCol c k n s).sup = s.sup := rfl
@[simp] theorem cntCol_mld (c : ColId) (k n : Nat) (s : State) : (cntCol c k n s).mld = s.mld := rfl
@[simp] theorem cntCol_models (c : ColId) (k n : Nat) (s : State) : (cntCol c k n s).models = s.models := rfl
@[simp] theorem cntCol_wax (c : ColId) (k n : Nat) (s : State) : (cntCol c k n s).wax = s.wax := rfl
@[simp] theorem cntCol_phx (c : ColId) (k n : Nat) (s : State) : (cntCol c k n s).phx = s.phx := rfl
@[simp] theorem cntCol_ovs (c : ColId) (k n : Nat) (s : State) : (cntCol c k n s).ovs = s.ovs := rfl
@[simp] theorem cntCol_ports (c : ColId) (k n : Nat) (s : State) : (cntCol c k n s).ports = s.ports := rfl
@[simp] theorem cntCol_tmo (c : ColId) (k n : Nat) (s : State) : (cntCol c k n s).tmo = s.tmo := rfl
@[simp] theorem cntCol_swarm (c : ColId) (k n : Nat) (s : State) : (cntCol c k n s).swarm = s.swarm := rfl
@[simp] theorem cntCol_inbox (c : ColId) (k n : Nat) (s : State) : (cntCol c k n s).inbox = s.inbox := rfl
@[simp] theorem cntCol_guard (c : ColId) (k n : Nat) (s : State) : (cntCol c k n s).guard = s.guard := rfl
@[simp] theorem cntCol_tb (c : ColId) (k n : Nat) (s : State) : (cntCol c k n s).tb = s.tb := rfl
@[simp] theorem cntCol_pwr (c : ColId) (k n : Nat) (s : State) : (cntCol c k n s).pwr = s.pwr := rfl
@[simp] theorem cntCol_rpr (c : ColId) (k n : Nat) (s : State) : (cntCol c k n s).rpr = s.rpr := rfl
@[simp] theorem cntCol_boot (c : ColId) (k n : Nat) (s : State) : (cntCol c k n s).boot = s.boot := rfl
@[simp] theorem cntCol_bmc (c : ColId) (k n : Nat) (s : State) : (cntCol c k n s).bmc = s.bmc := rfl
@[simp] theorem cntBank_pending (b : BankId) (k n : Nat) (s : State) : (cntBank b k n s).pending = s.pending := rfl
@[simp] theorem cntBank_resp (b : BankId) (k n : Nat) (s : State) : (cntBank b k n s).resp = s.resp := rfl
@[simp] theorem cntBank_tx (b : BankId) (k n : Nat) (s : State) : (cntBank b k n s).tx = s.tx := rfl
@[simp] theorem cntBank_wired (b : BankId) (k n : Nat) (s : State) : (cntBank b k n s).wired = s.wired := rfl
@[simp] theorem cntBank_txFloor (b : BankId) (k n : Nat) (s : State) : (cntBank b k n s).txFloor = s.txFloor := rfl
@[simp] theorem cntBank_freeCtr (b : BankId) (k n : Nat) (s : State) : (cntBank b k n s).freeCtr = s.freeCtr := rfl
@[simp] theorem cntBank_host (b : BankId) (k n : Nat) (s : State) : (cntBank b k n s).host = s.host := rfl
@[simp] theorem cntBank_shadows (b : BankId) (k n : Nat) (s : State) : (cntBank b k n s).shadows = s.shadows := rfl
@[simp] theorem cntBank_cols (b : BankId) (k n : Nat) (s : State) : (cntBank b k n s).cols = s.cols := rfl
@[simp] theorem cntBank_nextCol (b : BankId) (k n : Nat) (s : State) : (cntBank b k n s).nextCol = s.nextCol := rfl
@[simp] theorem cntBank_jobs (b : BankId) (k n : Nat) (s : State) : (cntBank b k n s).jobs = s.jobs := rfl
@[simp] theorem cntBank_lostJobs (b : BankId) (k n : Nat) (s : State) : (cntBank b k n s).lostJobs = s.lostJobs := rfl
@[simp] theorem cntBank_gens (b : BankId) (k n : Nat) (s : State) : (cntBank b k n s).gens = s.gens := rfl
@[simp] theorem cntBank_order (b : BankId) (k n : Nat) (s : State) : (cntBank b k n s).order = s.order := rfl
@[simp] theorem cntBank_hives (b : BankId) (k n : Nat) (s : State) : (cntBank b k n s).hives = s.hives := rfl
@[simp] theorem cntBank_mesh (b : BankId) (k n : Nat) (s : State) : (cntBank b k n s).mesh = s.mesh := rfl
@[simp] theorem cntBank_arrivals (b : BankId) (k n : Nat) (s : State) : (cntBank b k n s).arrivals = s.arrivals := rfl
@[simp] theorem cntBank_seq (b : BankId) (k n : Nat) (s : State) : (cntBank b k n s).seq = s.seq := rfl
@[simp] theorem cntBank_sup (b : BankId) (k n : Nat) (s : State) : (cntBank b k n s).sup = s.sup := rfl
@[simp] theorem cntBank_mld (b : BankId) (k n : Nat) (s : State) : (cntBank b k n s).mld = s.mld := rfl
@[simp] theorem cntBank_models (b : BankId) (k n : Nat) (s : State) : (cntBank b k n s).models = s.models := rfl
@[simp] theorem cntBank_wax (b : BankId) (k n : Nat) (s : State) : (cntBank b k n s).wax = s.wax := rfl
@[simp] theorem cntBank_phx (b : BankId) (k n : Nat) (s : State) : (cntBank b k n s).phx = s.phx := rfl
@[simp] theorem cntBank_ovs (b : BankId) (k n : Nat) (s : State) : (cntBank b k n s).ovs = s.ovs := rfl
@[simp] theorem cntBank_ports (b : BankId) (k n : Nat) (s : State) : (cntBank b k n s).ports = s.ports := rfl
@[simp] theorem cntBank_tmo (b : BankId) (k n : Nat) (s : State) : (cntBank b k n s).tmo = s.tmo := rfl
@[simp] theorem cntBank_swarm (b : BankId) (k n : Nat) (s : State) : (cntBank b k n s).swarm = s.swarm := rfl
@[simp] theorem cntBank_inbox (b : BankId) (k n : Nat) (s : State) : (cntBank b k n s).inbox = s.inbox := rfl
@[simp] theorem cntBank_guard (b : BankId) (k n : Nat) (s : State) : (cntBank b k n s).guard = s.guard := rfl
@[simp] theorem cntBank_tb (b : BankId) (k n : Nat) (s : State) : (cntBank b k n s).tb = s.tb := rfl
@[simp] theorem cntBank_pwr (b : BankId) (k n : Nat) (s : State) : (cntBank b k n s).pwr = s.pwr := rfl
@[simp] theorem cntBank_rpr (b : BankId) (k n : Nat) (s : State) : (cntBank b k n s).rpr = s.rpr := rfl
@[simp] theorem cntBank_boot (b : BankId) (k n : Nat) (s : State) : (cntBank b k n s).boot = s.boot := rfl
@[simp] theorem cntBank_bmc (b : BankId) (k n : Nat) (s : State) : (cntBank b k n s).bmc = s.bmc := rfl
@[simp] theorem State.reply_pending (s : State) (ws : List Word) : (s.reply ws).pending = s.pending := rfl
@[simp] theorem State.reply_tx (s : State) (ws : List Word) : (s.reply ws).tx = s.tx := rfl
@[simp] theorem State.reply_wired (s : State) (ws : List Word) : (s.reply ws).wired = s.wired := rfl
@[simp] theorem State.reply_txFloor (s : State) (ws : List Word) : (s.reply ws).txFloor = s.txFloor := rfl
@[simp] theorem State.reply_freeCtr (s : State) (ws : List Word) : (s.reply ws).freeCtr = s.freeCtr := rfl
@[simp] theorem State.reply_host (s : State) (ws : List Word) : (s.reply ws).host = s.host := rfl
@[simp] theorem State.reply_shadows (s : State) (ws : List Word) : (s.reply ws).shadows = s.shadows := rfl
@[simp] theorem State.reply_cols (s : State) (ws : List Word) : (s.reply ws).cols = s.cols := rfl
@[simp] theorem State.reply_nextCol (s : State) (ws : List Word) : (s.reply ws).nextCol = s.nextCol := rfl
@[simp] theorem State.reply_jobs (s : State) (ws : List Word) : (s.reply ws).jobs = s.jobs := rfl
@[simp] theorem State.reply_lostJobs (s : State) (ws : List Word) : (s.reply ws).lostJobs = s.lostJobs := rfl
@[simp] theorem State.reply_gens (s : State) (ws : List Word) : (s.reply ws).gens = s.gens := rfl
@[simp] theorem State.reply_order (s : State) (ws : List Word) : (s.reply ws).order = s.order := rfl
@[simp] theorem State.reply_hives (s : State) (ws : List Word) : (s.reply ws).hives = s.hives := rfl
@[simp] theorem State.reply_mesh (s : State) (ws : List Word) : (s.reply ws).mesh = s.mesh := rfl
@[simp] theorem State.reply_arrivals (s : State) (ws : List Word) : (s.reply ws).arrivals = s.arrivals := rfl
@[simp] theorem State.reply_seq (s : State) (ws : List Word) : (s.reply ws).seq = s.seq := rfl
@[simp] theorem State.reply_sup (s : State) (ws : List Word) : (s.reply ws).sup = s.sup := rfl
@[simp] theorem State.reply_mld (s : State) (ws : List Word) : (s.reply ws).mld = s.mld := rfl
@[simp] theorem State.reply_models (s : State) (ws : List Word) : (s.reply ws).models = s.models := rfl
@[simp] theorem State.reply_wax (s : State) (ws : List Word) : (s.reply ws).wax = s.wax := rfl
@[simp] theorem State.reply_phx (s : State) (ws : List Word) : (s.reply ws).phx = s.phx := rfl
@[simp] theorem State.reply_ovs (s : State) (ws : List Word) : (s.reply ws).ovs = s.ovs := rfl
@[simp] theorem State.reply_ports (s : State) (ws : List Word) : (s.reply ws).ports = s.ports := rfl
@[simp] theorem State.reply_tmo (s : State) (ws : List Word) : (s.reply ws).tmo = s.tmo := rfl
@[simp] theorem State.reply_swarm (s : State) (ws : List Word) : (s.reply ws).swarm = s.swarm := rfl
@[simp] theorem State.reply_inbox (s : State) (ws : List Word) : (s.reply ws).inbox = s.inbox := rfl
@[simp] theorem State.reply_guard (s : State) (ws : List Word) : (s.reply ws).guard = s.guard := rfl
@[simp] theorem State.reply_tb (s : State) (ws : List Word) : (s.reply ws).tb = s.tb := rfl
@[simp] theorem State.reply_pwr (s : State) (ws : List Word) : (s.reply ws).pwr = s.pwr := rfl
@[simp] theorem State.reply_rpr (s : State) (ws : List Word) : (s.reply ws).rpr = s.rpr := rfl
@[simp] theorem State.reply_boot (s : State) (ws : List Word) : (s.reply ws).boot = s.boot := rfl
@[simp] theorem State.reply_obs (s : State) (ws : List Word) : (s.reply ws).obs = s.obs := rfl
@[simp] theorem State.reply_bmc (s : State) (ws : List Word) : (s.reply ws).bmc = s.bmc := rfl
@[simp] theorem State.cpl_pending (s : State) (c : Cpl) : (s.cpl c).pending = s.pending := rfl
@[simp] theorem State.cpl_tx (s : State) (c : Cpl) : (s.cpl c).tx = s.tx := rfl
@[simp] theorem State.cpl_wired (s : State) (c : Cpl) : (s.cpl c).wired = s.wired := rfl
@[simp] theorem State.cpl_txFloor (s : State) (c : Cpl) : (s.cpl c).txFloor = s.txFloor := rfl
@[simp] theorem State.cpl_freeCtr (s : State) (c : Cpl) : (s.cpl c).freeCtr = s.freeCtr := rfl
@[simp] theorem State.cpl_host (s : State) (c : Cpl) : (s.cpl c).host = s.host := rfl
@[simp] theorem State.cpl_shadows (s : State) (c : Cpl) : (s.cpl c).shadows = s.shadows := rfl
@[simp] theorem State.cpl_cols (s : State) (c : Cpl) : (s.cpl c).cols = s.cols := rfl
@[simp] theorem State.cpl_nextCol (s : State) (c : Cpl) : (s.cpl c).nextCol = s.nextCol := rfl
@[simp] theorem State.cpl_jobs (s : State) (c : Cpl) : (s.cpl c).jobs = s.jobs := rfl
@[simp] theorem State.cpl_lostJobs (s : State) (c : Cpl) : (s.cpl c).lostJobs = s.lostJobs := rfl
@[simp] theorem State.cpl_gens (s : State) (c : Cpl) : (s.cpl c).gens = s.gens := rfl
@[simp] theorem State.cpl_order (s : State) (c : Cpl) : (s.cpl c).order = s.order := rfl
@[simp] theorem State.cpl_hives (s : State) (c : Cpl) : (s.cpl c).hives = s.hives := rfl
@[simp] theorem State.cpl_mesh (s : State) (c : Cpl) : (s.cpl c).mesh = s.mesh := rfl
@[simp] theorem State.cpl_arrivals (s : State) (c : Cpl) : (s.cpl c).arrivals = s.arrivals := rfl
@[simp] theorem State.cpl_seq (s : State) (c : Cpl) : (s.cpl c).seq = s.seq := rfl
@[simp] theorem State.cpl_sup (s : State) (c : Cpl) : (s.cpl c).sup = s.sup := rfl
@[simp] theorem State.cpl_mld (s : State) (c : Cpl) : (s.cpl c).mld = s.mld := rfl
@[simp] theorem State.cpl_models (s : State) (c : Cpl) : (s.cpl c).models = s.models := rfl
@[simp] theorem State.cpl_wax (s : State) (c : Cpl) : (s.cpl c).wax = s.wax := rfl
@[simp] theorem State.cpl_phx (s : State) (c : Cpl) : (s.cpl c).phx = s.phx := rfl
@[simp] theorem State.cpl_ovs (s : State) (c : Cpl) : (s.cpl c).ovs = s.ovs := rfl
@[simp] theorem State.cpl_ports (s : State) (c : Cpl) : (s.cpl c).ports = s.ports := rfl
@[simp] theorem State.cpl_tmo (s : State) (c : Cpl) : (s.cpl c).tmo = s.tmo := rfl
@[simp] theorem State.cpl_swarm (s : State) (c : Cpl) : (s.cpl c).swarm = s.swarm := rfl
@[simp] theorem State.cpl_inbox (s : State) (c : Cpl) : (s.cpl c).inbox = s.inbox := rfl
@[simp] theorem State.cpl_guard (s : State) (c : Cpl) : (s.cpl c).guard = s.guard := rfl
@[simp] theorem State.cpl_tb (s : State) (c : Cpl) : (s.cpl c).tb = s.tb := rfl
@[simp] theorem State.cpl_pwr (s : State) (c : Cpl) : (s.cpl c).pwr = s.pwr := rfl
@[simp] theorem State.cpl_rpr (s : State) (c : Cpl) : (s.cpl c).rpr = s.rpr := rfl
@[simp] theorem State.cpl_boot (s : State) (c : Cpl) : (s.cpl c).boot = s.boot := rfl
@[simp] theorem State.cpl_obs (s : State) (c : Cpl) : (s.cpl c).obs = s.obs := rfl
@[simp] theorem State.cpl_bmc (s : State) (c : Cpl) : (s.cpl c).bmc = s.bmc := rfl
@[simp] theorem State.send_pending (s : State) (t : Tx) : (s.send t).pending = s.pending := rfl
@[simp] theorem State.send_resp (s : State) (t : Tx) : (s.send t).resp = s.resp := rfl
@[simp] theorem State.send_wired (s : State) (t : Tx) : (s.send t).wired = s.wired := rfl
@[simp] theorem State.send_txFloor (s : State) (t : Tx) : (s.send t).txFloor = s.txFloor := rfl
@[simp] theorem State.send_freeCtr (s : State) (t : Tx) : (s.send t).freeCtr = s.freeCtr := rfl
@[simp] theorem State.send_host (s : State) (t : Tx) : (s.send t).host = s.host := rfl
@[simp] theorem State.send_shadows (s : State) (t : Tx) : (s.send t).shadows = s.shadows := rfl
@[simp] theorem State.send_cols (s : State) (t : Tx) : (s.send t).cols = s.cols := rfl
@[simp] theorem State.send_nextCol (s : State) (t : Tx) : (s.send t).nextCol = s.nextCol := rfl
@[simp] theorem State.send_jobs (s : State) (t : Tx) : (s.send t).jobs = s.jobs := rfl
@[simp] theorem State.send_lostJobs (s : State) (t : Tx) : (s.send t).lostJobs = s.lostJobs := rfl
@[simp] theorem State.send_gens (s : State) (t : Tx) : (s.send t).gens = s.gens := rfl
@[simp] theorem State.send_order (s : State) (t : Tx) : (s.send t).order = s.order := rfl
@[simp] theorem State.send_hives (s : State) (t : Tx) : (s.send t).hives = s.hives := rfl
@[simp] theorem State.send_mesh (s : State) (t : Tx) : (s.send t).mesh = s.mesh := rfl
@[simp] theorem State.send_arrivals (s : State) (t : Tx) : (s.send t).arrivals = s.arrivals := rfl
@[simp] theorem State.send_seq (s : State) (t : Tx) : (s.send t).seq = s.seq := rfl
@[simp] theorem State.send_sup (s : State) (t : Tx) : (s.send t).sup = s.sup := rfl
@[simp] theorem State.send_mld (s : State) (t : Tx) : (s.send t).mld = s.mld := rfl
@[simp] theorem State.send_models (s : State) (t : Tx) : (s.send t).models = s.models := rfl
@[simp] theorem State.send_wax (s : State) (t : Tx) : (s.send t).wax = s.wax := rfl
@[simp] theorem State.send_phx (s : State) (t : Tx) : (s.send t).phx = s.phx := rfl
@[simp] theorem State.send_ovs (s : State) (t : Tx) : (s.send t).ovs = s.ovs := rfl
@[simp] theorem State.send_ports (s : State) (t : Tx) : (s.send t).ports = s.ports := rfl
@[simp] theorem State.send_tmo (s : State) (t : Tx) : (s.send t).tmo = s.tmo := rfl
@[simp] theorem State.send_swarm (s : State) (t : Tx) : (s.send t).swarm = s.swarm := rfl
@[simp] theorem State.send_inbox (s : State) (t : Tx) : (s.send t).inbox = s.inbox := rfl
@[simp] theorem State.send_guard (s : State) (t : Tx) : (s.send t).guard = s.guard := rfl
@[simp] theorem State.send_tb (s : State) (t : Tx) : (s.send t).tb = s.tb := rfl
@[simp] theorem State.send_pwr (s : State) (t : Tx) : (s.send t).pwr = s.pwr := rfl
@[simp] theorem State.send_rpr (s : State) (t : Tx) : (s.send t).rpr = s.rpr := rfl
@[simp] theorem State.send_boot (s : State) (t : Tx) : (s.send t).boot = s.boot := rfl
@[simp] theorem State.send_obs (s : State) (t : Tx) : (s.send t).obs = s.obs := rfl
@[simp] theorem State.send_bmc (s : State) (t : Tx) : (s.send t).bmc = s.bmc := rfl
@[simp] theorem State.tickFree_pending (s : State)  : (s.tickFree).pending = s.pending := rfl
@[simp] theorem State.tickFree_resp (s : State)  : (s.tickFree).resp = s.resp := rfl
@[simp] theorem State.tickFree_tx (s : State)  : (s.tickFree).tx = s.tx := rfl
@[simp] theorem State.tickFree_wired (s : State)  : (s.tickFree).wired = s.wired := rfl
@[simp] theorem State.tickFree_txFloor (s : State)  : (s.tickFree).txFloor = s.txFloor := rfl
@[simp] theorem State.tickFree_host (s : State)  : (s.tickFree).host = s.host := rfl
@[simp] theorem State.tickFree_shadows (s : State)  : (s.tickFree).shadows = s.shadows := rfl
@[simp] theorem State.tickFree_cols (s : State)  : (s.tickFree).cols = s.cols := rfl
@[simp] theorem State.tickFree_nextCol (s : State)  : (s.tickFree).nextCol = s.nextCol := rfl
@[simp] theorem State.tickFree_jobs (s : State)  : (s.tickFree).jobs = s.jobs := rfl
@[simp] theorem State.tickFree_lostJobs (s : State)  : (s.tickFree).lostJobs = s.lostJobs := rfl
@[simp] theorem State.tickFree_gens (s : State)  : (s.tickFree).gens = s.gens := rfl
@[simp] theorem State.tickFree_order (s : State)  : (s.tickFree).order = s.order := rfl
@[simp] theorem State.tickFree_hives (s : State)  : (s.tickFree).hives = s.hives := rfl
@[simp] theorem State.tickFree_mesh (s : State)  : (s.tickFree).mesh = s.mesh := rfl
@[simp] theorem State.tickFree_arrivals (s : State)  : (s.tickFree).arrivals = s.arrivals := rfl
@[simp] theorem State.tickFree_seq (s : State)  : (s.tickFree).seq = s.seq := rfl
@[simp] theorem State.tickFree_sup (s : State)  : (s.tickFree).sup = s.sup := rfl
@[simp] theorem State.tickFree_mld (s : State)  : (s.tickFree).mld = s.mld := rfl
@[simp] theorem State.tickFree_models (s : State)  : (s.tickFree).models = s.models := rfl
@[simp] theorem State.tickFree_wax (s : State)  : (s.tickFree).wax = s.wax := rfl
@[simp] theorem State.tickFree_phx (s : State)  : (s.tickFree).phx = s.phx := rfl
@[simp] theorem State.tickFree_ovs (s : State)  : (s.tickFree).ovs = s.ovs := rfl
@[simp] theorem State.tickFree_ports (s : State)  : (s.tickFree).ports = s.ports := rfl
@[simp] theorem State.tickFree_tmo (s : State)  : (s.tickFree).tmo = s.tmo := rfl
@[simp] theorem State.tickFree_swarm (s : State)  : (s.tickFree).swarm = s.swarm := rfl
@[simp] theorem State.tickFree_inbox (s : State)  : (s.tickFree).inbox = s.inbox := rfl
@[simp] theorem State.tickFree_guard (s : State)  : (s.tickFree).guard = s.guard := rfl
@[simp] theorem State.tickFree_tb (s : State)  : (s.tickFree).tb = s.tb := rfl
@[simp] theorem State.tickFree_pwr (s : State)  : (s.tickFree).pwr = s.pwr := rfl
@[simp] theorem State.tickFree_rpr (s : State)  : (s.tickFree).rpr = s.rpr := rfl
@[simp] theorem State.tickFree_boot (s : State)  : (s.tickFree).boot = s.boot := rfl
@[simp] theorem State.tickFree_obs (s : State)  : (s.tickFree).obs = s.obs := rfl
@[simp] theorem State.tickFree_bmc (s : State)  : (s.tickFree).bmc = s.bmc := rfl
@[simp] theorem updFn_pending (fn : Fn) (g : FnSt → FnSt) (s : State) : (updFn fn g s).pending = s.pending := by cases fn <;> rfl
@[simp] theorem updFn_resp (fn : Fn) (g : FnSt → FnSt) (s : State) : (updFn fn g s).resp = s.resp := by cases fn <;> rfl
@[simp] theorem updFn_tx (fn : Fn) (g : FnSt → FnSt) (s : State) : (updFn fn g s).tx = s.tx := by cases fn <;> rfl
@[simp] theorem updFn_wired (fn : Fn) (g : FnSt → FnSt) (s : State) : (updFn fn g s).wired = s.wired := by cases fn <;> rfl
@[simp] theorem updFn_txFloor (fn : Fn) (g : FnSt → FnSt) (s : State) : (updFn fn g s).txFloor = s.txFloor := by cases fn <;> rfl
@[simp] theorem updFn_freeCtr (fn : Fn) (g : FnSt → FnSt) (s : State) : (updFn fn g s).freeCtr = s.freeCtr := by cases fn <;> rfl
@[simp] theorem updFn_shadows (fn : Fn) (g : FnSt → FnSt) (s : State) : (updFn fn g s).shadows = s.shadows := by cases fn <;> rfl
@[simp] theorem updFn_cols (fn : Fn) (g : FnSt → FnSt) (s : State) : (updFn fn g s).cols = s.cols := by cases fn <;> rfl
@[simp] theorem updFn_nextCol (fn : Fn) (g : FnSt → FnSt) (s : State) : (updFn fn g s).nextCol = s.nextCol := by cases fn <;> rfl
@[simp] theorem updFn_jobs (fn : Fn) (g : FnSt → FnSt) (s : State) : (updFn fn g s).jobs = s.jobs := by cases fn <;> rfl
@[simp] theorem updFn_lostJobs (fn : Fn) (g : FnSt → FnSt) (s : State) : (updFn fn g s).lostJobs = s.lostJobs := by cases fn <;> rfl
@[simp] theorem updFn_gens (fn : Fn) (g : FnSt → FnSt) (s : State) : (updFn fn g s).gens = s.gens := by cases fn <;> rfl
@[simp] theorem updFn_order (fn : Fn) (g : FnSt → FnSt) (s : State) : (updFn fn g s).order = s.order := by cases fn <;> rfl
@[simp] theorem updFn_hives (fn : Fn) (g : FnSt → FnSt) (s : State) : (updFn fn g s).hives = s.hives := by cases fn <;> rfl
@[simp] theorem updFn_mesh (fn : Fn) (g : FnSt → FnSt) (s : State) : (updFn fn g s).mesh = s.mesh := by cases fn <;> rfl
@[simp] theorem updFn_arrivals (fn : Fn) (g : FnSt → FnSt) (s : State) : (updFn fn g s).arrivals = s.arrivals := by cases fn <;> rfl
@[simp] theorem updFn_seq (fn : Fn) (g : FnSt → FnSt) (s : State) : (updFn fn g s).seq = s.seq := by cases fn <;> rfl
@[simp] theorem updFn_sup (fn : Fn) (g : FnSt → FnSt) (s : State) : (updFn fn g s).sup = s.sup := by cases fn <;> rfl
@[simp] theorem updFn_mld (fn : Fn) (g : FnSt → FnSt) (s : State) : (updFn fn g s).mld = s.mld := by cases fn <;> rfl
@[simp] theorem updFn_models (fn : Fn) (g : FnSt → FnSt) (s : State) : (updFn fn g s).models = s.models := by cases fn <;> rfl
@[simp] theorem updFn_wax (fn : Fn) (g : FnSt → FnSt) (s : State) : (updFn fn g s).wax = s.wax := by cases fn <;> rfl
@[simp] theorem updFn_phx (fn : Fn) (g : FnSt → FnSt) (s : State) : (updFn fn g s).phx = s.phx := by cases fn <;> rfl
@[simp] theorem updFn_ovs (fn : Fn) (g : FnSt → FnSt) (s : State) : (updFn fn g s).ovs = s.ovs := by cases fn <;> rfl
@[simp] theorem updFn_ports (fn : Fn) (g : FnSt → FnSt) (s : State) : (updFn fn g s).ports = s.ports := by cases fn <;> rfl
@[simp] theorem updFn_tmo (fn : Fn) (g : FnSt → FnSt) (s : State) : (updFn fn g s).tmo = s.tmo := by cases fn <;> rfl
@[simp] theorem updFn_swarm (fn : Fn) (g : FnSt → FnSt) (s : State) : (updFn fn g s).swarm = s.swarm := by cases fn <;> rfl
@[simp] theorem updFn_inbox (fn : Fn) (g : FnSt → FnSt) (s : State) : (updFn fn g s).inbox = s.inbox := by cases fn <;> rfl
@[simp] theorem updFn_guard (fn : Fn) (g : FnSt → FnSt) (s : State) : (updFn fn g s).guard = s.guard := by cases fn <;> rfl
@[simp] theorem updFn_tb (fn : Fn) (g : FnSt → FnSt) (s : State) : (updFn fn g s).tb = s.tb := by cases fn <;> rfl
@[simp] theorem updFn_pwr (fn : Fn) (g : FnSt → FnSt) (s : State) : (updFn fn g s).pwr = s.pwr := by cases fn <;> rfl
@[simp] theorem updFn_rpr (fn : Fn) (g : FnSt → FnSt) (s : State) : (updFn fn g s).rpr = s.rpr := by cases fn <;> rfl
@[simp] theorem updFn_boot (fn : Fn) (g : FnSt → FnSt) (s : State) : (updFn fn g s).boot = s.boot := by cases fn <;> rfl
@[simp] theorem updFn_obs (fn : Fn) (g : FnSt → FnSt) (s : State) : (updFn fn g s).obs = s.obs := by cases fn <;> rfl
@[simp] theorem updFn_bmc (fn : Fn) (g : FnSt → FnSt) (s : State) : (updFn fn g s).bmc = s.bmc := by cases fn <;> rfl

end Sys2Proof.Machine
end

