-- ==== Sys2Proof/Laws/Dance.lean ====
section
/-! SUPPORT. Laws/Dance.lean: all that the unit of a dancer's instruction does, in one lemma, and how the writes of an
instruction compose with it. -/

namespace Sys2Proof.Machine

/-- Only the glass, the counters and PF0's vector 6 moved, and the hives. -/
def OnlyGlass (s t : State) : Prop :=
  t = { s with
    hives := t.hives, tx := t.tx, host := { s.host with pf0 := { s.host.pf0 with pba := t.host.pf0.pba } }
    obs := { s.obs with live := t.obs.live, evt := t.obs.evt, drop := t.obs.drop, loss := t.obs.loss, buf := t.obs.buf } }

theorem onlyGlass_trans {s t u : State} (h : OnlyGlass s t) (k : OnlyGlass t u) : OnlyGlass s u := by
  rw [OnlyGlass] at *
  rw [h] at k
  exact k

theorem onlyGlass_hive (h : HiveId) (f : Hive → Hive) (s : State) : OnlyGlass s (updHive h f s) := rfl

theorem onlyGlass_cnt (h : HiveId) (k n : Nat) (s : State) : OnlyGlass s (cntHive h k n s) := rfl

theorem onlyGlass_cntCol (c : ColId) (k n : Nat) (s : State) : OnlyGlass s (cntCol c k n s) := rfl

theorem onlyGlass_obsEvent (w : Word) (s : State) : OnlyGlass s (obsEvent w s) := by
  unfold obsEvent raise
  split
  · rfl
  · split <;> rfl

theorem onlyGlass_put (bs : List Byte) (s : State) : OnlyGlass s (glassPut bs s) := by
  unfold glassPut
  split
  · rfl
  · exact onlyGlass_trans (t := { s with obs := { s.obs with drop := if s.obs.drop = 0xFFFFFFFF then s.obs.drop else s.obs.drop + 1, loss := true } })
      rfl (onlyGlass_obsEvent _ _)

theorem onlyGlass_glassHive (k : Nat) (h : HiveId) (slot code : Nat) (tl : List Byte) (s : State) :
    OnlyGlass s (glassHive k h slot code tl s) := by
  unfold glassHive
  split
  · rfl
  · split
    · exact onlyGlass_put _ _
    · rfl

theorem obsEvent_hives (w : Word) (s : State) : (obsEvent w s).hives = s.hives := by
  unfold obsEvent raise; split
  · rfl
  · split <;> rfl

theorem glassPut_hives (bs : List Byte) (s : State) : (glassPut bs s).hives = s.hives := by
  unfold glassPut; split
  · rfl
  · exact obsEvent_hives _ _

@[simp] theorem glassHive_hives (k : Nat) (h : HiveId) (slot code : Nat) (tl : List Byte) (s : State) :
    (glassHive k h slot code tl s).hives = s.hives := by
  unfold glassHive; split
  · rfl
  · split
    · exact glassPut_hives _ _
    · rfl

/-- The program of a hive is q but for the counts of its step, of which the third word is n, and nothing but the glass and
the counters moved beside it, and the counts on their way came nearer. -/
def Ran (h : HiveId) (q : Prog) (n : Nat) (s t : State) : Prop :=
  (∃ tr a b l, ((s.hv h).late = [] → l = []) ∧
    t.hv h = { s.hv h with late := l, run := some { q with tr := tr, stepCycles := n, stN := a, stP := b } }) ∧
  (∀ k, k ≠ h → t.hv k = s.hv k) ∧ OnlyGlass s t

theorem updRun_hv (h : HiveId) (f : Prog → Prog) (s : State) :
    (updRun h f s).hv h = { s.hv h with run := (s.hv h).run.map f } := by simp [updRun]

theorem updRun_other (h k : HiveId) (f : Prog → Prog) (s : State) (e : k ≠ h) : (updRun h f s).hv k = s.hv k :=
  updHive_hv_other _ _ _ _ e

theorem ageLate_nil {n : Nat} {l : List Landing} (h : l = []) : ageLate n l = [] := by rw [h]; rfl

theorem hiveCycles_ran (h : HiveId) (c w : Nat) (p : Prog) (s : State) (hr : (s.hv h).run = some p) :
    Ran h p p.stepCycles s (hiveCycles h c w s) := by
  have key : ∀ t : State, t.hives = (updHive h (fun hv => { hv with
      late := ageLate c hv.late, run := some { p with tr := { p.tr with cyc := p.tr.cyc + c, wait := p.tr.wait + w } } }) s).hives →
      OnlyGlass s t → Ran h p p.stepCycles s t := by
    intro t e g
    refine ⟨⟨{ p.tr with cyc := p.tr.cyc + c, wait := p.tr.wait + w }, p.stN, p.stP, ageLate c (s.hv h).late, ageLate_nil, ?_⟩, ?_, g⟩
    · simp only [State.hv, e]; simp only [updHive, updAt_same]
    · intro k hk; simp only [State.hv, e]; exact updAt_other _ _ _ _ hk
  unfold hiveCycles
  rw [hr]
  simp only []
  split <;> split <;> apply key <;> rfl

theorem stepRecord_ran (h : HiveId) (code : Nat) (p : Prog) (s : State) (hr : (s.hv h).run = some p) :
    Ran h p p.stepCycles s (stepRecord h code s) := by
  unfold stepRecord
  rw [hr]
  simp only []
  split
  · refine ⟨⟨{}, p.stN, p.stP, (s.hv h).late, id, ?_⟩, ?_, onlyGlass_trans (onlyGlass_glassHive _ _ _ _ _ _) rfl⟩
    · have : (glassHive 1 h p.slot code (stepTail p) s).hv h = s.hv h := by simp [State.hv]
      rw [updRun_hv, this, hr]; rfl
    · intro k hk
      rw [updRun_other _ _ _ _ hk]; simp [State.hv]
  · refine ⟨⟨p.tr, p.stN, p.stP, (s.hv h).late, id, ?_⟩, fun _ _ => rfl, rfl⟩
    rw [← hr]

theorem yieldPoint_ran (h : HiveId) (code : Nat) (p : Prog) (s : State) (hr : (s.hv h).run = some p) :
    Ran h p 0 s (yieldPoint h code s) := by
  obtain ⟨⟨tr, a, b, l, hl, e⟩, o, g⟩ := stepRecord_ran h code p s hr
  refine ⟨⟨tr, 0, 0, l, hl, ?_⟩, ?_, onlyGlass_trans g rfl⟩
  · unfold yieldPoint; rw [updRun_hv, e]; rfl
  · intro k hk; unfold yieldPoint; rw [updRun_other _ _ _ _ hk]; exact o k hk

/-- All that the unit of an instruction does before its own effect. -/
theorem startUnit_ran (h : HiveId) (c : Nat) (p : Prog) (s : State) (hr : (s.hv h).run = some p) :
    ∃ tr a b l, ((s.hv h).late = [] → l = []) ∧ (startUnit h c s).hv h =
        { s.hv h with step := false, late := l, run := some { p with tr := tr, stepCycles := stepAfter p.stepCycles c, stN := a, stP := b } } ∧
      (∀ k, k ≠ h → (startUnit h c s).hv k = s.hv k) ∧ OnlyGlass s (startUnit h c s) := by
  unfold startUnit spendUnit
  generalize hs1 : updHive h (fun hv => { hv with step := false }) s = s1
  have h1 : s1.hv h = { s.hv h with step := false } := by rw [← hs1]; simp
  have h1r : (s1.hv h).run = some p := by rw [h1]; exact hr
  have o1 : ∀ k, k ≠ h → s1.hv k = s.hv k := by intro k hk; rw [← hs1]; exact updHive_hv_other _ _ _ _ hk
  have g1 : OnlyGlass s s1 := by rw [← hs1]; rfl
  have fin : ∀ (s2 : State) (q : Prog), (s2.hv h).run = some q → (∃ tr n a b, q = { p with tr := tr, stepCycles := n, stN := a, stP := b } ∧
      n + c = stepAfter p.stepCycles c) → (∃ l, ((s.hv h).late = [] → l = []) ∧ s2.hv h = { s1.hv h with late := l, run := some q }) → (∀ k, k ≠ h → s2.hv k = s1.hv k) → OnlyGlass s1 s2 →
      ∃ tr a b l, ((s.hv h).late = [] → l = []) ∧ (updRun h (fun p => { p with stepCycles := p.stepCycles + c }) (hiveCycles h c 0 s2)).hv h =
        { s.hv h with step := false, late := l, run := some { p with tr := tr, stepCycles := stepAfter p.stepCycles c, stN := a, stP := b } } ∧
      (∀ k, k ≠ h → (updRun h (fun p => { p with stepCycles := p.stepCycles + c }) (hiveCycles h c 0 s2)).hv k = s.hv k) ∧
      OnlyGlass s (updRun h (fun p => { p with stepCycles := p.stepCycles + c }) (hiveCycles h c 0 s2)) := by
    rintro s2 q hq ⟨tr, n, a, b, rfl, hn⟩ ⟨l, hl, e2⟩ o2 g2
    obtain ⟨⟨tr', a', b', l', hl', e3⟩, o3, g3⟩ := hiveCycles_ran h c 0 _ s2 hq
    refine ⟨tr', a', b', l', fun e => hl' (by rw [e2]; exact hl e), ?_, ?_, ?_⟩
    · rw [updRun_hv, e3, e2, h1, ← hn]; rfl
    · intro k hk; rw [updRun_other _ _ _ _ hk, o3 k hk, o2 k hk, o1 k hk]
    · exact onlyGlass_trans g1 (onlyGlass_trans g2 (onlyGlass_trans g3 rfl))
  rw [h1r]
  simp only [decide_eq_true_eq]
  by_cases hc : 432 < p.stepCycles + c
  · rw [if_pos hc]
    obtain ⟨⟨tr, a, b, l, hl, e⟩, o, g⟩ := yieldPoint_ran h 2 p s1 h1r
    refine fin _ { p with tr := tr, stepCycles := 0, stN := a, stP := b } ?_ ⟨tr, 0, a, b, rfl, ?_⟩ ?_ o g
    · rw [e]
    · simp [stepAfter, hc]
    · exact ⟨l, fun x => hl (by rw [h1]; exact x), by rw [e]⟩
  · rw [if_neg hc]
    refine fin s1 p h1r ⟨p.tr, p.stepCycles, p.stN, p.stP, rfl, ?_⟩ ?_ (fun _ _ => rfl) rfl
    · simp [stepAfter, hc]
    · exact ⟨(s1.hv h).late, fun x => by rw [h1]; exact x, by rw [← h1r]⟩

/-- An instruction that issues waits for the counts that it needs, runs its unit and then its own effect. -/
theorem stepOp_waits {s : State} {h : HiveId} {p : Prog} {j : Job} {op : DOp} {f : Prog → Job → DOp → Option (State → State)}
    {g : State → State} (hi : s.issues h p j op) (hf : f p j op = some g) : 
    stepOp h f s = g (startUnit h (opCost s p j op) (waitFor h (opLands s h p op) s)) := by
  obtain ⟨h1, h2, h3, h4, h5⟩ := hi
  simp [stepOp, h1, h2, h3, h4, h5, hf]

/-- An instruction that issues and needs no count runs its unit and then its own effect. -/
theorem stepOp_issues {s : State} {h : HiveId} {p : Prog} {j : Job} {op : DOp} {f : Prog → Job → DOp → Option (State → State)}
    {g : State → State} (hi : s.issues h p j op) (hf : f p j op = some g) (hw : opLands s h p op = 0) :
    stepOp h f s = g (startUnit h (opCost s p j op) s) := by
  rw [stepOp_waits hi hf, hw]; rfl

/-- With no count on its way, no instruction waits for one. -/
theorem opLands_nil {s : State} {h : HiveId} (p : Prog) (op : DOp) (hl : (s.hv h).late = []) : opLands s h p op = 0 := by
  unfold opLands; rw [hl]; cases op <;> rfl

theorem dancing_run {s : State} {h : HiveId} {p : Prog} {j : Job} (hd : s.dancing h = some (p, j)) : (s.hv h).run = some p := by
  unfold State.dancing at hd
  cases hr : (s.hv h).run with
  | none => simp [hr] at hd
  | some q =>
    simp only [hr] at hd
    split at hd
    · simp at hd
    · split at hd
      · simp at hd
      · simp at hd; rw [hd.1]

/-- A unit followed by a change of the program alone. -/
theorem danced_updRun {s : State} {h : HiveId} {p : Prog} (c : Nat) (f : Prog → Prog) (q : Prog) (hr : (s.hv h).run = some p)
    (hf : ∀ tr a b, ∃ tr' a' b', f { p with tr := tr, stepCycles := stepAfter p.stepCycles c, stN := a, stP := b } =
      { q with tr := tr', stN := a', stP := b' }) :
    Danced h q s (updRun h f (startUnit h c s)) := by
  obtain ⟨tr, a, b, l, hl, e, o, g⟩ := startUnit_ran h c p s hr
  obtain ⟨tr', a', b', e'⟩ := hf tr a b
  refine ⟨⟨tr', a', b', l, hl, ?_⟩, ?_, ?_⟩
  · rw [updRun_hv, e]; simp only [Option.map_some, e']
  · intro k hk; rw [updRun_other _ _ _ _ hk]; exact o k hk
  · exact onlyGlass_trans g (rfl : OnlyGlass _ (updRun h f (startUnit h c s)))

end Sys2Proof.Machine
end

