-- ==== Sys2Proof/Laws/Ops.lean ====
section
/-! SUPPORT. Laws/Ops.lean: for each shared operation, once, everything it can do to the state. -/

namespace Sys2Proof.Machine

/-- Only what the part sends, the completion it returned, the configuration state of its functions, its outstanding reads and
the free values taken moved. -/
def OnlySent (s t : State) : Prop :=
  t = { s with
    tx := t.tx, resp := t.resp, freeCtr := t.freeCtr, host := { s.host with pf0 := t.host.pf0, vf := t.host.vf, reads := t.host.reads } }

theorem onlySent_refl (s : State) : OnlySent s s := rfl

theorem onlySent_trans {s t u : State} (h : OnlySent s t) (k : OnlySent t u) : OnlySent s u := by
  rw [OnlySent] at *
  rw [h] at k
  exact k

theorem onlySent_send (x : Tx) (s : State) : OnlySent s (s.send x) := rfl
theorem onlySent_reply (ws : List Word) (s : State) : OnlySent s (s.reply ws) := rfl
theorem onlySent_cpl (c : Cpl) (s : State) : OnlySent s (s.cpl c) := rfl

theorem onlySent_updFn (f : Fn) (g : FnSt → FnSt) (s : State) : OnlySent s (updFn f g s) := by
  cases f <;> rfl

theorem onlySent_aerUnc (f : Fn) (b : Nat) (s : State) : OnlySent s (aerUnc f b s) := by
  unfold aerUnc
  refine onlySent_trans (t := if _ then s.tickFree.tickFree else s) ?_ (onlySent_updFn _ _ _)
  split <;> rfl

theorem onlySent_refuse (f : Fn) (c : Cpl) (s : State) : OnlySent s (refuseReq f c s) := by
  cases c
  · exact onlySent_refl s
  · exact onlySent_trans (onlySent_aerUnc _ _ _) (onlySent_cpl _ _)
  · exact onlySent_trans (onlySent_aerUnc _ _ _) (onlySent_cpl _ _)

theorem onlySent_refusePosted (f : Fn) (c : Cpl) (s : State) : OnlySent s (refusePosted f c s) := by
  cases c
  · exact onlySent_refl s
  · exact onlySent_aerUnc _ _ _
  · exact onlySent_aerUnc _ _ _

theorem onlySent_handOver (f : Fn) (w : HeldTx) (s : State) : OnlySent s (handOver f w s) := by cases w <;> rfl

theorem onlySent_cellarTx (f : Fn) (w : HeldTx) (s : State) : OnlySent s (cellarTx f w s) := by
  unfold cellarTx
  split
  · exact onlySent_handOver _ _ _
  · exact onlySent_updFn _ _ _

theorem onlySent_cellarWrite (f : Fn) (k : TxKind) (a : Nat) (bs : List Byte) (s : State) : OnlySent s (cellarWrite f k a bs s) :=
  onlySent_cellarTx _ _ _

theorem onlySent_raise (f : Fn) (v : Nat) (s : State) : OnlySent s (raise f v s) := by
  unfold raise
  split
  · rfl
  · split
    · rfl
    · exact onlySent_updFn _ _ _

theorem onlySent_raiseAll (vs : List Nat) (s : State) : OnlySent s (raiseAll vs s) := by
  induction vs generalizing s with
  | nil => rfl
  | cons v r ih => exact onlySent_trans (onlySent_raise .pf0 v s) (ih _)

theorem onlySent_flushPba (f : Fn) (vs : List Nat) (s : State) : OnlySent s (flushPba f vs s) := by
  induction vs generalizing s with
  | nil => rfl
  | cons v r ih =>
    unfold flushPba
    split
    · exact onlySent_trans (onlySent_trans (onlySent_send _ s) (onlySent_updFn f _ _)) (ih _)
    · exact ih s

theorem onlySent_flushHeld (f : Fn) (s : State) : OnlySent s (flushHeld f s) := by
  unfold flushHeld
  split
  · generalize (s.fn f).held = l
    refine onlySent_trans (onlySent_updFn f (fun x => { x with held := [] }) s) ?_
    generalize updFn f (fun x => { x with held := [] }) s = t
    induction l generalizing t with
    | nil => rfl
    | cons w r ih => exact onlySent_trans (onlySent_handOver _ _ t) (ih _)
  · rfl

/-- A vector of PF0 touches only its pending bit or what is sent. -/
theorem onlyGlass_raise (v : Nat) (s : State) : OnlyGlass s (raise .pf0 v s) := by
  unfold raise
  split
  · rfl
  · split <;> rfl

theorem onlyGlass_raiseAll (vs : List Nat) (s : State) : OnlyGlass s (raiseAll vs s) := by
  induction vs generalizing s with
  | nil => rfl
  | cons v r ih => exact onlyGlass_trans (onlyGlass_raise v s) (ih _)

theorem onlyGlass_glassJob (k : Nat) (c : ColId) (tag : BitVec 16) (code : Nat) (tl : List Byte) (s : State) :
    OnlyGlass s (glassJob k c tag code tl s) := by
  unfold glassJob
  split
  · exact onlyGlass_put _ _
  · rfl

theorem onlyGlass_glassEvent (e : EvSrc) (w : Word) (s : State) : OnlyGlass s (glassEvent e w s) := by
  unfold glassEvent
  split
  · exact onlyGlass_put _ _
  · rfl

theorem onlyGlass_cntBank (b : BankId) (k n : Nat) (s : State) : OnlyGlass s (cntBank b k n s) := rfl

@[simp] theorem raise_hives (f : Fn) (v : Nat) (s : State) : (raise f v s).hives = s.hives := by
  have h := onlySent_raise f v s
  rw [OnlySent] at h
  rw [h]

@[simp] theorem raiseAll_hives (vs : List Nat) (s : State) : (raiseAll vs s).hives = s.hives := by
  have h := onlySent_raiseAll vs s
  rw [OnlySent] at h
  rw [h]

@[simp] theorem glassEvent_hives (e : EvSrc) (w : Word) (s : State) : (glassEvent e w s).hives = s.hives := by
  unfold glassEvent
  split
  · exact glassPut_hives _ _
  · rfl

@[simp] theorem glassJob_hives (k : Nat) (c : ColId) (tag : BitVec 16) (code : Nat) (tl : List Byte) (s : State) :
    (glassJob k c tag code tl s).hives = s.hives := by
  unfold glassJob
  split
  · exact glassPut_hives _ _
  · rfl

@[simp] theorem evGet_evSet (e : EvSrc) (v : Word) (s : State) : evGet (evSet e v s) e = v := by
  cases e <;> simp only [evGet, evSet, updRow, updBank, updPort, updHive, updAt_same]

/-- All that an event does: its register takes the bits, and beside that only the glass and PF0's vectors move. -/
theorem postEvent_says (e : EvSrc) (w : Word) (s : State) :
    OnlyGlass (evSet e (evGet s e ||| w) s) (postEvent e w s) ∧ (postEvent e w s).hives = (evSet e (evGet s e ||| w) s).hives := by
  refine ⟨onlyGlass_trans (onlyGlass_glassEvent _ _ _) (onlyGlass_raiseAll _ _), ?_⟩
  simp [postEvent]

/-- All that a colony error does: its bit of COL_ERR, and beside that only vector 2 of the VF. -/
theorem colErr_says (c : ColId) (b : Nat) (s : State) :
    OnlySent (updVf c (fun r => { r with err := setBit r.err b }) s) (colErr c b s) := onlySent_raise _ _ _

/-- The queue, the jobs, the fuses and the repair map stand through everything that only sends. -/
theorem onlySent_keeps {s t : State} (h : OnlySent s t) : t.pending = s.pending ∧ t.jobs = s.jobs ∧ t.hives = s.hives ∧
    t.cols = s.cols ∧ t.sup = s.sup ∧ t.guard = s.guard ∧ t.rpr = s.rpr ∧ t.swarm = s.swarm ∧ t.wax = s.wax := by
  rw [OnlySent] at h
  rw [h]
  exact ⟨rfl, rfl, rfl, rfl, rfl, rfl, rfl, rfl, rfl⟩

/-- The queue, the jobs, the fuses and the repair map stand through everything that moves the glass only. -/
theorem onlyGlass_keeps {s t : State} (h : OnlyGlass s t) : t.pending = s.pending ∧ t.jobs = s.jobs ∧ t.cols = s.cols ∧
    t.sup = s.sup ∧ t.guard = s.guard ∧ t.rpr = s.rpr ∧ t.swarm = s.swarm ∧ t.wax = s.wax := by
  rw [OnlyGlass] at h
  rw [h]
  exact ⟨rfl, rfl, rfl, rfl, rfl, rfl, rfl, rfl⟩

/-- A step takes the front of the queue, or lets a cycle pass. -/
theorem step_cons (c : Instr) (q : List Instr) (s : State) (h : s.pending = c :: q) : step s = exec c { s with pending := q } := by
  simp [step, h]

end Sys2Proof.Machine
end

