-- ==== Sys2Proof/Laws/Link.lean ====
section
/-! SUPPORT. Laws/Link.lean: what sending on an Exoth port, and a served request of the expander, can do to the state. -/

namespace Sys2Proof.Machine

/-- Only one port, and what the part sends, moved. -/
def OnlyPort (p : PortId) (s t : State) : Prop := t = { s with ports := t.ports, tx := t.tx } ∧ ∀ q : PortId, q ≠ p → t.ports[q] = s.ports[q]

theorem onlyPort_refl (p : PortId) (s : State) : OnlyPort p s s := ⟨rfl, fun _ _ => rfl⟩

theorem onlyPort_trans {p : PortId} {s t u : State} (h : OnlyPort p s t) (k : OnlyPort p t u) : OnlyPort p s u := by
  obtain ⟨h, hp⟩ := h
  obtain ⟨k, kp⟩ := k
  refine ⟨?_, fun q hq => (kp q hq).trans (hp q hq)⟩
  rw [h] at k
  exact k

theorem onlyPort_updPort (p : PortId) (f : Port → Port) (s : State) : OnlyPort p s (updPort p f s) := by
  refine ⟨rfl, fun q hq => ?_⟩
  simp only [updPort, updAt, Fin.getElem_fin, Vector.getElem_set]
  rw [if_neg (fun e => hq (Fin.ext e.symm))]

theorem onlyPort_send (p : PortId) (x : Tx) (s : State) : OnlyPort p s (s.send x) := ⟨rfl, fun _ _ => rfl⟩

theorem onlyPort_emitOne (p : PortId) (bs : List Byte) (s : State) : OnlyPort p s (emitOne p bs s) := by
  dsimp only [emitOne]
  split
  · exact onlyPort_trans (onlyPort_updPort p _ s) (onlyPort_updPort p _ _)
  · exact onlyPort_trans (onlyPort_updPort p _ s) (onlyPort_send p _ _)

theorem onlyPort_emitIdles (p : PortId) (n : Nat) (s : State) : OnlyPort p s (emitIdles p n s) := by
  induction n generalizing s with
  | zero => exact onlyPort_refl p s
  | succ n ih =>
    simp only [emitIdles]
    split
    · exact onlyPort_trans (onlyPort_emitOne p _ s) (ih _)
    · exact onlyPort_refl p s

/-- A flit that is sent moves its port, and what the part sends. -/
theorem onlyPort_emit (p : PortId) (bs : List Byte) (s : State) : OnlyPort p s (emit p bs s) :=
  onlyPort_trans (onlyPort_emitIdles p 2 s) (onlyPort_emitOne p bs _)

theorem onlyPort_sendFlit (p : PortId) (k : Nat) (som eom : Bool) (b : List Byte) (s : State) : OnlyPort p s (sendFlit p k som eom b s) :=
  onlyPort_trans (onlyPort_updPort p _ s) (onlyPort_emit p _ _)

theorem onlyPort_keeps {p : PortId} {s t : State} (h : OnlyPort p s t) : t.pending = s.pending ∧ t.jobs = s.jobs ∧ t.hives = s.hives ∧
    t.cols = s.cols ∧ t.guard = s.guard ∧ t.swarm = s.swarm ∧ t.rpr = s.rpr ∧ t.sup = s.sup := by
  rw [h.1]; exact ⟨rfl, rfl, rfl, rfl, rfl, rfl, rfl, rfl⟩

/-- Only the entropy block moved. -/
def OnlyEntropy (s t : State) : Prop := t = { s with guard := { s.guard with en := t.guard.en } }

theorem onlyEntropy_refl (s : State) : OnlyEntropy s s := rfl

theorem onlyEntropy_trans {s t u : State} (h : OnlyEntropy s t) (k : OnlyEntropy t u) : OnlyEntropy s u := by
  rw [OnlyEntropy] at *
  rw [h] at k
  exact k

theorem onlyEntropy_updEn (f : EntropySt → EntropySt) (s : State) : OnlyEntropy s (updEn f s) := rfl

theorem onlyEntropy_unthrottle (s : State) : OnlyEntropy s (unthrottle s) := by
  unfold unthrottle
  split
  · exact onlyEntropy_updEn _ s
  · exact onlyEntropy_refl s

/-- A request that has been served moves the turn, and may end THROTTLED. -/
theorem onlyEntropy_served (k : Consumer) (s : State) : OnlyEntropy s (served k s) :=
  onlyEntropy_trans (onlyEntropy_updEn _ s) (onlyEntropy_unthrottle _)

theorem onlyEntropy_keeps {s t : State} (h : OnlyEntropy s t) : t.pending = s.pending ∧ t.jobs = s.jobs ∧ t.hives = s.hives ∧
    t.guard.lc = s.guard.lc ∧ t.guard.seals = s.guard.seals ∧ t.tx = s.tx := by
  rw [h]; exact ⟨rfl, rfl, rfl, rfl, rfl, rfl⟩

end Sys2Proof.Machine
end

