-- ==== Sys2Proof/Laws/Tab.lean ====
section
/-! SUPPORT. Laws/Tab.lean: reading a table after a write, and that every operation on tables and memories keeps the
canonical form. -/

namespace Sys2Proof.Machine

variable {α : Type} [DecidableEq α]

theorem tabWfFrom_le {d : α} {t : List (Nat × α)} {lo lo' : Nat} (h : lo' ≤ lo) (w : tabWfFrom d lo t = true) : tabWfFrom d lo' t = true := by
  cases t with
  | nil => rfl
  | cons e r =>
    obtain ⟨b, v⟩ := e
    simp only [tabWfFrom, Bool.and_eq_true, decide_eq_true_eq] at w ⊢
    exact ⟨⟨by omega, w.1.2⟩, w.2⟩

/-- A key below every key of a canonical table is not listed. -/
theorem tabGet_below {d : α} {t : List (Nat × α)} {lo a : Nat} (w : tabWfFrom d lo t = true) (h : a < lo) : tabGet d t a = d := by
  induction t generalizing lo with
  | nil => rfl
  | cons e r ih =>
    obtain ⟨b, v⟩ := e
    simp only [tabWfFrom, Bool.and_eq_true, decide_eq_true_eq] at w
    simp only [tabGet]
    rw [if_neg (by omega)]
    exact ih w.2 (by omega)

theorem tabSet_wfFrom {d : α} {t : List (Nat × α)} {lo a : Nat} (v : α) (w : tabWfFrom d lo t = true) (h : lo ≤ a) :
    tabWfFrom d lo (tabSet d t a v) = true := by
  induction t generalizing lo with
  | nil =>
    simp only [tabSet]
    split <;> simp_all [tabWfFrom]
  | cons e r ih =>
    obtain ⟨b, u⟩ := e
    have w' := w
    simp only [tabWfFrom, Bool.and_eq_true, decide_eq_true_eq] at w
    obtain ⟨⟨hb, hu⟩, hr⟩ := w
    simp only [tabSet]
    split
    · split
      · exact w'
      · simp only [tabWfFrom, Bool.and_eq_true, decide_eq_true_eq]
        exact ⟨⟨h, ‹_›⟩, ⟨by omega, hu⟩, hr⟩
    · split
      · split
        · exact tabWfFrom_le (by omega) hr
        · simp only [tabWfFrom, Bool.and_eq_true, decide_eq_true_eq]
          exact ⟨⟨h, ‹_›⟩, by subst a; exact hr⟩
      · simp only [tabWfFrom, Bool.and_eq_true, decide_eq_true_eq]
        exact ⟨⟨hb, hu⟩, ih hr (by omega)⟩

/-- A write keeps the canonical form. -/
theorem tabSet_wf {d : α} {t : List (Nat × α)} (a : Nat) (v : α) (w : tabWf d t = true) : tabWf d (tabSet d t a v) = true :=
  tabSet_wfFrom v w (Nat.zero_le a)

/-- A key reads as what was written there, and every other key as before. -/
theorem tabGet_tabSetFrom {d : α} {t : List (Nat × α)} {lo : Nat} (a k : Nat) (v : α) (w : tabWfFrom d lo t = true) :
    tabGet d (tabSet d t a v) k = if k = a then v else tabGet d t k := by
  induction t generalizing lo with
  | nil =>
    simp only [tabSet]
    split
    · simp_all [tabGet]
    · simp [tabGet]
  | cons e r ih =>
    obtain ⟨b, u⟩ := e
    simp only [tabWfFrom, Bool.and_eq_true, decide_eq_true_eq] at w
    obtain ⟨⟨hb, hu⟩, hr⟩ := w
    simp only [tabSet]
    split
    · rename_i hab
      split
      · rename_i hv
        split
        · rename_i hk
          subst hk
          simp only [tabGet]
          rw [if_neg (by omega), tabGet_below hr (by omega), hv]
        · rfl
      · simp only [tabGet]
    · split
      · rename_i hab
        subst hab
        split
        · rename_i hv
          split
          · rename_i hk
            subst hk
            rw [tabGet_below hr (by omega), hv]
          · rename_i hk
            simp only [tabGet]
            rw [if_neg hk]
        · simp only [tabGet]
          split <;> rfl
      · simp only [tabGet, ih hr]
        by_cases h1 : k = b
        · rw [if_pos h1, if_neg (by omega), if_pos h1]
        · rw [if_neg h1, if_neg h1]

theorem tabGet_tabSet {d : α} {t : List (Nat × α)} (a k : Nat) (v : α) (w : tabWf d t = true) :
    tabGet d (tabSet d t a v) k = if k = a then v else tabGet d t k :=
  tabGet_tabSetFrom a k v w

theorem tabFilter_wfFrom {d : α} {t : List (Nat × α)} {lo : Nat} (p : Nat × α → Bool) (w : tabWfFrom d lo t = true) :
    tabWfFrom d lo (t.filter p) = true := by
  induction t generalizing lo with
  | nil => rfl
  | cons e r ih =>
    obtain ⟨b, u⟩ := e
    simp only [tabWfFrom, Bool.and_eq_true, decide_eq_true_eq] at w
    simp only [List.filter_cons]
    split
    · simp only [tabWfFrom, Bool.and_eq_true, decide_eq_true_eq]
      exact ⟨w.1, ih w.2⟩
    · exact tabWfFrom_le (by omega) (ih w.2)

/-- Clearing a range keeps the canonical form. -/
theorem tabClear_wf {d : α} {t : List (Nat × α)} (lo n : Nat) (w : tabWf d t = true) : tabWf d (tabClear t lo n) = true :=
  tabFilter_wfFrom _ w

omit [DecidableEq α] in
/-- A cleared range reads as the default, and every other key as before. -/
theorem tabGet_tabClear {d : α} (t : List (Nat × α)) (lo n k : Nat) :
    tabGet d (tabClear t lo n) k = if lo ≤ k ∧ k < lo + n then d else tabGet d t k := by
  induction t with
  | nil => simp [tabClear, tabGet]
  | cons e r ih =>
    obtain ⟨b, u⟩ := e
    simp only [tabClear] at ih
    simp only [tabClear, List.filter_cons]
    split
    · rename_i hb
      simp only [tabGet, ih]
      simp only [Bool.or_eq_true, decide_eq_true_eq] at hb
      by_cases hk : k = b
      · rw [if_pos hk, if_neg (by omega), if_pos hk]
      · rw [if_neg hk, if_neg hk]
    · rename_i hb
      simp only [Bool.or_eq_true, decide_eq_true_eq, not_or] at hb
      rw [ih]
      split
      · rfl
      · simp only [tabGet]
        rw [if_neg (by omega)]

theorem memWrite_wf {m : Memory} (a : Nat) (b : Byte) (w : m.wf = true) : (memWrite m a b).wf = true := tabSet_wf a b w

theorem memRead_memWrite {m : Memory} (a k : Nat) (b : Byte) (w : m.wf = true) : memRead (memWrite m a b) k = if k = a then b else memRead m k :=
  tabGet_tabSet a k b w

theorem memWriteN_wf {m : Memory} (a : Nat) (bs : List Byte) (w : m.wf = true) : (memWriteN m a bs).wf = true := by
  induction bs generalizing m a with
  | nil => exact w
  | cons b r ih => exact ih (a + 1) (memWrite_wf a b w)

/-- A byte outside the bytes written reads as before. -/
theorem memRead_memWriteN_out {m : Memory} (a k : Nat) (bs : List Byte) (w : m.wf = true) (h : k < a ∨ a + bs.length ≤ k) :
    memRead (memWriteN m a bs) k = memRead m k := by
  induction bs generalizing m a with
  | nil => rfl
  | cons b r ih =>
    simp only [List.length_cons] at h
    simp only [memWriteN]
    rw [ih (a + 1) (memWrite_wf a b w) (by omega), memRead_memWrite a k b w, if_neg (by omega)]

/-- A byte inside the bytes written reads as the byte written there. -/
theorem memRead_memWriteN_in {m : Memory} (a i : Nat) (bs : List Byte) (w : m.wf = true) (h : i < bs.length) :
    memRead (memWriteN m a bs) (a + i) = bs[i] := by
  induction bs generalizing m a i with
  | nil => exact absurd h (by simp)
  | cons b r ih =>
    simp only [memWriteN]
    cases i with
    | zero =>
      rw [memRead_memWriteN_out _ _ _ (memWrite_wf a b w) (by omega), memRead_memWrite a _ b w, if_pos (by omega)]
      rfl
    | succ j =>
      simp only [List.length_cons] at h
      have := ih (m := memWrite m a b) (a + 1) j (memWrite_wf a b w) (by omega)
      rw [show a + (j + 1) = a + 1 + j by omega, this]
      rfl

theorem memReadN_congr {m k : Memory} (a n : Nat) (h : ∀ i, i < n → memRead m (a + i) = memRead k (a + i)) : memReadN m a n = memReadN k a n := by
  induction n generalizing a with
  | zero => rfl
  | succ n ih =>
    simp only [memReadN]
    rw [ih (a + 1) fun i hi => by have := h (i + 1) (by omega); rwa [show a + (i + 1) = a + 1 + i by omega] at this]
    rw [show memRead m a = memRead k a from h 0 (by omega)]

/-- Bytes written read back. -/
theorem memReadN_memWriteN {m : Memory} (a : Nat) (bs : List Byte) (w : m.wf = true) : memReadN (memWriteN m a bs) a bs.length = bs := by
  induction bs generalizing m a with
  | nil => rfl
  | cons b r ih =>
    simp only [List.length_cons, memReadN]
    rw [show memRead (memWriteN m a (b :: r)) a = b from memRead_memWriteN_in a 0 (b :: r) w (by simp)]
    rw [show memWriteN m a (b :: r) = memWriteN (memWrite m a b) (a + 1) r from rfl, ih (a + 1) (memWrite_wf a b w)]

/-- Bytes written outside a range leave what the range reads as. -/
theorem memReadN_memWriteN_out {m : Memory} (a k n : Nat) (bs : List Byte) (w : m.wf = true) (h : k + n ≤ a ∨ a + bs.length ≤ k) :
    memReadN (memWriteN m a bs) k n = memReadN m k n :=
  memReadN_congr k n fun i hi => memRead_memWriteN_out a (k + i) bs w (by omega)

theorem memWriteWrap_wf {m : Memory} (base size off : Nat) (bs : List Byte) (w : m.wf = true) : (memWriteWrap m base size off bs).wf = true := by
  induction bs generalizing m off with
  | nil => exact w
  | cons b r ih => exact ih (off + 1) (memWrite_wf _ b w)

theorem memWriteLE_wf {m : Memory} (a n v : Nat) (w : m.wf = true) : (memWriteLE m a n v).wf = true := memWriteN_wf a _ w

theorem memWrite32_wf {m : Memory} (a : Nat) (v : Word) (w : m.wf = true) : (memWrite32 m a v).wf = true := memWriteLE_wf a 4 _ w

theorem memZero_wf {m : Memory} (a n : Nat) (w : m.wf = true) : (memZero m a n).wf = true := by
  unfold memZero
  exact tabClear_wf a n w

end Sys2Proof.Machine
end

