-- ==== Sys2Proof/Machine/CfgSpace.lean ====
section
/-! DEFINITION. Machine/CfgSpace.lean: what configuration space returns (R268 to R274, Table 12.2) and where the BARs lie
(R272, R273). Bit places and the values of registers that the table does not name are the Base specification's (log entry
6). -/

namespace Sys2Proof.Machine

/-- The header of an extended capability: ID, version, next. -/
def extCap (id ver next : Nat) : Word := mkWord [(0, 16, id), (16, 4, ver), (20, 12, next)]

/-- A type 0 header (Table 12.2). -/
def State.cfgHeader (s : State) (fn : Fn) (o : Nat) : Word :=
  let f := s.fn fn
  let pf := fn == .pf0
  match o with
  | 0x00 => if pf then 0x4B961F4C else 0xFFFFFFFF
  | 0x04 => mkWord [(1, 1, b2n (pf && f.mse)), (2, 1, b2n f.bme), (20, 1, 1)]
  | 0x08 => 0x12000031
  | 0x10 => if pf then f.bar0.setWidth 32 ||| 4 else 0
  | 0x14 => if pf then (f.bar0 >>> 32).setWidth 32 else 0
  | 0x18 => if pf then f.bar2.setWidth 32 ||| 0xC else 0
  | 0x1C => if pf then (f.bar2 >>> 32).setWidth 32 else 0
  | 0x2C => 0x00011F4C
  | 0x34 => if pf then 0x40 else 0x50
  | _ => 0

/-- Power management of PF0, MSI-X, and the PCI Express capability. -/
def State.cfgCaps (s : State) (fn : Fn) (o : Nat) : Word :=
  let f := s.fn fn
  let pf := fn == .pf0
  let l := s.host.link
  match o with
  | 0x40 => if pf then 0x00035001 else 0
  | 0x44 => if pf then mkWord [(0, 2, f.powerState.toNat), (3, 1, 1)] else 0
  | 0x50 => mkWord [(0, 8, 0x11), (8, 8, 0x60), (16, 11, if pf then 63 else 3), (30, 1, b2n f.msixMask), (31, 1, b2n f.msixEn)]
  | 0x54 => if pf then 0x000D0000 else 0x6000
  | 0x58 => if pf then 0x000D0800 else 0x6800
  | 0x60 => 0x00020010
  | 0x64 => mkWord [(0, 3, 2), (5, 1, 1), (15, 1, 1), (28, 1, 1)]
  | 0x68 => mkWord [(0, 4, f.errEn.toNat), (4, 1, b2n f.relaxed), (5, 3, if pf then f.mps.toNat else 0), (8, 1, b2n pf)
                    , (12, 3, if pf then f.mrrs.toNat else 0), (16, 4, f.devSta.toNat)
                    , (21, 1, b2n (s.host.reads.any fun x => match x.2 with
                        | .entry c _ => fn == .vf c
                        | .input n _ => ((s.job? n).map fun j => fn == .vf j.col).getD false
                        | _ => pf))]
  | 0x6C => mkWord [(0, 4, 5), (4, 6, 16), (22, 1, 1)]
  | 0x70 => mkWord [(16, 4, l.speed), (20, 6, l.width), (28, 1, 1), (29, 1, b2n l.up)]
  | 0x84 => mkWord [(0, 4, 3), (4, 1, 1), (16, 1, 1), (17, 1, 1)]
  | 0x88 => mkWord [(0, 4, f.cto.toNat), (4, 1, b2n f.ctoDis), (12, 1, b2n (pf && f.tag10))]
  | 0x8C => 0x3E
  | 0x90 => if pf then 5 else 0
  | _ => 0

/-- AER, ARI, SR-IOV and the serial number; of the capabilities of the physical layers only the headers are fixed. -/
def State.cfgExt (s : State) (fn : Fn) (o : Nat) : Word :=
  let f := s.fn fn
  let p := s.host.pf0
  let v := s.host.sriov
  let pf := fn == .pf0
  match o with
  | 0x100 => extCap 1 2 0x148
  | 0x104 => f.aerUnc
  | 0x108 => if pf then p.aerUncMask else 0
  | 0x10C => if pf then p.aerSev else 0
  | 0x110 => f.aerCor
  | 0x114 => if pf then p.aerCorMask else 0
  | 0x118 => mkWord [(0, 5, f.firstErr.toNat), (5, 1, 1), (6, 1, b2n (pf && p.ecrcGen)), (7, 1, 1), (8, 1, b2n (pf && p.ecrcChk))]
  | 0x11C => f.hdrLog.setWidth 32
  | 0x120 => (f.hdrLog >>> 32).setWidth 32
  | 0x124 => (f.hdrLog >>> 64).setWidth 32
  | 0x128 => (f.hdrLog >>> 96).setWidth 32
  | 0x148 => extCap 0xE 1 (if pf then 0x150 else 0)
  | _ =>
    if !pf then 0
    else match o with
    | 0x150 => extCap 0x10 1 0x190
    | 0x154 => mkWord [(2, 1, 1)]
    | 0x158 => mkWord [(0, 1, b2n v.vfEnable), (3, 1, b2n v.vfMse), (4, 1, b2n v.ari), (5, 1, b2n v.tag10)]
    | 0x15C => 0x00400040
    | 0x160 => BitVec.ofNat 32 v.numVfs
    | 0x164 => 0x00010001
    | 0x168 => 0x4B970000
    | 0x16C => 1
    | 0x170 => v.pageSize
    | 0x174 => v.bar0.setWidth 32 ||| 4
    | 0x178 => (v.bar0 >>> 32).setWidth 32
    | 0x190 => extCap 0x19 1 0x1C0
    | 0x1C0 => extCap 0x25 1 0x1D0
    | 0x1D0 => extCap 0x26 1 0x200
    | 0x200 => extCap 0x2A 1 0x230
    | 0x230 => extCap 0x27 1 0x280
    | 0x280 => extCap 3 1 0
    | 0x284 => Config.dsn.setWidth 32
    | 0x288 => (Config.dsn >>> 32).setWidth 32
    | _ => 0

/-- Registers of the link and physical layer capabilities whose values are no part of this manual. -/
def cfgPhysical (o : Nat) : Bool :=
  (decide (0x194 ≤ o) && decide (o < 0x1C0)) || (decide (0x1C4 ≤ o) && decide (o < 0x1D0)) ||
  (decide (0x1D4 ≤ o) && decide (o < 0x200)) || (decide (0x204 ≤ o) && decide (o < 0x230)) || (decide (0x234 ≤ o) && decide (o < 0x280))

/-- A configuration read of the DW at an offset (R271); `Config.cfgOther` stands for what the capabilities of the physical
layers hold. -/
def State.cfgRead (s : State) (fn : Fn) (o : Nat) : Word :=
  if o < 0x40 then s.cfgHeader fn o
  else if o < 0x100 then s.cfgCaps fn o
  else if fn == .pf0 && cfgPhysical o then Config.cfgOther o
  else s.cfgExt fn o

/-- The first address of BAR0 of a function: VF n, that of colony n - 1, lies at VF BAR0 + (n - 1) x 0x1_0000 (R272, R273). -/
def State.bar0At (s : State) : Fn → Nat
  | .pf0 => s.host.pf0.bar0.toNat
  | .vf c => s.host.sriov.bar0.toNat + c.val * 0x10000

/-- The BAR that a memory address falls into, with the offset in it: BAR0 of a function, or BAR2 of PF0 (R272, R273). -/
def State.barHit (s : State) (a : Nat) : Option (Fn × Bool × Nat) :=
  let b := s.host.pf0.bar0.toNat
  let w := s.host.pf0.bar2.toNat
  let v := s.host.sriov.bar0.toNat
  if s.host.pf0.mse && decide (b ≤ a) && decide (a < b + 0x4000000) then some (.pf0, false, a - b)
  else if s.host.pf0.mse && decide (w ≤ a) && decide (a < w + 0x10000000) then some (.pf0, true, a - w)
  else if s.host.sriov.vfMse && decide (v ≤ a) && decide (a < v + 0x400000) then
    let c : ColId := Fin.ofNat 64 ((a - v) / 0x10000)
    if s.vfExists c then some (.vf c, false, (a - v) % 0x10000) else none
  else none

end Sys2Proof.Machine
end

