-- ==== Sys2Proof/WellFormed.lean ====
section
/-! DEFINITION. WellFormed.lean: what a command's operands must satisfy to spell an event that the manual describes:
lengths of descriptors, flits and noise windows, aligned offsets, ranges of numbers that have no type of their own. A command
that is not well-formed is still given a meaning; the checks say which commands stand for something. -/

namespace Sys2Proof

/-- A register write has whole words at an aligned address, and no more bytes than one request carries. -/
def wfTgt : WriteTgt → Bool
  | .bar _ off ws _ => off % 4 == 0 && !ws.isEmpty && decide (ws.length ≤ 128)
  | .cfg _ _ v _ => decide (v < 2 ^ 32)

/-- A calibration that succeeds gives the eight entries of a bank (R113). -/
def wfCal : CalRes → Bool
  | .ok ents _ _ => ents.length == 8
  | .fail _ _ => true

/-- What the scrubber found names comb store rows and words that exist. -/
def wfScrub (f : ScrubFind) : Bool := f.rows.all (· < 1536) && f.uncorrectable.all (· < 196608)

/-- A BAR2 access moves at least one word or byte. -/
def wfBar2 : Bar2 → Bool
  | .read _ n => decide (0 < n)
  | .write _ bs => !bs.isEmpty

/-- Vectors of a function (R278). -/
def wfVecs : Fn → Nat
  | .pf0 => 64
  | .vf _ => 4

/-- The operands of a command are well-formed. -/
def Instr.wf : Instr → Bool
  | .registerWrite t => wfTgt t
  | .phxLossOfLock _ cause worst _ => cause != 1 || decide (8 * 256 < worst.toNat)
  | .pairLoRead _ off _ => off % 4 == 0
  | .pairHiRead _ off => off % 4 == 0
  | .phxCalDone _ r => wfCal r
  | .combStoreScrub found => found.all wfScrub
  | .bar2Access a => wfBar2 a
  | .jobFetch _ _ bytes => bytes.length == 64
  | .queueConfigWrite _ off _ => decide (0x1000 ≤ off) && decide (off < 0x1080) && off % 4 == 0
  | .mailboxWrite _ off bytes => !bytes.isEmpty && decide (off < 512)
  | .msixUnmask fn v => decide (v < wfVecs fn)
  | .foragerDescriptor _ bytes => bytes.length == 32
  | .cellarReadFail _ why => why != .ok
  | .linkUp width speed => (width == 4 || width == 8 || width == 16) && decide (1 ≤ speed) && decide (speed ≤ 5)
  | .flitReceive _ bytes => bytes.length == 16
  | .train f | .retrain f => f.bytes.length == 16
  | .status _ bytes => bytes.length == 16
  | .nak _ bytes => bytes.length == 16
  | .dispatch _ d => decide (d.cls ≤ 2)
  | .reject _ code _ => decide (code < 256)
  | .swStop _ reason => decide (reason < 256)
  | .timeout _ dst port => decide (dst < 64) && decide (port < 4)
  | .tick _ _ _ sub _ => decide (sub < 1500000000)
  | .add _ _ acc vals => decide (acc + vals.length ≤ 1024)
  | .move _ _ _ data => !data.isEmpty
  | .ckptData _ _ _ _ data => !data.isEmpty
  | .ckptLoad _ _ _ _ data => !data.isEmpty
  | .token _ value _ list => decide (value < 256) && list.all (· < 64)
  | .tokenRet _ value _ list => decide (value < 256) && list.all (· < 64)
  | .links _ partners => partners.length == 4
  | .htWindowClose ns bits => ns.length == 4 && bits.length == 4 && (ns.zip bits).all fun x => decide (x.2 < 2 ^ x.1)
  | .rawFifoWord raw => raw.length == 4
  | .ppsEdge sub _ => decide (sub < 1500000000)
  | .inspectionPeriodic row pcol => decide (row < 8) && decide (pcol < 13)
  | .capTempRead _ _ | .phxBerrRead _ _ _ | .supCeCntRead _ _ | .obsGlDropRead _ | .prkSpDataRead _ _
  | .prkSpKeyHiWrite _ _ | .hwkey _ | .spSeedArrive _ | .hivClkGate _ | .hivPwrGate _ | .hivForceGate _ _ _
  | .hivUngate _ _ _ | .deferredGateExecute _ | .hnyPsDataWrite _ _ | .hnyActDataWrite _ _ | .dncHalt _ | .dncStep _
  | .meshCountMessage _ _ | .movMessage _ _ | .chainFin _ | .phxEnable _ | .phxDisable _ | .cal _ | .phxLocked _
  | .phxRelockTimeout _ | .phxCalStale _ _ | .phxTempHoldEnd _ | .phxBcalDataWrite _ _
  | .ovsRequestInForce _ | .ovsRailSlewStart _ _ | .ovsRailSettled _ | .ovsCeilingWrite _ | .computeTempThreshold _
  | .ovsStormHoldEnd _ | .stage | .waxStageCheckDone | .waxStageCopyDone _ | .trial | .waxApply | .waxApplyDone
  | .waxDrainTimeout | .waxWatchdogExpire | .commit | .waxCommitDone _ | .rollback | .waxRollbackDone | .revert
  | .abort | .nop _ | .end_ _ | .yield_ _ | .li _ | .alu _ | .ld _ | .st _ | .mov _ | .ldw _ | .ldwCopyDone _ | .ldp _
  | .stream _ _ | .clr _ | .req _ | .draw _ | .get _ | .seed _ | .vset _ | .hint _ | .hintTakesEffect _ | .arrive _
  | .wait _ | .arriveWait _ | .barrierArrival _ | .br _ | .lset _ | .lend _ | .stopReached _ _ | .programResume _
  | .modelLoadGo | .modelLoadPerform | .modelLoadDone | .csrowRemap _ | .supersUe _ _ | .supAllocWrite _ _ _
  | .sqDoorbell _ _ _ | .cqDoorbell _ _ | .jobDispatch _ | .jobSeedArrive _ | .inputCopyDone _ _ | .jobEnd _
  | .cqRecordWrite _ | .cqModTimer _ | .lendStart _ _ | .lentJobReturn _ _ | .xpDb _ _ | .expressStart _
  | .colCancel _ _ | .cancelAll _ | .colonyReset _ | .vfFlr _ | .vfEnable | .vfDisable | .pf0Flr | .busMasterEnable _
  | .foragerTail _ _ | .foragerEnable _ _ | .foragerDisable _ | .resume _ | .gate _ _ | .foragerErrClear _
  | .foragerDescriptorDone _ _ | .completionTimeout _ | .tlpError _ _ | .heartbeatSend _
  | .retryTimeout _ | .heartbeatTimeout _ | .exchangeTimeout _ _ _ _ | .lossOfLight _ _ | .probe _ | .answer _
  | .relit _ | .trainingDone _ _ _ _ _ _ | .trainRetry _ _ _ | .wavelengthLost _ _ | .retrainTimeout _ | .en _ _
  | .loop _ _ | .portRetrain _ | .accept _ | .done _ | .rollbackMsg _ _ _ _ | .ckptDone _ _ | .arriveMsg _ _
  | .release _ _ _ | .map _ _ | .stnFail _ _ _ | .leaveMsg _ | .drain _ | .drained _ | .enum | .leave | .walkTimeout
  | .htStarved _ | .generateCall _ | .drbgReseed | .grdRngDataRead _ _ | .cond _ | .grst _ | .rawReq | .rawAnswer
  | .rawEnd | .grdRawDataRead _ | .testPatternEn _ | .seal _ | .unseal _ | .keyUpdate | .lcOpen | .lcSeal | .drkProg
  | .guardCommandDone _ | .ceGate _ | .sealedDeferral _ | .sealedResume _ _ _ | .holdoverTimeout | .setsec
  | .tbSecondRollover | .ppsOutEnd | .pllLock _ | .pllLockLoss | .vinGood _ | .vinAFail | .vinBFail | .switchover
  | .holdEnter | .returnToMain | .standbyReturn | .budgetWrite _ | .powerLoss | .inspectionGo _ | .inspectionDone _ _
  | .retirementDone _ | .mapRecordCommit | .clearField | .resetN | .perstN | .linkHotReset | .warm | .cold | .rcvGo _
  | .bootStageDone _ | .fwRewriteDone | .queenFault | .thermalTrip | .thermtripRelease | .snap | .obsCselWrite _
  | .glassMark _ | .glassEnable _ | .glassRecordWrite | .arm _ | .smbStatus | .tempCmp _ | .tempPhx _ | .smbVinAMv _
  | .smbVinAMa _ | .smbVinBMv _ | .smbVinBMa _ | .smbCharge | .smbMeas _ | .smbBoot | .smbRailMv _ _ | .smbRailP _ _
  | .smbIdent | .alertResponse _ | .bypass | .idcode | .samplePreload _ _ | .extest | .clamp | .highz | .tapReset
  | .thermtripNDeassert _ | .tbSlewDone | .smbClockLowTimeout | .smbOtherCommand _ _ | .perstNRelease => true

end Sys2Proof
end

