-- ==== Sys2Proof/Tests/Slice0.lean ====
section
/-! SUPPORT. Tests/Slice0.lean: tests of the model: single steps whose result the manual gives, a refused
operand for each check of WellFormed, and for each statement states that meet its hypotheses. -/

namespace Sys2Proof.Tests

open Sys2Proof Sys2Proof.Machine

-- one theorem at a time: the kernel evaluates each, and too many at once fill the memory
set_option Elab.async false

-- helpers

/-- An image in force: colony 0 owns hives 13 and 14, the express partition hive 95; layer 1 of colony 0 stands on hive 13, with
streams of 64 bits, and layer 2 is photonic with a fallback. -/
def wimg : WaxImg := {
  ver := 1
  hives := [{ hive := 13, pid := 0, combEn := 0xFF }, { hive := 14, pid := 0, combEn := 0xFF }, { hive := 95, pid := 0x40, combEn := 0xFF }]
  parts := [{ pid := 0, nHive := 2, csKib := 1024, supMib := 1 }, { pid := 0x40, nHive := 1, csKib := 64, supMib := 0 }]
  layers := [{ pid := 0, layer := 1, bip := false, randw := false, lcode := 0, nTerms := 1, nOut := 1, span := 1, hmask := BitVec.ofNat 96 (2 ^ 13) }]
  extracts := [{ pid := 0, layer := 2, approx := false, photonic := true, fallback := true, wset := 1 }]
  express := some { owner := 0, nHive := 1, maxSteps := 4, maxCyc := 4096, colmask := 1 } }

/-- A part in READY with its link up, 64 VFs, and no work. -/
def base : State := {
  boot := { stage := 6, pcie := true }
  host := { link := { up := true, width := 16, speed := 5 }, sriov := { vfEnable := true, vfMse := true, numVfs := 64 }
            pf0 := { FnSt.pf0Reset with mse := true, bme := true }, vf := Vector.replicate 64 { FnSt.vfReset with bme := true } }
  rpr := { pcol := hostCols [] }
  wax := { img := wimg } }

/-- What a function reads of the next state. -/
def out {α : Type} (o : Host.Outcome State Fault Refusal) (f : State → α) : Option α :=
  match o with
  | .next t => some (f t)
  | _ => none

/-- The hive of the tests. -/
def h0 : HiveId := 13

/-- A running job of colony 0. -/
def job0 : Job := { slot := 0, gen := 1, col := 0, kind := .queue 0, d := {}, st := .running, part := 0 }

/-- Its program on the hive of the tests. -/
def prog0 : Prog := { slot := 0, home := h0 }

/-- A hive that runs a program with one instruction word at the start of its window. -/
def dn (w : Nat) (p : Prog := prog0) (j : Job := job0) : State :=
  updHive h0 (fun h => { h with run := some p, cs := memWriteLE [] 0 8 w }) { base with jobs := [j] }

/-- The program of the hive of the tests. -/
def pr (o : Host.Outcome State Fault Refusal) : Option Prog := (out o fun t => (t.hv h0).run).join

/-- The instruction issues. -/
def iss (s : State) (p : Prog) (j : Job) (op : DOp) : Bool :=
  decide (s.dancing h0 = some (p, j)) && !s.winUe j.part.val h0 (s.pcOff j.part.val p) 8 && decide (s.fetchOp h0 p j = some op) &&
  !opWaits s h0 p j op && !(s.hv h0).stopsAt p (opCost s p j op)

theorem iss_issues {s : State} {p : Prog} {j : Job} {op : DOp} (h : iss s p j op = true) : s.issues h0 p j op := by
  simp only [iss, Bool.and_eq_true, decide_eq_true_eq, Bool.not_eq_true'] at h
  exact ⟨h.1.1.1.1, h.1.1.1.2, h.1.1.2, h.1.2, h.2⟩

-- registers

/-- A reserved address of PF0 and one of a VF, the last words of their spaces. -/
theorem wit_reserved : base.answers .pf0 = true ∧ base.answers (.vf 63) = true ∧ barSize .pf0 % 8 = 0 ∧
    regNamed .pf0 (barSize .pf0 - 4) = none ∧ regNamed .pf0 (barSize .pf0 - 8) = none ∧
    regNamed (.vf 63) (barSize (.vf 63) - 4) = none ∧ regNamed (.vf 63) (barSize (.vf 63) - 8) = none := by decide +kernel

/-- R516: a read of a reserved address returns 0. -/
theorem test_reserved_read : (barRead .pf0 0x3C 1 base).resp = { status := .sc, data := [0] } := by decide +kernel

theorem wit_write_turned_away : State.reset.answers .pf0 = false ∧ base.answers .pf0 = true ∧ mailOff .pf0 2 = none ∧
    2 + 4 * 1 ≤ barSize .pf0 ∧ 2 % 4 ≠ 0 ∧ 4 + 4 * 2 ≤ barSize .pf0 ∧ 4 % 8 ≠ 0 ∧ mailOff .pf0 4 = none := by decide +kernel

/-- The pair PWR_STAT, PWR_EVT. -/
theorem wit_write_of_two : base.answers .pf0 = true ∧ base.boot.stage ≠ 7 ∧ 0x50000 + 8 ≤ barSize .pf0 ∧ 0x50000 % 8 = 0 ∧
    mailOff .pf0 0x50000 = none ∧ regNamed .pf0 0x50000 = some (.pwr .stat) ∧ regNamed .pf0 0x50004 = some (.pwr .evt) ∧
    (regWrite (.pwr .stat) 1 { base with resp := { status := .sc } }).boot.stage ≠ 7 := by decide +kernel

/-- R7: a bit written 1 to an event register clears that bit alone. -/
theorem test_event_clear : out (exec (.registerWrite (.bar .pf0 0x50004 [(1, 0xF)])) { base with pwr := { base.pwr with evt := 7 } })
    (·.pwr.evt) = some 6 := by decide +kernel

/-- R280: a write with a byte enable clear is discarded. -/
theorem test_partial_write : out (exec (.registerWrite (.bar .pf0 0x50004 [(1, 7)])) { base with pwr := { base.pwr with evt := 7 } })
    (·.pwr.evt) = some 7 := by decide +kernel

/-- TB_TIME_LO and TB_TIME_HI, with an empty shadow, a shadow of this pair and a shadow of another pair. -/
theorem wit_pairs : base.answers .pf0 = true ∧ base.boot.stage ≠ 7 ∧ 0x40010 % 8 = 0 ∧ 0x40010 + 8 ≤ barSize .pf0 ∧
    regNamed .pf0 0x40010 = some (.tb (.time false)) ∧ (Reg.tb (.time false)).hiOf = some (.tb (.time true)) ∧
    regNamed .pf0 0x40014 = some (.tb (.time true)) ∧ isHiHalf .pf0 0x40010 = false ∧
    tabGet none base.shadows (reqKey .pf0) = none ∧
    (let s : State := { base with shadows := [(0, some (0x40010, 5))] }
     s.answers .pf0 = true ∧ tabGet none s.shadows (reqKey .pf0) = some (0x40010, 5)) ∧
    (let s : State := { base with shadows := [(0, some (0x20010, 5))] }
     tabGet none s.shadows (reqKey .pf0) = some (0x20010, 5)) := by decide +kernel

/-- R407: the low half first, then the high half of the same cycle. -/
theorem test_pair : out (exec (.pairHiRead .pf0 0x40014) { base with shadows := [(0, some (0x40010, 5))] })
    (fun t => (t.resp.data, tabGet none t.shadows 0)) = some ([5], none) := by decide +kernel

theorem wit_reads_that_clear : base.answers .pf0 = true ∧ base.boot.stage ≠ 7 := by decide +kernel

/-- R520: the value held before the cycle's update is returned, and the update stays. -/
theorem test_rc_read : out (exec (.supCeCntRead false 3) { base with sup := { base.sup with ceCnt := 9 } }) (fun t => (t.resp.data, t.sup.ceCnt)) =
    some ([9], 3) := by decide +kernel

/-- A port at rest, a port that waits for a seed, with its seed on the wire, and a dead expander. -/
theorem wit_sampling : base.answers (.vf 63) = true ∧ base.boot.stage ≠ 7 ∧ (base.sp 63).busy = false ∧ base.guard.en.dead = false ∧
    (let s := updSp 63 (fun x => { x with busy := true }) base
     s.answers (.vf 63) = true ∧ (s.sp 63).busy = true) ∧
    (let s := updSp 63 (fun x => { x with busy := true }) { base with guard := { base.guard with en := { base.guard.en with wire := [(.sp 63, 7)] } } }
     s.guard.en.wire = [(.sp 63, 7)] ∧ (s.sp 63).busy = true) ∧
    (let s : State := { base with guard := { base.guard with en := { base.guard.en with wire := [(.sp 63, 7)], dead := true } } }
     s.guard.en.wire = [(.sp 63, 7)] ∧ (s.sp 63).busy = false ∧ s.guard.en.dead = true) := by decide +kernel

/-- R62: a read past position 0xFFFF_FFFF wraps and sets WRAP. -/
theorem test_sp_wrap : out (exec (.prkSpDataRead 0 false) (updSp 0 (fun x => { x with pos := 0xFFFFFFFF }) base))
    (fun t => ((t.sp 0).pos, (t.sp 0).stat)) = some (0, 16) := by decide +kernel

-- gates, honey unit, dancer controls

theorem wit_gate_idle : base.isExpressHive h0 = false ∧ (base.hv h0).gated = false ∧ (base.hv h0).clkGate = false ∧ (base.hv h0).pwrGate = false ∧
    (base.hv h0).claimed = false ∧ (base.hv h0).holdsWork = false := by decide +kernel

theorem wit_gate_claimed : let s := updHive h0 (fun x => { x with claimed := true }) base
    s.isExpressHive h0 = false ∧ (s.hv h0).gated = false ∧ (s.hv h0).clkGate = false ∧ (s.hv h0).pwrGate = false ∧ (s.hv h0).claimed = true := by
  decide +kernel

theorem wit_gate_working : let s := dn 0
    s.isExpressHive h0 = false ∧ (s.hv h0).gated = false ∧ (s.hv h0).clkGate = false ∧ (s.hv h0).pwrGate = false ∧ (s.hv h0).claimed = false ∧
    (s.hv h0).holdsWork = true ∧ (s.hv h0).run.isSome = true := by decide +kernel

theorem wit_gate_waiting : let s := updHive h0 (fun x => { x with clkGate := true, clkWait := true }) base
    (s.hv h0).clkGate = true ∧ (s.hv h0).clkOff = false ∧ (s.hv h0).pwrOff = false ∧ (s.hv h0).pwrGate = false ∧ s.isExpressHive h0 = false ∧
    (s.hv h0).claimed = false ∧ (s.hv h0).holdsWork = false ∧ (s.hv h0).gated = false ∧ ((s.hv h0).clkWait || (s.hv h0).clkDefer) = true ∧
    (s.hv h0).pwrWait = false ∧ (s.hv h0).pwrDefer = false := by decide +kernel

theorem wit_gate_off : let s := updHive h0 (fun x => { x with clkGate := true, clkOff := true }) base
    (s.hv h0).clkGate = true ∧ (s.hv h0).clkOff = true ∧ (s.hv h0).pwrOff = false ∧ (s.hv h0).pwrGate = false ∧ (s.hv h0).wait = [] ∧
    s.sealedHive h0 = false ∧ s.isExpressHive h0 = false := by decide +kernel

theorem wit_gate_express : base.isExpressHive 95 = true := by decide +kernel

/-- R94: FORCE with CLK_GATE gates an idle hive. -/
theorem test_force_gate : out (exec (.hivForceGate h0 true false) base) (fun t => ((t.hv h0).clkOff, (t.hv h0).pwrOff)) = some (true, false) := by
  decide +kernel

theorem wit_honey : (base.hv h0).claimed = false ∧ base.idleHive h0 = true ∧
    (∀ c : Fin 2, tabWf 0 ((base.hv h0).hny[c]).ps = true ∧ tabWf 0 ((base.hv h0).hny[c]).act = true) ∧
    ((dn 0).hv h0).claimed = false ∧ (dn 0).idleHive h0 = false := by decide +kernel

theorem wit_dancer_controls : base.dncIgnored 95 = true ∧ base.dncIgnored h0 = false ∧ (base.hv h0).halted = false ∧
    (let s := updHive h0 (fun x => { x with halted := true }) base
     s.dncIgnored h0 = false ∧ (s.hv h0).halted = true) := by decide +kernel

-- the dancer: registers

theorem wit_nop : (dn 0).issues h0 prog0 job0 .nop := iss_issues (by decide +kernel)
theorem wit_yield : (dn (2 * 2 ^ 58)).issues h0 prog0 job0 .yield := iss_issues (by decide +kernel)
theorem wit_li : (dn (4 * 2 ^ 58 + 3 * 2 ^ 54 + 0xFFFFFFFF)).issues h0 prog0 job0 (.li 3 0xFFFFFFFF) := iss_issues (by decide +kernel)
theorem wit_alu : (dn (5 * 2 ^ 58 + 1 * 2 ^ 54 + 2 * 2 ^ 50 + 3 * 2 ^ 46 + 12 * 2 ^ 42)).issues h0 prog0 job0 (.alu 1 2 3 12 false 0) :=
  iss_issues (by decide +kernel)
theorem wit_br : (dn (0x20 * 2 ^ 58 + 8 * 2 ^ 54 + 1 * 2 ^ 50 + 2 * 2 ^ 46 + 0xFFFFFF)).issues h0 prog0 job0 (.br 8 1 2 0xFFFFFF) :=
  iss_issues (by decide +kernel)
theorem wit_lset : (dn (0x21 * 2 ^ 58 + 2 * 2 ^ 56 + 2 ^ 55 + 4 * 2 ^ 50 + 9)).issues h0 prog0 job0 (.lset 2 true 4 9) := iss_issues (by decide +kernel)
theorem wit_lend : (dn (0x22 * 2 ^ 58 + 3 * 2 ^ 56 + 7)).issues h0 prog0 job0 (.lend 3 7) := iss_issues (by decide +kernel)
theorem wit_seed : (dn (0x12 * 2 ^ 58 + 255)).issues h0 prog0 job0 (.seed 255) := iss_issues (by decide +kernel)
theorem wit_vset : (dn (0x18 * 2 ^ 58 + 3 * 2 ^ 56 + 0xFFFFF)).issues h0 prog0 job0 (.vset 3 0xFFFFF) := iss_issues (by decide +kernel)

/-- Table 9.2: LI g3. -/
theorem test_li : (pr (exec (.li h0) (dn (4 * 2 ^ 58 + 3 * 2 ^ 54 + 0x1234)))).map (fun p => (p.g[3], p.pc)) = some (0x1234, 1) := by decide +kernel
/-- Table 9.3: SUB of 0 and 1 wraps. -/
theorem test_alu_sub_wraps : (pr (exec (.alu h0) (dn (5 * 2 ^ 58 + 1 * 2 ^ 54 + 2 * 2 ^ 50 + 1 * 2 ^ 42 + 2 ^ 41 + 1)))).map (fun p => p.g[1]) =
    some 0xFFFFFFFF := by decide +kernel
/-- Table 9.4: BR always. -/
theorem test_br_always : (pr (exec (.br h0) (dn (0x20 * 2 ^ 58 + 77)))).map (·.pc) = some 77 := by decide +kernel
/-- R190: LEND at count 2 goes back and leaves 1. -/
theorem test_lend : (pr (exec (.lend h0) (dn (0x22 * 2 ^ 58 + 1 * 2 ^ 56 + 5) { prog0 with l := prog0.l.set 1 2 }))).map (fun p => (p.pc, p.l[1])) =
    some (5, 1) := by decide +kernel
/-- R184, Table 9.2: an opcode that the table does not list, and a reserved bit set, are rejected. -/
theorem test_reserved_opcode : decodeDance (3 * 2 ^ 58) = none ∧ decodeDance 1 = none ∧ decodeDance (5 * 2 ^ 58 + 13 * 2 ^ 42) = none := by decide

-- the dancer: windows

theorem wit_ld : let s := dn (6 * 2 ^ 58 + 1 * 2 ^ 54 + 2 * 2 ^ 50 + 0x17FFFF)
    s.issues h0 prog0 job0 (.ld 1 2 0x17FFFF) ∧ s.winUe job0.part.val h0 (alignDown (prog0.g[(2 : Reg4)] + 0x17FFFF).toNat 2) 4 = false :=
  ⟨iss_issues (by decide +kernel), by decide +kernel⟩
theorem wit_ldp : let s := dn (10 * 2 ^ 58 + 1 * 2 ^ 57 + 2 * 2 ^ 50 + 15 * 2 ^ 16 + 1)
    s.issues h0 prog0 job0 (.ldp 1 false 2 15 1) ∧ s.winUe job0.part.val h0 (prog0.g[(2 : Reg4)]).toNat (16 * 1) = false ∧
    tabWf 0 ((s.hv h0).hny[prog0.ctxOf 1]).ps = true := ⟨iss_issues (by decide +kernel), by decide +kernel, by decide +kernel⟩
theorem wit_ldp_table : let s := dn (10 * 2 ^ 58 + 2 ^ 56 + 2 * 2 ^ 50 + 1023 * 2 ^ 16 + 1)
    s.issues h0 prog0 job0 (.ldp 0 true 2 1023 1) ∧ s.winUe job0.part.val h0 (prog0.g[(2 : Reg4)]).toNat (4 * 1) = false ∧
    tabWf 0 ((s.hv h0).hny[prog0.ctxOf 0]).act = true := ⟨iss_issues (by decide +kernel), by decide +kernel, by decide +kernel⟩
theorem wit_clr : (dn (0x11 * 2 ^ 58 + 1024)).issues h0 prog0 job0 (.clr 0 1024) ∧ tabWf 0 prog0.acc = true :=
  ⟨iss_issues (by decide +kernel), by decide +kernel⟩
theorem wit_get : (dn (0x11 * 2 ^ 58 + 3 * 2 ^ 55 + 5 * 2 ^ 50 + 6 * 2 ^ 38)).issues h0 prog0 job0 (.get 5 6) := iss_issues (by decide +kernel)
/-- A draw of 1 of 1 scores. -/
theorem wit_draw : let s := dn (0x11 * 2 ^ 58 + 2 * 2 ^ 55 + 1 * 2 ^ 50 + 2 * 2 ^ 46)
    s.issues h0 prog0 job0 (.draw 1 2 0 0 0 0 0) ∧ s.winUe job0.part.val h0 (alignDown (prog0.g[(1 : Reg4)]).toNat 2) (4 * (fld prog0.g[(0 : Reg4)] 0 12 + 1)) = false ∧
    2 * (fld prog0.g[(0 : Reg4)] 12 6 + 1) ≤ s.winSize job0.part.val ∧ s.progRegion job0.part.val prog0.home = none ∧ Memory.wf (s.hv h0).cs = true :=
  ⟨iss_issues (by decide +kernel), by decide +kernel, by decide +kernel, by decide +kernel, by decide +kernel⟩
theorem wit_st : let s := dn (7 * 2 ^ 58 + 1 * 2 ^ 50 + 2 * 2 ^ 46 + 0x17FFFC)
    s.issues h0 prog0 job0 (.st 1 2 0x17FFFC) ∧ 4 ≤ s.winSize job0.part.val ∧ Memory.wf (s.hv h0).cs = true :=
  ⟨iss_issues (by decide +kernel), by decide +kernel, by decide +kernel⟩

/-- R189: ST aligns its address down to 4 bytes. -/
theorem test_st : out (exec (.st h0) (dn (7 * 2 ^ 58 + 1 * 2 ^ 50 + 2 * 2 ^ 46 + 0x103) { prog0 with g := prog0.g.set 2 0x11223344 }))
    (fun t => memReadN (t.hv h0).cs 0xFF 6) = some [0, 0x44, 0x33, 0x22, 0x11, 0] := by decide +kernel

theorem wit_req : let s := dn (0x11 * 2 ^ 58 + 1 * 2 ^ 55 + 1 * 2 ^ 50 + 2 * 2 ^ 46 + 1)
    s.issues h0 prog0 job0 (.req 1 2 0 0 1) ∧ s.progRegion job0.part.val prog0.home = none ∧ Memory.wf (s.hv h0).cs = true ∧
    1 * ((s.honey h0 prog0 0).recOf 0).width ≤ s.winSize job0.part.val := ⟨iss_issues (by decide +kernel), by decide +kernel, by decide +kernel, by decide +kernel⟩

/-- A chain whose last count has landed. -/
def pFin : Prog := { prog0 with fins := [{ seq := 0, acc := 0, v := 9, out := 64, index := 1, ctx := 0, recNo := 15 }] }
theorem wit_chain_fin : let s := dn 0 pFin
    (s.hv h0).run = some pFin ∧ s.job? 0 = some job0 ∧ pFin.fins ≠ [] ∧ s.pwr.held = false ∧ s.progRegion 0 h0 = none ∧
    Memory.wf (s.hv h0).cs = true ∧ 4 ≤ s.winSize 0 := by decide +kernel

/-- A hive that runs one instruction while a count of 7 is on its way to accumulator 5, which counts it among its 9. -/
def dnLate (w : Nat) : State :=
  updHive h0 (fun hv => { hv with late := [{ seq := 1, acc := 5, v := 7, left := 3 }] })
    (dn w { prog0 with acc := [(5, 9)], stepCycles := 100, fins := [{ seq := 1, acc := 5, v := 9, out := 64, index := 0, ctx := 0, recNo := 0 }] })
/-- R83, R198, R200: a clear comes before the counts that have not landed, and a chain takes the value that then stands. -/
theorem test_clear_before_landing : (out (exec (.clr h0) (dnLate (0x11 * 2 ^ 58 + 1024))) fun t => ((t.hv h0).run.map fun p =>
    (tabGet 0 p.acc 5, p.fins.map (·.v)))) = some (some (7, [7])) := by decide +kernel
/-- R200, R206: GET waits for the counts of its accumulator, at a yield point. -/
theorem test_get_waits : (out (exec (.get h0) (updRun h0 (fun p => { p with g := p.g.set 5 5 }) (dnLate (0x11 * 2 ^ 58 + 3 * 2 ^ 55 + 5 * 2 ^ 50 + 6 * 2 ^ 38))))
    fun t => ((t.hv h0).late, (t.hv h0).run.map fun p => (p.stepCycles, p.g[(6 : Reg4)]))) = some ([], some (2, 9)) := by decide +kernel

-- the dancer: copies

theorem wit_mov : let s := dn (8 * 2 ^ 58 + 1 * 2 ^ 50 + 2 * 2 ^ 46 + 3 * 2 ^ 42 + 0x10000) { prog0 with g := prog0.g.set 3 14 }
    let p : Prog := { prog0 with g := prog0.g.set 3 14 }
    s.issues h0 p job0 (.mov 1 2 3 0x10000) ∧ movForeign s job0 (movOf s p.home job0 p.g[(1 : Reg4)] p.g[(2 : Reg4)] p.g[(3 : Reg4)] 0x10000) = false :=
  ⟨iss_issues (by decide +kernel), by decide +kernel⟩
theorem wit_mov_foreign : let s := dn (8 * 2 ^ 58 + 1 * 2 ^ 50 + 2 * 2 ^ 46 + 3 * 2 ^ 42 + 16)
    s.issues h0 prog0 job0 (.mov 1 2 3 16) ∧ movForeign s job0 (movOf s prog0.home job0 prog0.g[(1 : Reg4)] prog0.g[(2 : Reg4)] prog0.g[(3 : Reg4)] 16) = true :=
  ⟨iss_issues (by decide +kernel), by decide +kernel⟩
theorem wit_ldw : (dn (9 * 2 ^ 58 + 1 * 2 ^ 50 + 2 * 2 ^ 46 + 64)).issues h0 prog0 job0 (.ldw 1 2 64) := iss_issues (by decide +kernel)

/-- An LDW copy of 2 bytes, and an allocation of 1 MiB with two bytes in it. -/
def pLdw : Prog := { prog0 with ldw := [{ src := 0, dst := 0x17FFFF, left := 2 }] }
def sLdw : State := { updCol 0 (fun c => { c with caBase := 64, caSize := 1 }) (dn 0 pLdw) with sup := { mem := [(0x4000000, 0xAA), (0x4000001, 0xBB)] } }
theorem wit_ldw_copy : sLdw.dancing h0 = some (pLdw, job0) ∧ 2 ≤ sLdw.winSize 0 ∧ sLdw.progRegion 0 h0 = none ∧
    sLdw.caBytes (sLdw.wax.img.colonyOf 0) ≠ 0 ∧ sLdw.supUe (sLdw.wax.img.colonyOf 0) 0 2 = [] ∧ Memory.wf (sLdw.hv h0).cs = true := by decide +kernel
/-- R186, R191: the copy wraps at the end of the window. -/
theorem test_ldw_wraps : out (exec (.ldwCopyDone { hive := h0 }) sLdw) (fun t => (memRead (t.hv h0).cs 0x17FFFF, memRead (t.hv h0).cs 0)) = some (0xAA, 0xBB) := by
  decide +kernel

/-- A MOV within the hive. -/
def pMov : Prog := { prog0 with mov := some { seq := 0, src := 0, dst := 0x200, left := 300, hive := h0, station := none } }
theorem wit_mov_message : let s := dn 0x12 pMov
    s.dancing h0 = some (pMov, job0) ∧ job0.winHive h0 = h0 ∧ pMov.mov.isSome = true ∧ pMov.home = h0 ∧ pMov.win = none ∧ s.progOf 0 h0 = some pMov ∧ min 256 300 ≤ s.winSize 0 ∧
    s.progRegion 0 h0 = none ∧ s.winUe 0 h0 0 (min 256 300) = false ∧ Memory.wf (s.hv h0).cs = true := by decide +kernel
/-- A MOV for another station. -/
theorem wit_mov_far : let p : Prog := { prog0 with mov := some { seq := 0, src := 0, dst := 0, left := 1, hive := h0, station := some 63 } }
    (dn 0 p).dancing h0 = some (p, job0) ∧ p.mov.isSome = true := by decide +kernel

-- counts, hints, barriers

def mesh1 : MeshMsg := { seq := 0, slot := 0, src := 14, dst := h0, acc := 1023, v := 5 }
def sMesh : State := { dn 0 { prog0 with acc := [(1023, 0xFFFFFFFF)] } with mesh := [mesh1] }
theorem wit_mesh_count : sMesh.mesh[0]? = some mesh1 ∧ (sMesh.hv h0).run = some { prog0 with acc := [(1023, 0xFFFFFFFF)] } ∧
    tabWf 0 [(1023, (0xFFFFFFFF : Word))] = true ∧ sMesh.jobRuns 0 = true ∧ mesh1.dst = prog0.home ∧ prog0.sealed = false := by decide +kernel
/-- R73: the accumulator adds modulo 2^32. -/
theorem test_count_wraps : (pr (exec (.meshCountMessage 0 none) sMesh)).map (fun p => tabGet 0 p.acc 1023) = some 4 := by decide +kernel
/-- A message that bypasses nothing: from hive 14 to the hive of the tests it enters router 13 by link 1. -/
theorem wit_bad_flit : sMesh.mesh[0]? = some mesh1 ∧ sMesh.jobRuns mesh1.slot = true ∧ linkInto 14 13 = 1 ∧ linkInto 14 13 ≠ 0 ∧
    ((dn 0).hv h0).late = [] := by decide +kernel
/-- R88: the router that a bad flit enters records the link. -/
theorem test_bad_flit : out (exec (.meshCountMessage 0 (some 1)) { sMesh with mesh := [{ mesh1 with path := [13] }] })
    (fun t => ((t.hv h0).uncorr, (t.hv h0).evt)) = some (2, 4) := by decide +kernel
theorem wit_cell : ({ bip := false, randw := false, len := 64, key := 0 } : CellMode).randw = false := by decide

theorem wit_hint : (dn (0x19 * 2 ^ 58 + 8 * 2 ^ 54)).issues h0 prog0 job0 (.hint 8 0) ∧ (dn 0).isExpressHive h0 = false ∧
    (dn (0x19 * 2 ^ 58 + 8 * 2 ^ 54 + 0xFFFF)).issues h0 prog0 job0 (.hint 8 0xFFFF) ∧ ((dn 0).hv h0).hints.length ≤ 4 :=
  ⟨iss_issues (by decide +kernel), by decide +kernel, iss_issues (by decide +kernel), by decide +kernel⟩
/-- On the express hive. -/
theorem wit_hint_express : let p : Prog := { slot := 0, home := 95, cls := 3 }
    let s := updHive 95 (fun h => { h with run := some p, cs := memWriteLE [] ((1536 - 64) * 1024) 8 (0x19 * 2 ^ 58 + 8 * 2 ^ 54) }) { base with
      jobs := [{ job0 with part := 0x40 }] }
    s.issues 95 p { job0 with part := 0x40 } (.hint 8 0) ∧ s.isExpressHive 95 = true :=
  ⟨⟨by decide +kernel, by decide +kernel, by decide +kernel, by decide +kernel, by decide +kernel⟩, by decide +kernel⟩
theorem wit_hint_pending : let s := updHive h0 (fun x => { x with hints := [{ combs := 4, start := 0 }] }) base
    (s.hv h0).hints = [{ combs := 4, start := 0 }] ∧ (base.hv h0).hints = [] := by decide +kernel

/-- A job whose barrier 31 has been released once. -/
def jobR : Job := { job0 with bars := job0.bars.set 31 { target := 1, count := 0, gen := 1 } }
theorem wit_arrive : (dn (0x1A * 2 ^ 58 + 1 * 2 ^ 56 + 31 * 2 ^ 48)).issues h0 prog0 job0 (.arrive 31) := iss_issues (by decide +kernel)
theorem wit_wait : (dn (0x1A * 2 ^ 58 + 2 * 2 ^ 56 + 31 * 2 ^ 48) prog0 jobR).issues h0 prog0 jobR (.wait 31) ∧
    released jobR 31 (prog0.e[(31 : Fin 32)] + 1) = true ∧ prog0.waitPend = none := ⟨iss_issues (by decide +kernel), by decide +kernel, by decide +kernel⟩
theorem wit_wait_holds : (dn (0x1A * 2 ^ 58 + 2 * 2 ^ 56 + 31 * 2 ^ 48)).issues h0 prog0 job0 (.wait 31) ∧ released job0 31 (prog0.e[(31 : Fin 32)] + 1) = false :=
  ⟨iss_issues (by decide +kernel), by decide +kernel⟩
theorem wit_wait_goes_on : let p : Prog := { prog0 with e := prog0.e.set 31 1, waitPend := some 31 }
    (dn (0x1A * 2 ^ 58 + 2 * 2 ^ 56 + 31 * 2 ^ 48) p jobR).issues h0 p jobR (.wait 31) ∧ released jobR 31 p.e[(31 : Fin 32)] = true :=
  ⟨iss_issues (by decide +kernel), by decide +kernel⟩
theorem wit_arrive_wait : (dn (0x1A * 2 ^ 58 + 3 * 2 ^ 56 + 31 * 2 ^ 48) prog0 jobR).issues h0 prog0 jobR (.arriveWait 31) ∧
    (dn (0x1A * 2 ^ 58 + 3 * 2 ^ 56 + 31 * 2 ^ 48)).issues h0 prog0 job0 (.arriveWait 31) := ⟨iss_issues (by decide +kernel), iss_issues (by decide +kernel)⟩

def arr1 : Arrival := { seq := 0, slot := 0, hive := h0, bar := 3 }
def sArr (n target : Nat) : State := { base with arrivals := [arr1], jobs := [{ job0 with bars := job0.bars.set 3 { target := target, count := n } }] }
theorem wit_barrier : (sArr 0 2).arrivalDue arr1 = true ∧ (sArr 0 2).job? 0 = some { job0 with bars := job0.bars.set 3 { target := 2 } } ∧
    job0.isHome = true ∧ (sArr 0 1).arrivalDue arr1 = true ∧
    (sArr 0 1).isCkpt { job0 with bars := job0.bars.set 3 { target := 1 } } 3 = false ∧ (sArr 0 1).others job0 = [] := by decide +kernel
/-- R203: the last arrival releases the barrier. -/
theorem test_barrier_release : out (exec (.barrierArrival 0) (sArr 1 2)) (fun t => (t.job? 0).map fun j => (j.bars[3].count, j.bars[3].gen)) =
    some (some (0, 1)) := by decide +kernel

-- programs end, stop, resume; streams

theorem wit_end : (dn (1 * 2 ^ 58)).issues h0 prog0 job0 .endProg ∧ job0.st = .running ∧ ((dn (1 * 2 ^ 58)).hv h0).wait = [] :=
  ⟨iss_issues (by decide +kernel), by decide +kernel, by decide +kernel⟩

def sStop (stops : List StopWhy) (halt : Bool) : State := updHive h0 (fun x => { x with stops := stops, halt := halt }) (dn 0)
theorem wit_stop : let s := sStop [] true
    (s.hv h0).run = some prog0 ∧ s.job? 0 = some job0 ∧ (s.hv h0).stops = [] ∧ (s.hv h0).halt = true ∧ (s.hv h0).step = false ∧
    (s.hv h0).halted = false ∧ s.atYield h0 prog0 job0 = true ∧ s.landed prog0 = true := by decide +kernel
theorem wit_stop_saves : let s := sStop [.inspect] false
    (s.hv h0).run = some prog0 ∧ prog0.ldw = [] ∧ (s.hv h0).halted = false ∧ (s.hv h0).stops = [.inspect] ∧ (s.hv h0).wait = [] ∧ job0.ending = none ∧
    s.atYield h0 prog0 job0 = true ∧ s.landed prog0 = true := by decide +kernel
def pHeld : Prog := { prog0 with ctx := .slot, pc := 0xFFFFFF, ps0 := [(63, 7)] }
def sHeld : State := updHive h0 (fun x => { x with wait := [pHeld] }) { base with jobs := [job0] }
theorem wit_resume : sHeld.resumable h0 = some pHeld ∧ pHeld.inStream = none ∧ pHeld.win = none := by decide +kernel
/-- A stop that meets an LDW copy of 600 bytes, and a program that lies in the supers. -/
theorem wit_stop_ldw : let p : Prog := { prog0 with ldw := [{ src := 0, dst := 0, left := 600 }] }
    let s := updHive h0 (fun x => { x with stops := [.inspect] }) (updCol 0 (fun c => { c with caBase := 64, caSize := 1 }) (dn 0 p))
    (s.hv h0).run = some p ∧ s.atYield h0 p job0 = true ∧ s.landed p = true ∧ s.caBytes (s.wax.img.colonyOf 0) ≠ 0 ∧
    s.progRegion 0 p.home = none ∧ s.supUe (s.wax.img.colonyOf 0) 0 600 = [] := by decide +kernel
theorem wit_resume_supers : let p : Prog := { pHeld with ctx := .supers }
    let s := updHive h0 (fun x => { x with wait := [p] }) { base with jobs := [job0] }
    s.resumable h0 = some p ∧ p.ctx = .supers := by decide +kernel
theorem wit_stuck : let p : Prog := { prog0 with stuck := true }
    ((sStop [.inspect] false).hv h0).stops ≠ [] ∧ p.stuck = true := by decide +kernel
/-- R210, R211: context 0 of the honey unit comes back with the program. -/
theorem test_resume : out (exec (.programResume { hive := h0 }) sHeld) (fun t => ((t.hv h0).run.map (·.pc), tabGet (0 : Word) ((t.hv h0).hny[(0 : Fin 2)]).ps 63)) =
    some (some 0xFFFFFF, 7) := by decide +kernel

/-- A STREAM of one comb on layer 1, one output, one input vector. -/
def wStream : Nat := 0x10 * 2 ^ 58 + 2 ^ 50 + 7 * 2 ^ 20 + 2 ^ 10
def oStream : StreamOp := { cmask := 1, nout := 1, b := 1, gi := 0, gw := 0, ga := 7, go := 0, ctx := 0, recNo := 0, clr := true, fin := false }
def pStream : Prog := { prog0 with layer := 1, g := prog0.g.set 7 (BitVec.ofNat 32 (0x7F * 1024)) }
theorem wit_stream_nothing : (dn wStream).issues h0 prog0 job0 (.stream oStream) ∧ prog0.inStream = none ∧ streamArgs (dn wStream) prog0 job0 oStream = none :=
  ⟨iss_issues (by decide +kernel), by decide +kernel, by decide +kernel⟩
theorem wit_stream : (dn wStream pStream).issues h0 pStream job0 (.stream oStream) := iss_issues (by decide +kernel)
theorem wit_stream_args : (streamArgs (dn wStream pStream) pStream job0 oStream).any (fun a =>
      a.shape.steps a.nout a.b == 1 && a.nout == 1 && a.b == 1 && a.here && a.station.isNone && a.spill.isNone && !a.shape.photonic &&
      decide (a.shape.sub ≤ 4) && decide (1 + a.shape.sub + a.shape.slabs ≤ 432) && !(dn wStream pStream).readWaits h0 pStream 0 a.input a.inBytes) = true ∧
    pStream.stepCycles = 0 ∧ pStream.stP = 0 ∧ (dn wStream pStream).obs.smpArm = false ∧ ((dn wStream pStream).hv h0).csUe = [] ∧
    ((dn wStream pStream).hv h0).stops = [] ∧ ((dn wStream pStream).hv h0).halt = false ∧ tabWf 0 pStream.acc = true ∧ oStream.fin = false := by
  decide +kernel

/-- A program within a STREAM whose comb waits while the rail of its row moves. -/
def pStuck : Prog := { pStream with inStream := some 0, stuck := true }
def sStuck : State := updRow 1 (fun x => { x with slew := true }) (dn wStream pStuck)
theorem wit_stream_waits : sStuck.dancing h0 = some (pStuck, job0) ∧ sStuck.winUe 0 h0 (sStuck.pcOff 0 pStuck) 8 = false ∧
    sStuck.fetchOp h0 pStuck job0 = some (.stream oStream) ∧ pStuck.inStream.isSome = true ∧
    (streamArgs sStuck pStuck job0 oStream).isSome = true ∧ (sStuck.ovs.row[rowOf h0]).slew = true ∧ ((dn 0).ovs.row[rowOf h0]).slew = false ∧
    ((dn 0).ovs.row[rowOf h0]).level = 0 := by decide +kernel

-- photonic banks

def sBank (f : Bank → Bank) : State := updBank 7 f base
theorem wit_bank_off : (base.phx.bank[7]).en = false ∧ (base.phx.bank[7]).st = .off ∧ base.pwr.stage = 0 ∧ base.phx.tempHold = false ∧
    (let s : State := { base with phx := { base.phx with tempHold := true } }
     (s.phx.bank[7]).en = false ∧ s.phx.tempHold = true) := by decide +kernel
theorem wit_bank_on : let s := sBank fun x => { x with en := true, st := .acquiring }
    (s.phx.bank[7]).en = true ∧ (s.phx.bank[7]).st ≠ .locked ∧ (s.phx.bank[7]).st ≠ .unlocked ∧ (s.phx.bank[7]).st ≠ .off ∧ s.pwr.stage = 0 ∧
    s.phx.tempHold = false ∧ ((sBank fun x => { x with en := true, st := .unlocked }).phx.bank[7]).st = .unlocked := by decide +kernel
theorem wit_bank_cal : let s := sBank fun x => { x with en := true, st := .cal, spares := 8 }
    (s.phx.bank[7]).st = .cal ∧ (s.phx.bank[7]).spares ≤ 8 ∧ (List.replicate 8 ((0 : BitVec 16), (0 : BitVec 12))).length = 8 := by decide +kernel
theorem wit_bank_acquiring : let s := sBank fun x => { x with en := true, st := .acquiring, relocking := true }
    (s.phx.bank[7]).st = .acquiring ∧ (s.phx.bank[7]).relocking = true := by decide +kernel
theorem wit_bank_locked : let s := sBank fun x => { x with en := true, st := .locked }
    (s.phx.bank[7]).st = .locked ∧ (s.phx.bank[7]).en = true ∧ s.pwr.stage = 0 ∧ s.converting 7 = [] ∧ s.phx.tempHold = false := by decide +kernel
/-- Bank 1 serves the row of the hive of the tests, whose layer 2 is photonic with a fallback. -/
theorem wit_bank_in_use : let p : Prog := { prog0 with layer := 2 }
    let s := updBank 1 (fun x => { x with en := true, st := .locked }) (dn 0 p)
    (s.phx.bank[1]).st = .locked ∧ s.photonicRuns 1 = [(h0, p)] ∧ s.job? 0 = some job0 ∧ s.wax.img.fallback 0 2 = true := by decide +kernel
/-- A pass of two counts in conversion on the hive of the tests; `fb` tells that its layer has a fallback. -/
def sConv (fb : Bool) : State :=
  updBank 1 (fun x => { x with en := true, st := .locked }) (updHive h0 (fun hv => { hv with late := [
    { seq := 4, acc := 1023, left := 9, kind := .pass [5, 6] [7, 3] fb 2 }, { seq := 4, acc := 1023, v := 5, left := 9 }] })
    (dn 0 { prog0 with layer := 2, acc := [(0, 6), (1023, 5)] }))
theorem wit_converting : let p : Prog := { prog0 with layer := 2, acc := [(0, 6), (1023, 5)] }
    let x (fb : Bool) : Landing := { seq := 4, acc := 1023, left := 9, kind := .pass [5, 6] [7, 3] fb 2 }
    (∀ fb, ((sConv fb).phx.bank[1]).st = .locked ∧ (sConv fb).converting 1 = [(h0, p, x fb)] ∧ (sConv fb).job? p.slot = some job0 ∧
      (sConv fb).others job0 = []) ∧ job0.isHome = true ∧ tabWf 0 p.acc = true ∧ ([5, 6] : List Word).length ≤ 1024 ∧
    ((sConv true).hv h0).late.any (fun y => y.kind == .count && y.seq == 4) = true := by decide +kernel
/-- R118: the adder tree's counts take the place of those of a discarded pass. -/
theorem test_loss_fallback : out (exec (.phxLossOfLock 1 1 2049 0) (sConv true)) (fun t => ((t.hv h0).run.map fun p =>
    (tabGet 0 p.acc 1023, tabGet 0 p.acc 0), (t.job? 0).map (·.degr))) = some (some (7, 3), some 4) := by decide +kernel
theorem wit_bank_stale : let s := sBank fun x => { x with calValid := true, tCal := 40 }
    (s.phx.bank[7]).calValid = true ∧ (s.phx.bank[7]).calStale = false ∧
    2560 < ((BitVec.ofNat 16 (50 * 256 + 1)).toInt - 256 * (s.phx.bank[7]).tCal.toInt).natAbs := by decide +kernel
theorem wit_temp_hold_end : let s : State := { base with phx := { base.phx with tempHold := true } }
    s.phx.tempHold = true ∧ (BitVec.ofNat 16 (80 * 256 - 1)).toInt < 80 * 256 ∧ s.pwr.stage = 0 ∧ (80 * 256 : Int) ≤ (BitVec.ofNat 16 (80 * 256)).toInt := by
  decide +kernel
/-- R114: a loss of light leaves a locked bank acquiring and sets LOCK_LOST. -/
theorem test_loss_of_lock : out (exec (.phxLossOfLock 7 1 2049 0) (sBank fun x => { x with en := true, st := .locked }))
    (fun t => ((t.phx.bank[7]).st, (t.phx.bank[7]).evt, (t.phx.bank[7]).worst)) = some (.acquiring, 1, 2049) := by decide +kernel

-- rails

def wOvs : WaxImg := { wimg with ovs := [.row 1 3, .part 0 3] }
def sOvs (p : Prog) (f : OvsRow → OvsRow) : State := { updRow 1 f (dn 0 p) with wax := { base.wax with img := wOvs } }
def pOvs (req : BitVec 2) : Prog := { prog0 with ovs := { req := req, reqV := true } }
theorem wit_ceiling : ({ base with ovs := { base.ovs with hot := true } } : State).ovs.hot = true ∧ base.ovs.nominal = false ∧ base.ovs.hot = false ∧
    (1 : RowId).val ≠ 0 ∧ ((sOvs (pOvs 2) id).hv h0).run = some (pOvs 2) ∧ h0.val / 12 = (1 : RowId).val ∧ (pOvs 2).ovs.reqV = true ∧
    (sOvs (pOvs 2) id).target 1 = 2 := by decide +kernel
theorem wit_request_pending : let p : Prog := { prog0 with ovs := { pend := 3, pendV := true, reqV := true } }
    ((sOvs p id).hv h0).run = some p ∧ p.ovs.pendV = true := by decide +kernel
theorem wit_rail_down : let s := sOvs (pOvs 1) fun x => { x with level := 3 }
    (s.target 1).toNat < (s.ovs.row[1]).level.toNat := by decide +kernel
/-- A pending request of OVS0 whose lead is n cycles, on a rail at OVS3. -/
def sLead (n : Nat) : State :=
  updHive h0 (fun x => { x with late := [{ seq := 0, left := n, kind := .request }] })
    (sOvs { prog0 with ovs := { req := 3, reqV := true, pend := 0, pendV := true } } fun x => { x with level := 3 })
theorem wit_rail_soon : let s := sLead 7200
    (s.ovs.row[1]).level.toNat ≤ (s.target 1).toNat ∧ s.raiseDue 1 = some 0 ∧ s.leads 1 = [7200] := by decide +kernel
theorem wit_rail_not_yet : let s := sLead 7201
    s.target 1 = (s.ovs.row[1]).level ∧ s.raiseDue 1 = none ∧ s.leads 1 = [7201] := by decide +kernel
theorem wit_rail_up : let s := sOvs (pOvs 3) id
    (s.ovs.row[1]).level.toNat < (s.target 1).toNat ∧ s.raiseDue 1 = none ∧ s.leads 1 = [] ∧ (s.ovs.row[1]).slew = false ∧
    ((sOvs (pOvs 3) fun x => { x with slew := true }).ovs.row[1]).slew = true := by decide +kernel
/-- R123, R128: a rail three levels up takes 7,200 cycles, so that a request 7,201 cycles ahead does not move it yet. -/
theorem test_rail_lead : out (exec (.ovsRailSlewStart 1 false) (sLead 7201)) (fun t => (t.ovs.row[1]).level) = some 3 ∧
    out (exec (.ovsRailSlewStart 1 false) (sLead 7200)) (fun t => (t.ovs.row[1]).level) = some 0 := by decide +kernel
theorem wit_storm_hold : let s := sOvs prog0 fun x => { x with hold := true, stormCeil := 2 }
    (s.ovs.row[1]).hold = true ∧ (s.ovs.row[1]).stormCeil.toNat = 2 := by decide +kernel
theorem wit_storm : base.target 0 = 0 ∧ (sOvs (pOvs 3) id).target 1 ≠ 0 ∧
    (((sOvs (pOvs 3) id).ovs.row[1]).slew && ((sOvs (pOvs 3) id).ovs.row[1]).stormUp) = false ∧
    (let s := sOvs (pOvs 3) fun x => { x with slew := true, stormUp := true }
     s.target 1 ≠ 0 ∧ ((s.ovs.row[1]).slew && (s.ovs.row[1]).stormUp) = true) := by decide +kernel
/-- R125: above 100 C every row is at OVS0. -/
theorem test_hot : out (exec (.computeTempThreshold (BitVec.ofNat 16 (100 * 256 + 1))) (sOvs (pOvs 3) id)) (fun t => (t.ovs.hot, t.ceilEff 1)) =
    some (true, 0) := by decide +kernel

/-- A full image (Tables 7.1 to 7.13): colony 0 owns hives 13 and 14, and its layer 1 stands on hive 13. -/
def fullBytes : List Byte :=
  [0x53, 0x4B, 0x57, 0x58, 0x03, 0x00, 0x00, 0x00, 0x02, 0x00, 0x00, 0x00, 0xD8, 0x03, 0x00, 0x00] ++
  [0x00, 0x00, 0x00, 0x00, 0x00, 0x00, 0x00, 0x00, 0x05, 0x00, 0x00, 0x00, 0x00, 0x00, 0x00, 0x00] ++
  [0xE1, 0x55, 0xD0, 0x04, 0x0D, 0xB4, 0xB8, 0x9E, 0xF2, 0x2B, 0x6D, 0xA3, 0x6F, 0xEA, 0xEC, 0x0F] ++
  [0x42, 0xD7, 0x21, 0xC4, 0x29, 0xFE, 0xC9, 0x62, 0x51, 0xE8, 0x3C, 0xDD, 0xB2, 0xBC, 0x16, 0xFC] ++
  [0x6A, 0xF3, 0x59, 0xF9, 0x57, 0x15, 0x1C, 0xC2, 0x65, 0x9F, 0x18, 0xFC, 0xF3, 0x41, 0x26, 0x7C] ++
  [0x01, 0x00, 0x01, 0x00, 0x28, 0x00, 0x00, 0x00, 0x96, 0x4B, 0x31, 0x01, 0x01, 0x00, 0x00, 0x00] ++
  [0x00, 0x00, 0x00, 0x00, 0x00, 0x00, 0x00, 0x00, 0x00, 0x00, 0x00, 0x00, 0x00, 0x00, 0x00, 0x00] ++
  [0x00, 0x00, 0x00, 0x00, 0x00, 0x00, 0x00, 0x00, 0x02, 0x00, 0x01, 0x00, 0x30, 0x00, 0x00, 0x00] ++
  [0x00, 0x01, 0x02, 0x00, 0x00, 0x04, 0x01, 0x00, 0x00, 0x00, 0x00, 0x00, 0x00, 0x00, 0x00, 0x00] ++
  [0x01, 0x00, 0x01, 0x00, 0x01, 0x00, 0x01, 0x00, 0x00, 0x20, 0x00, 0x00, 0x00, 0x00, 0x00, 0x00] ++
  [0x00, 0x00, 0x00, 0x00, 0x00, 0x00, 0x00, 0x00, 0x03, 0x00, 0x60, 0x00, 0x08, 0x03, 0x00, 0x00] ++
  (List.range 96).flatMap (fun n => [BitVec.ofNat 8 n, if n = 13 ∨ n = 14 then 0 else 0xFF, if n = 13 ∨ n = 14 then 0xFF else 0, 0, 0, 0, 0, 0]) ++
  [0x08, 0x00, 0x01, 0x00, 0x18, 0x00, 0x00, 0x00, 0x00, 0x01, 0x01, 0x00, 0x00, 0x00, 0x01, 0x00] ++
  [0x01, 0x00, 0x00, 0x00, 0x00, 0x00, 0x00, 0x00, 0x0E, 0x00, 0x01, 0x00, 0x10, 0x00, 0x00, 0x00] ++
  [0x55, 0x34, 0x57, 0x8F, 0x00, 0x00, 0x00, 0x00]

/-- A partial image of partition 0 over version 2, with the same records. -/
def partBytes : List Byte :=
  [0x53, 0x4B, 0x57, 0x58, 0x03, 0x00, 0x01, 0x00, 0x02, 0x00, 0x00, 0x00, 0xE8, 0x00, 0x00, 0x00] ++
  [0x02, 0x00, 0x00, 0x00, 0x00, 0x00, 0x00, 0x00, 0x05, 0x00, 0x00, 0x00, 0x00, 0x00, 0x00, 0x00] ++
  [0x36, 0x04, 0x01, 0xFD, 0xBE, 0x7D, 0x45, 0x0F, 0x3F, 0xE9, 0x98, 0xC8, 0x49, 0x38, 0x8D, 0x87] ++
  [0xA9, 0x02, 0xDB, 0x95, 0x06, 0xC2, 0x9F, 0x61, 0xBE, 0xA3, 0xAD, 0x76, 0xF8, 0xAE, 0xE8, 0xD8] ++
  [0x05, 0xD1, 0x18, 0xCF, 0x01, 0xE8, 0xD4, 0x81, 0x05, 0x16, 0xF5, 0x0D, 0xCC, 0x5B, 0x18, 0xC4] ++
  [0x01, 0x00, 0x01, 0x00, 0x28, 0x00, 0x00, 0x00, 0x96, 0x4B, 0x31, 0x01, 0x01, 0x00, 0x00, 0x00] ++
  [0x00, 0x00, 0x00, 0x00, 0x00, 0x00, 0x00, 0x00, 0x00, 0x00, 0x00, 0x00, 0x00, 0x00, 0x00, 0x00] ++
  [0x00, 0x00, 0x00, 0x00, 0x00, 0x00, 0x00, 0x00, 0x02, 0x00, 0x01, 0x00, 0x30, 0x00, 0x00, 0x00] ++
  [0x00, 0x01, 0x02, 0x00, 0x00, 0x04, 0x01, 0x00, 0x00, 0x00, 0x00, 0x00, 0x00, 0x00, 0x00, 0x00] ++
  [0x01, 0x00, 0x01, 0x00, 0x01, 0x00, 0x01, 0x00, 0x00, 0x20, 0x00, 0x00, 0x00, 0x00, 0x00, 0x00] ++
  [0x00, 0x00, 0x00, 0x00, 0x00, 0x00, 0x00, 0x00, 0x03, 0x00, 0x02, 0x00, 0x18, 0x00, 0x00, 0x00] ++
  [0x0D, 0x00, 0xFF, 0x00, 0x00, 0x00, 0x00, 0x00, 0x0E, 0x00, 0xFF, 0x00, 0x00, 0x00, 0x00, 0x00] ++
  [0x08, 0x00, 0x01, 0x00, 0x18, 0x00, 0x00, 0x00, 0x00, 0x01, 0x01, 0x00, 0x00, 0x00, 0x01, 0x00] ++
  [0x01, 0x00, 0x00, 0x00, 0x00, 0x00, 0x00, 0x00, 0x0E, 0x00, 0x01, 0x00, 0x10, 0x00, 0x00, 0x00] ++
  [0xB3, 0xCD, 0x0B, 0x31, 0x00, 0x00, 0x00, 0x00]

-- wax

def sWax (f : WaxSt → WaxSt) : State := { base with wax := f base.wax }
/-- A part whose image in force is of version 2, for which the partial image is made. -/
def sWax2 (f : WaxSt → WaxSt) : State := sWax fun w => f { w with img := { wimg with ver := 2, parts := [{ pid := 0, nHive := 2, csKib := 1024, supMib := 1 }], express := none } }

theorem wit_wax_states : (sWax id).wax.st = .idle ∧ (sWax fun w => { w with st := .staged }).wax.st = .staged ∧ (sWax fun w => { w with st := .trial }).wax.st ≠ .staged := by
  decide +kernel

/-- The root key of the tests. -/
def wKey : BitVec 256 := 5

/-- A commit record whose previous image is the partial one in slot B. -/
def cRec : CommitRec := CommitRec.sign wKey {
  gen := 1, curB := false, prevValid := true, curSigned := false, prevSigned := false, curVer := 2, prevVer := 2, curLen := 232, prevLen := 232
  curHash := imgHash partBytes, prevHash := imgHash partBytes, cmac := 0, complete := true }
def sRec (f : WaxSt → WaxSt) : State :=
  { sWax2 f with guard := { base.guard with drk := some wKey, keysValid := true } }
def wRec (w : WaxSt) : WaxSt := { w with slotB := partBytes, secX := some cRec }
theorem sign_valid (d : BitVec 256) (r : CommitRec) (h : r.complete = true) : (r.sign d).valid (some d) = true := by
  simp [CommitRec.sign, CommitRec.valid, CommitRec.body, h]
theorem rec_in_force {s : State} (h : s.guard.key = some wKey) (hx : s.wax.secX = some cRec) (hy : s.wax.secY = none) : s.rec? = some cRec := by
  have v : cRec.valid (some wKey) = true := sign_valid wKey _ rfl
  simp [State.rec?, State.recY, h, hx, hy, Option.filter_some, v]
theorem wit_revert_none : (sWax id).wax.st = .idle ∧ ((sWax id).rec?.map (·.prevValid)).getD false = false := by decide +kernel
theorem wit_revert : (sRec wRec).wax.st = .idle ∧ ((sRec wRec).rec?.map (·.prevValid)).getD false = true := by
  rw [rec_in_force rfl rfl rfl]; exact ⟨rfl, rfl⟩
theorem wit_revert_check : let s := sRec fun w => { wRec w with st := .checking, chkRevert := true }
    s.wax.st = .checking ∧ s.wax.chkRevert = true ∧ s.rec? = some cRec ∧
    slotCheck s (s.wax.slot (!cRec.curB)) cRec.prevLen cRec.prevHash cRec.prevSigned = none := by
  refine ⟨rfl, rfl, rec_in_force rfl rfl rfl, ?_⟩
  decide +kernel

theorem wit_stage : let s := sWax fun w => { w with src := 0x8000000 }
    s.wax.st = .idle ∧ (s.wax.src.toNat % 2 ^ 35) % 4096 = 0 ∧
    s.wax.src.toNat % 2 ^ 35 + max 16 (memReadLE s.sup.mem (s.wax.src.toNat % 2 ^ 35 + 12) 4) ≤ 2 ^ 35 := by decide +kernel
theorem wit_stage_align : let s := sWax fun w => { w with src := 0x8000008 }
    s.wax.st = .idle ∧ (s.wax.src.toNat % 2 ^ 35) % 4096 ≠ 0 := by decide +kernel
/-- An image at 0x800_0000 under its check. -/
def sChk (bs : List Byte) (n : Nat) : State :=
  { sWax2 fun w => { w with st := .checking, hold := some (0x8000000, n) } with sup := { mem := memWriteN [] 0x8000000 bs } }
theorem wit_check_fails : (sChk [] 128).wax.st = .checking ∧ (sChk [] 128).wax.chkRevert = false ∧ (sChk [] 128).wax.hold = some (0x8000000, 128) ∧
    checkWax ((sChk [] 128).ckEnv false) (memReadN (sChk [] 128).sup.mem 0x8000000 128) = some (1, 0, 0xFFFF, 0) := by decide +kernel
theorem chk_mem (bs : List Byte) (n : Nat) : (sChk bs n).sup.mem = memWriteN [] 0x8000000 bs := rfl
theorem read_back (bs : List Byte) (n : Nat) (h : bs.length = n) : memReadN (sChk bs n).sup.mem 0x8000000 n = bs := by
  rw [chk_mem, ← h]
  exact memReadN_memWriteN 0x8000000 bs rfl
theorem part_read : memReadN (sChk partBytes 232).sup.mem 0x8000000 232 = partBytes := read_back _ _ (by decide +kernel)
theorem wit_check_partial : let s := sChk partBytes 232
    s.wax.st = .checking ∧ s.wax.chkRevert = false ∧ s.wax.hold = some (0x8000000, 232) ∧
    checkWax (s.ckEnv false) (memReadN s.sup.mem 0x8000000 232) = none ∧ (uN (memReadN s.sup.mem 0x8000000 232) 6 2).testBit 0 = true := by
  refine ⟨rfl, rfl, rfl, ?_, ?_⟩ <;> rw [part_read] <;> decide +kernel
theorem full_read : memReadN (sChk fullBytes 984).sup.mem 0x8000000 984 = fullBytes := read_back _ _ (by decide +kernel)
theorem wit_check_full : let s := sChk fullBytes 984
    s.wax.st = .checking ∧ s.wax.chkRevert = false ∧ s.wax.hold = some (0x8000000, 984) ∧
    checkWax (s.ckEnv false) (memReadN s.sup.mem 0x8000000 984) = none ∧ (uN (memReadN s.sup.mem 0x8000000 984) 6 2).testBit 0 = false := by
  refine ⟨rfl, rfl, rfl, ?_, ?_⟩ <;> rw [full_read] <;> decide +kernel

/-- Staged: the partial image of partition 0, and a full one. -/
def stP : Staged := { partialImg := true, pid := 0, img := { wimg with ver := 3 }, bytes := partBytes, slotB := false, revert := false }
def stF : Staged := { partialImg := false, pid := 0, img := { wimg with ver := 3 }, bytes := [], slotB := true, revert := false }
def sSt (st : WaxState) (x : Staged) : State := sWax2 fun w => { w with st := st, staged := some x, changed := [0] }
theorem wit_writing : (sSt .writing stF).wax.st = .writing ∧ (sSt .writing stF).wax.staged = some stF := by decide +kernel
theorem wit_trial : (sSt .staged stP).wax.st = .staged ∧ ckApply ((sSt .staged stP).ckEnv false) partBytes = none ∧
    ((sSt .staged stP).changedBy stP).contains 0x40 = false := by decide +kernel
theorem wit_trial_refused : let s : State := { sSt .staged stP with wax := { (sSt .staged stP).wax with img := wimg } }
    s.wax.st = .staged ∧ ckApply (s.ckEnv false) partBytes = some (0x31, 0, 0xFFFF, 16) := by decide +kernel
def sDrain : State := { sSt .draining stP with jobs := [job0] }
theorem wit_drain : sDrain.wax.st = .draining ∧ sDrain.drained = false ∧ (sSt .draining stP).drained = true ∧
    ckApply ((sSt .draining stP).ckEnv false) partBytes = none := by decide +kernel
theorem wit_drain_timeout : let s : State := { sDrain with wax := { sDrain.wax with drainFor := some .trial } }
    s.wax.st = .draining ∧ s.wax.drainFor = some .trial ∧ s.wax.drainMs ≠ 0 := by decide +kernel
theorem wit_apply_done : let s := sSt .applying stP
    s.wax.st = .applying ∧ ∀ b, b ∈ banksOf (s.stagedImg stP) → b ∉ banksOf s.curImg → (s.phx.bank[b]).st = .locked := by decide +kernel
/-- A full image whose layer 1 is photonic, over one without. -/
def stX : Staged := { stF with img := { wimg with extracts := [{ pid := 0, layer := 1, approx := false, photonic := true, fallback := true, wset := 1 }] } }
theorem wit_apply_waits : let s := { sSt .applying stX with wax := { (sSt .applying stX).wax with img := { wimg with extracts := [] } } }
    s.wax.staged = some stX ∧ s.wax.st = .applying ∧
    ∃ b : BankId, b ∈ banksOf (s.stagedImg stX) ∧ b ∉ banksOf s.curImg ∧ (s.phx.bank[b]).st ≠ .locked := by decide +kernel
theorem wit_commit : let s := sSt .trial stF
    s.wax.st = .trial ∧ stF.partialImg = false ∧ (s.curImg.layers.any fun l => (maskHives l.hmask).any fun h => (s.ckEnv false).barren.contains h) = false ∧
    stP.partialImg = true ∧ s.wax.changed.contains 0x40 = false := by decide +kernel
theorem wit_commit_barren : let s := updHive h0 (fun x => { x with barren := true }) (sSt .trial stF)
    s.wax.st = .trial ∧ (s.curImg.layers.any fun l => (maskHives l.hmask).any fun h => (s.ckEnv false).barren.contains h) = true := by decide +kernel
theorem wit_commit_done : (sSt .committing stF).wax.st = .committing ∧ (sSt .committing stF).wax.staged = some stF := by decide +kernel
theorem wit_rollback_done : let s : State := { sSt .rollingBack stP with wax := { (sSt .rollingBack stP).wax with before := some (wimg, [], false, false) } }
    s.wax.st = .rollingBack ∧ s.drained = true ∧ s.trialPartial = true ∧
    (let s : State := { sSt .rollingBack stF with wax := { (sSt .rollingBack stF).wax with before := some (wimg, [], false, false) } }
     s.wax.st = .rollingBack ∧ s.drained = true ∧ s.trialPartial = false ∧ s.committed? = none) := by decide +kernel
theorem committed_of {s : State} {r : CommitRec} (h : s.rec? = some r)
    (k : slotCheck s (s.wax.slot r.curB) r.curLen r.curHash r.curSigned = none) : ∃ im c, s.committed? = some (im, c) := by
  simp [State.committed?, h, k]
/-- A rolled back full trial over a committed slot that loads. -/
def sBack : State := sRec fun w => { wRec w with slotA := partBytes, st := .rollingBack, staged := some stF, before := some (wimg, [], false, false) }
theorem wit_rollback_full : sBack.wax.st = .rollingBack ∧ sBack.drained = true ∧ sBack.trialPartial = false ∧
    ∃ im c, sBack.committed? = some (im, c) :=
  ⟨rfl, by decide +kernel, rfl, committed_of (rec_in_force rfl rfl rfl) (by decide +kernel)⟩
theorem wit_watchdog : let s : State := { sSt .trial stP with wax := { (sSt .trial stP).wax with wdog := some 1 } }
    s.wax.st = .trial ∧ s.wax.wdog.isSome = true ∧ s.shedPaused = false ∧ s.changedRuns = [] ∧ s.wax.changed.contains 0x40 = false := by decide +kernel
theorem wit_watchdog_waits : let s : State := { updHive h0 (fun x => { x with wait := [pHeld] }) (sSt .trial stP) with pwr := { base.pwr with stage := 6 } }
    s.wax.st = .trial ∧ s.shedPaused = true := by decide +kernel
/-- R162: STAGE outside IDLE reports BUSY. -/
theorem test_stage_busy : out (exec .stage (sSt .trial stP)) (fun t => (t.wax.st, t.wax.err)) = some (.trial, 1) := by decide +kernel

-- repair

theorem wit_insp : base.rpr.period ≠ 0 ∧ base.pwr.stage = 0 ∧ base.nextInsp 7 = some 0 ∧ base.rpr.inspGo = false ∧
    (base.rpr.insp.any fun i => i.why == .pf0) = false ∧ (BitVec.ofNat 7 0x67).toNat < 0x68 ∧
    base.canInspect (base.inspPlace 0x67).1 (base.inspPlace 0x67).2 = true ∧ base.spareFree (base.inspPlace 0x67).1 = true := by decide +kernel
def endInsp (s : State) : State := { s with rpr := { s.rpr with insp := [] } }
/-- R442: the round of a row goes on at the column after the one that it has inspected. -/
theorem test_insp_round : out (exec (.inspectionPeriodic 7 0) base) (fun t => (t.rpr.insp.map (·.target), t.nextInsp 7, (endInsp t).nextInsp 7)) =
    some ([84], none, some 1) := by decide +kernel
theorem wit_insp_busy : let s := dn 0
    s.nextInsp 1 ≠ some 1 ∧ s.nextInsp 0 = some 0 ∧ s.canInspect (s.inspPlace 13).1 (s.inspPlace 13).2 = false ∧ s.rpr.inspGo = false ∧ s.pwr.stage = 0 := by decide +kernel
theorem wit_insp_go : ({ base with rpr := { base.rpr with inspGo := true } } : State).rpr.inspGo = true := by decide
def insp1 : Insp := { target := 13, row := 1, pcol := 1, why := .periodic }
def sInsp : State := { base with rpr := { base.rpr with insp := [insp1] } }
theorem wit_insp_done : sInsp.rpr.insp = [insp1] ∧ insp1.row = (1 : RowId).val ∧ sInsp.rpr.inspWait = [] ∧ sInsp.rpr.inspGo = false ∧ sInsp.rpr.map = [] ∧
    (∀ h, sInsp.hosted insp1.row insp1.pcol = some h → (sInsp.hv h).wait = []) ∧ (let e : MapEnt := { ty := 2, org := 2, b2 := 1, b3 := 1, b4 := 7 }
    e.ty = 2 ∧ e.org = 2 ∧ e.b2.toNat = insp1.row ∧ e.b3.toNat = insp1.pcol ∧ entElement e = true) := by
  decide +kernel
theorem wit_insp_kept : let s : State := { base with rpr := { base.rpr with insp := [{ insp1 with why := .rows }] } }
    s.rpr.insp = [{ insp1 with why := .rows }] ∧ insp1.row = (1 : RowId).val := by decide +kernel
theorem wit_spare_in_use : let s : State := { base with rpr := { base.rpr with field := [{ ty := 1, org := 2, b2 := 7, b3 := 3 }] } }
    96 ≤ (0x67 : BitVec 7).toNat ∧ s.spareFree (s.inspPlace 0x67).1 = false ∧ s.rpr.inspGo = false ∧ s.pwr.stage = 0 := by decide +kernel
theorem wit_map_commit : let s : State := { base with rpr := { base.rpr with wrBusy := true, mapSrc := 1 } }
    s.rpr.wrBusy = true ∧ s.rpr.mapSrc = 1 ∧ s.rpr.dirty = false ∧ base.rpr.wrBusy = false ∧
    (let s : State := { base with rpr := { base.rpr with wrBusy := true, mapSrc := 2 } }
     s.rpr.wrBusy = true ∧ s.rpr.mapSrc = 2 ∧ s.rpr.dirty = false) := by decide +kernel
/-- R433: the record goes to the other sector with the next generation. -/
theorem test_map_commit : out (exec .mapRecordCommit { base with rpr := { base.rpr with wrBusy := true, mapSrc := 1, m0 := some { gen := 7, ents := [] } } })
    (fun t => (t.rpr.m1, t.rpr.mapSrc)) = some (some { gen := 8, ents := [] }, 2) := by decide +kernel
/-- R447: a row that waits for a spare row stays with its physical hive. -/
theorem test_move_rows : out (exec (.retirementDone 1) (updHive 14 (fun x => { x with csQueue := [5] })
    { base with rpr := { base.rpr with retire := [{ row := 1, pcol := 1, hive := 13, cause := 1, org := 2, moving := [13, 14] }] } }))
    (fun t => ((t.hv 13).csQueue, (t.hv 14).csQueue)) = some ([5], []) := by decide +kernel
def ret1 : Retire := { row := 1, pcol := 1, hive := 13, cause := 1, org := 2, moving := [13, 14] }
theorem wit_retire : let s : State := { base with rpr := { base.rpr with retire := [ret1] } }
    s.rpr.retire = [ret1] ∧ ret1.row = (1 : RowId).val ∧ s.rpr.failQ = [] ∧ (∀ h, h ∈ ret1.moving → (s.hv h).run = none ∧ (s.hv h).wait = []) ∧
    (let s : State := { dn 0 with rpr := { base.rpr with retire := [ret1] } }
     s.rpr.retire = [ret1] ∧ h0 ∈ ret1.moving ∧ (s.hv h0).run.isSome = true) := by decide +kernel
theorem wit_scrub : tabWf 0 ((updHive 95 (fun x => { x with csSeen := [(7, 2)] }) base).hv 95).csSeen = true ∧
    2 ≤ tabGet 0 ((updHive 95 (fun x => { x with csSeen := [(7, 2)] }) base).hv 95).csSeen 7 ∧
    tabGet 0 (base.hv 95).csSeen 7 < 2 := by decide +kernel
/-- R235: a row with corrected errors in a third pass is queued. -/
theorem test_scrub : out (exec (.combStoreScrub [{ hive := 95, corrected := 1, rows := [7], uncorrectable := [] }])
    (updHive 95 (fun x => { x with csSeen := [(7, 2)] }) base)) (fun t => ((t.hv 95).csQueue, (t.hv 95).csSeen)) = some ([7], []) := by decide +kernel
theorem wit_remap : let s := updHive 95 (fun x => { x with csQueue := [1535] }) base
    (s.hv 95).csQueue = [1535] ∧ s.idleHive 95 = true ∧ s.rowsUsed 7 (s.rpr.pcol.getD 95 0) < 64 ∧ (base.hv 95).csQueue = [] ∧
    (s.rpr.map.any fun x => entSame { ty := 4, org := 3, b2 := 7, b3 := 11, b4 := 0xFF, b5 := 5 } x) = false ∧
    s.rpr.pcol.getD 95 0 = 11 ∧ BitVec.ofNat 8 1535 = 0xFF ∧ BitVec.ofNat 8 (1535 / 256) = 5 := by decide +kernel
theorem wit_rows_exhausted : let e (n : Nat) : MapEnt := { ty := 4, org := 3, b2 := 7, b3 := 11, b4 := BitVec.ofNat 8 n, b5 := 0 }
    let s : State := updHive 95 (fun x => { x with csQueue := [0] }) { base with rpr := { base.rpr with field := (List.range 64).map e } }
    (s.hv 95).csQueue = [0] ∧ s.idleHive 95 = true ∧ 64 ≤ s.rowsUsed 7 (s.rpr.pcol.getD 95 0) := by decide +kernel
/-- R435: with column 1 of row 1 retired, the columns after it move by one. -/
theorem test_host_col : let m : List MapEnt := [{ ty := 1, org := 1, b2 := 1, b3 := 1 }, { ty := 1, org := 2, b2 := 1, b3 := 5 }]
    (hostCol m 1 0, hostCol m 1 1, hostCol m 1 11, hostCol m 2 11) = (0, 2, 12, 11) := by decide
theorem wit_barren : ((updHive 13 (fun x => { x with barren := true }) base).hv 13).barren = true := by decide +kernel

-- supers

theorem wit_alloc : ((base.jobs.any fun j => j.col == 63) || base.hasModel 63) = false ∧ base.allocBad 63 64 0 = false ∧ base.allocBad 63 32767 1 = false ∧
    (let s := updCol 63 (fun c => { c with caSize := 1 }) base
     s.allocBad 63 63 (s.co 63).caSize.toNat = true ∧ s.allocBad 63 32768 (s.co 63).caSize.toNat = true ∧ s.allocBad 63 64 (s.co 63).caSize.toNat = false) ∧
    (((dn 0).jobs.any fun j => j.col == 0) || (dn 0).hasModel 0) = true := by decide +kernel
theorem wit_supers_ue : let s := dn 0
    s.job? 0 = some job0 ∧ job0.st = .running ∧ job0.ending = none ∧ job0.isHome = true ∧ s.others job0 = [] ∧ s.jobRuns 0 = true := by decide +kernel
theorem wit_bar2 : State.reset.bar2Base = none ∧ base.bar2Base = some 0 ∧ base.pwr.held = false ∧ base.sup.ue = [] ∧
    (let s : State := { base with sup := { base.sup with win := 1 } }
     s.bar2Base = some 0x10000000 ∧ 0xFFFFFFC + 4 * 1 ≤ 0x10000000 ∧ 0x4000000 ≤ 0x10000000 + 0xFFFFFFC ∧ s.ueIn (0x10000000 + 0xFFFFFFC) 4 = [] ∧
     Memory.wf s.sup.mem = true) ∧ 0x3FFFFFC + 4 * 1 ≤ 0x4000000 ∧ 0x10000000 < 0xFFFFFFD + 4 * 1 ∧ 4096 < 4 * 1025 ∧
    base.maxPayload = 128 ∧ base.maxPayload < (List.replicate 129 (some (0 : Byte))).length ∧
    (List.replicate 127 (some (0 : Byte)) ++ [none]).length ≤ base.maxPayload := by decide +kernel
/-- R281 (Table 12.5): a byte whose enable is clear stays, and a read comes back in parts of at most the maximum payload. -/
theorem test_bar2_bytes : out (exec (.bar2Access (.write 0x4000000 [some 1, none, some 3])) { base with sup := { mem := [(0x4000001, 9)] } })
    (fun t => memReadN t.sup.mem 0x4000000 4) = some [1, 9, 3, 0] ∧
    out (exec (.bar2Access (.read 0x4000000 64)) base) (·.resp.parts) = some [128, 128] := by decide +kernel
/-- R222: BAR2 reads zeros from the system region and sets SYS. -/
theorem test_bar2_system : out (exec (.bar2Access (.read 0x3FFFFFC 1)) base) (fun t => (t.resp.data, t.sup.evt)) = some ([0], 2) := by decide +kernel

-- model loads

def sLoad (f : MldSt → MldSt) (b : List Byte) : State :=
  { updCol 0 (fun c => { c with caBase := 64, caSize := 1 }) base with
    mld := f { base.mld with busy := true, at_ := 0x8000000 }, sup := { mem := memWriteN [] 0x8000000 b } }
theorem wit_load : base.mld.busy = false ∧ base.mld.result = none ∧
    (let s := sLoad id []
     s.mld.busy = true ∧ s.mld.result = none ∧ s.loadFree = true ∧ (∃ b, s.mediaRead s.mld.at_ 32 = some b ∧ b.take 4 ≠ [0x53, 0x4B, 0x4D, 0x44])) ∧
    (let s := sLoad id [0x53, 0x4B, 0x4D, 0x44, 0, 1]
     ∃ b, s.mediaRead s.mld.at_ 32 = some b ∧ b.take 4 = [0x53, 0x4B, 0x4D, 0x44] ∧ (nonZero b 5 3 || nonZero b 12 4 || nonZero b 24 8) = true) ∧
    (let s := sLoad id [0x53, 0x4B, 0x4D, 0x44, 63]
     ∃ b, s.mediaRead s.mld.at_ 32 = some b ∧ b.take 4 = [0x53, 0x4B, 0x4D, 0x44] ∧ (nonZero b 5 3 || nonZero b 12 4 || nonZero b 24 8) = false ∧
       partOf? (u8 b 4) = some 63 ∧ s.loadable 63 = false) :=
  ⟨by decide +kernel, by decide +kernel, ⟨by decide +kernel, by decide +kernel, by decide +kernel, List.replicate 32 0, by decide +kernel, by decide +kernel⟩,
   ⟨[0x53, 0x4B, 0x4D, 0x44, 0, 1] ++ List.replicate 26 0, by decide +kernel, by decide +kernel, by decide +kernel⟩,
   ⟨[0x53, 0x4B, 0x4D, 0x44, 63] ++ List.replicate 27 0, by decide +kernel, by decide +kernel, by decide +kernel, by decide +kernel, by decide +kernel⟩⟩
/-- A model of one program, one instruction long, on the hive of the tests. -/
def mod0 : Model := {
  part := 0, waxVer := 0, targets := [], dir := [{ hive := h0, nInstr := 1, imgOff := 0, csOff := 0 }], image := 0x4000000, seeds := [], layers := []
  usesSync := false, usesMov := false, ents := [], plans := [] }
theorem wit_load_done : let s := sLoad (fun m => { m with result := some { code := 2 } }) []
    s.mld.result = some { code := 2 } ∧
    (let s := sLoad (fun m => { m with result := some { model := some mod0 } }) []
     s.mld.result = some { model := some mod0 }) := by decide +kernel

-- queues and mailboxes

def sQ (f : Sq → Sq) (g : VfRegs → VfRegs) : State := updSq 63 3 f (updVf 63 g base)
theorem wit_queues : let s := sQ (fun q => { q with en := true }) (fun r => { r with cqEn := true })
    (s.sq 63 3).en = true ∧ (s.co 63).resetBusy = false ∧ (15 : Word).toNat % 4096 < 2 ^ (s.sq 63 3).log2.toNat ∧
    2 ^ (s.sq 63 3).log2.toNat ≤ (16 : Word).toNat % 4096 ∧ (s.co 63).r.cqEn = true ∧ (15 : Word).toNat % 4096 < 2 ^ (s.co 63).r.cqLog2.toNat ∧
    (base.sq 63 3).en = false ∧ (base.co 63).r.cqEn = false := by decide +kernel
theorem wit_queue_config : let s := sQ id (fun r => { r with cqEn := true })
    (base.co 63).r.cqEn = false ∧ (0x14 : Word).toNat / 16 % 2 = 1 ∧ 4 ≤ (0x14 : Word).toNat % 16 ∧ (0x1C : Word).toNat % 16 ≤ 12 ∧
    (s.sq 63 3).en = false ∧ (s.co 63).r.cqEn = true ∧ (base.sq 63 0).en = false ∧
    (let s := sQ (fun q => { q with en := true }) (fun r => { r with cqEn := true })
     (s.co 63).r.cqEn = true ∧ (0 : Word).toNat / 16 % 2 = 0 ∧ ∃ q : Fin 4, (s.sq 63 q).en = true) := by decide +kernel
theorem wit_mailbox : Memory.wf (base.co 63).r.mailbox = true ∧ 508 + ([some 1, none, none, some 4] : List (Option Byte)).length ≤ 512 ∧
    512 < 509 + ([some 1, none, none, some 4] : List (Option Byte)).length := by decide +kernel
/-- R242: a doorbell beyond the ring sets DB_RANGE and leaves the tail. -/
theorem test_doorbell : out (exec (.sqDoorbell 63 3 16) (sQ (fun q => { q with en := true }) id)) (fun t => ((t.sq 63 3).tail, (t.co 63).r.err)) =
    some (0, 2) := by decide +kernel

-- jobs

/-- Descriptor bytes: class 2 and HWSEED, hives 13, output of 8 bytes. -/
def goodDesc : List Byte := [6, 0, 13, 13] ++ List.replicate 36 0 ++ [8] ++ List.replicate 23 0
theorem wit_fetch : let s := sQ (fun q => { q with en := true, tail := 1 }) id
    s.nextFetch = some (63, 3) ∧ goodDesc.length = 64 ∧ descFail goodDesc (s.co 63).highOk = none ∧
    descFail (List.replicate 63 0 ++ [1]) (s.co 63).highOk = some 1 ∧ descFail goodDesc false = some 4 ∧ (s.co 63).r.errCode = 0 ∧
    (let s := sQ (fun q => { q with en := true, tail := 1 }) (fun r => { r with errCode := 3 })
     s.nextFetch = some (63, 3) ∧ (s.co 63).r.errCode ≠ 0) := by decide +kernel
/-- R245: the first bad descriptor is recorded with its queue and index, and the head passes it. -/
theorem test_bad_descriptor : out (exec (.jobFetch 63 3 (List.replicate 63 0 ++ [1])) (sQ (fun q => { q with en := true, tail := 1 }) id))
    (fun t => ((t.co 63).r.errCode, (t.co 63).r.errSq, (t.sq 63 3).head, (t.co 63).r.err)) = some (1, 3, 1, 1) := by decide +kernel
/-- A queued job of colony 0 whose model is loaded. -/
def jobQ : Job := { job0 with slot := 959, st := .queued, d := { inHive := 13, outHive := 13, key := 9, inLen := 4 } }
def sDisp (j : Job) : State := { updCol 0 (fun c => { c with caSize := 1, csQuota := 1024 }) base with models := [mod0], jobs := [j] }
theorem wit_dispatch : let s := sDisp jobQ
    s.job? 959 = some jobQ ∧ s.mayDispatch jobQ = true ∧ s.checkFail 0 jobQ.d true = none ∧ jobQ.d.hwseed = false ∧ s.unreached jobQ = none ∧
    s.others jobQ = [] ∧ s.model? 0 = some mod0 ∧ (sDisp { jobQ with seedPend := true }).mayDispatch { jobQ with seedPend := true } = false ∧
    s.guard.en.dead = false ∧ s.guard.en.wire = [] := by decide +kernel
def jobS : Job := { jobQ with d := { jobQ.d with hwseed := true } }
theorem wit_dispatch_seed : (sDisp jobS).mayDispatch jobS = true ∧ (sDisp jobS).checkFail 0 jobS.d true = none ∧
    (let s := { sDisp { jobS with seedPend := true } with guard := { base.guard with en := { base.guard.en with wire := [(.job 959, 7)] } } }
     s.job? 959 = some { jobS with seedPend := true } ∧
     (sDisp { jobS with seeded := true, key := 7 }).mayDispatch { jobS with seeded := true, key := 7 } = true ∧
     s.guard.en.wire = [(.job 959, 7)]) := by decide +kernel
/-- R248: dispatch starts the program with g0 and g1 of the descriptor, waiting for its input. -/
theorem test_dispatch : out (exec (.jobDispatch 959) (sDisp jobQ)) (fun t => ((t.hv h0).run.isSome, (t.hv h0).wait.map (fun p => (p.slot, p.needInput)),
    (t.job? 959).map (·.key))) = some (false, [(959, true)], some 9) := by decide +kernel
def jobI : Job := { jobQ with st := .running, inputPend := true, started := true }
theorem wit_input : let s := { sDisp jobI with models := [] }
    s.job? 959 = some jobI ∧ jobI.inputPend = true ∧ jobI.st = .running ∧ ([1, 2, 3, 4] : List Byte).length = jobI.d.inLen ∧ jobI.winHive 13 = 13 ∧
    (s.fn (.vf jobI.col)).bme = true ∧ ((updFn (.vf 0) (fun f => { f with bme := false }) s).fn (.vf jobI.col)).bme = false ∧
    hiveOf? jobI.d.inHive = some 13 ∧ ([1, 2, 3, 4] : List Byte).length ≤ s.winSize 0 ∧ s.progRegion 0 13 = none ∧ Memory.wf (s.hv 13).cs = true := by
  decide +kernel
def jobE : Job := { jobI with inputPend := false }
theorem wit_end_job : let s := sDisp jobE
    s.job? 959 = some jobE ∧ jobE.col = 0 ∧ s.jobOver jobE = true ∧ jobE.ending = none ∧ jobE.degr = 0 ∧ jobE.sealed = false ∧ jobE.d.outLen = 0 ∧
    jobE.d.rreg = false ∧ jobE.repeats = 0 ∧ (s.co 0).r.cqFull = false ∧ (s.co 0).r.waiting = [] ∧ (s.co 0).resetBusy = false ∧
    (s.fn (.vf 0)).bme = true ∧ (sDisp jobI).jobOver jobI = false ∧ (s.co 0).r.modUsec = 0 ∧
    (let s := updVf 0 (fun r => { r with cqTail := 15, cqHead := 1 }) s
     (s.co 0).r.cqFull = false ∧ (s.co 0).r.cqTail + 1 = 2 ^ (s.co 0).r.cqLog2.toNat) := by decide +kernel
def rec0 : CplRec := { tag := 1, code := .ok, slot := 959 }
theorem wit_record : let s := updVf 0 (fun r => { r with waiting := [rec0], cqTail := 15 }) base
    (s.co 0).r.waiting = [rec0] ∧ (s.co 0).r.cqFull = true ∧ ((updFn (.vf 0) (fun f => { f with bme := false }) s).fn (.vf 0)).bme = false ∧
    (let s := updVf 0 (fun r => { r with waiting := [rec0], cqTail := 15, cqHead := 1, modUsec := 5, modPend := 1 }) base
     (s.co 0).r.waiting = [rec0] ∧ (s.co 0).r.cqFull = false ∧ (s.fn (.vf 0)).bme = true ∧ (s.co 0).r.modUsec ≠ 0 ∧ (s.co 0).r.modPend ≠ 0) := by
  decide +kernel
/-- R251: PHASE flips when CQ_TAIL wraps. -/
theorem test_phase : out (exec (.jobEnd 959) (updVf 0 (fun r => { r with cqTail := 15, cqHead := 1 }) (sDisp jobE)))
    (fun t => ((t.co 0).r.cqTail, (t.co 0).r.cqPhase, t.jobs.length)) = some (0, false, 0) := by decide +kernel
theorem wit_ended : let s := dn 0
    s.job? 0 = some job0 ∧ job0.st = .running ∧ job0.isHome = true ∧ s.others job0 = [] ∧ s.jobRuns 0 = true ∧ job0.ending = none ∧
    ((s.queueJobs 0).find? fun j => j.tag == 5) = none ∧ ((s.queueJobs 0).find? fun j => j.tag == job0.tag) = some job0 ∧ s.pastCancel job0 = false ∧
    s.queueJobs 0 = [job0] ∧ s.queueJobs 63 = [] ∧ (s.hv h0).evt.getLsbD 2 = false ∧
    ((updHive h0 (fun x => { x with evt := 4 }) s).hv h0).evt.getLsbD 2 = true := by decide +kernel
theorem wit_past_cancel : let s := sDisp jobE
    ((s.queueJobs 0).find? fun j => j.tag == jobE.tag) = some jobE ∧ s.pastCancel jobE = true := by decide +kernel
theorem wit_load_ue : let s := updHive h0 (fun x => { x with csUe := [2] }) (dn (6 * 2 ^ 58 + 1 * 2 ^ 54 + 2 * 2 ^ 50 + 0x13))
    s.issues h0 prog0 job0 (.ld 1 2 0x13) ∧ s.winUe 0 h0 (alignDown (prog0.g[(2 : Fin 16)] + 0x13).toNat 2) 4 = true :=
  ⟨iss_issues (by decide +kernel), by decide +kernel⟩
theorem wit_ended_already : let e : Ending := { code := .cancelled, detail := 2 }
    let s : State := { dn 0 with jobs := [{ job0 with ending := some e }] }
    s.job? 0 = some { job0 with ending := some e } ∧ s.jobRuns 0 = true ∧ job0.endNow = false ∧
    (let s : State := { dn 0 with jobs := [{ job0 with ending := some e, endNow := true }] }
     s.job? 0 = some { job0 with ending := some e, endNow := true } ∧ s.jobRuns 0 = true ∧ Code.rank .hiveFault < Code.rank .cancelled) := by decide +kernel

-- lent programs and express requests

def jobL : Job := { job0 with slot := 1, d := { cls := 2, lendOk := true, inHive := 13, outHive := 13 }, started := true }
def progL : Prog := { slot := 1, home := h0, cls := 2 }
def sLend (q : Prog) (l : List Prog) : State :=
  { updHive h0 (fun x => { x with run := some prog0, wait := l })
      (updHive 95 (fun x => { x with wait := [q] }) (updCol 0 (fun c => { c with caSize := 1, csQuota := 1024 }) base)) with
    models := [mod0], jobs := [job0, jobL] }
theorem wit_lend_start : let s := updHive 95 (fun x => { x with wait := [] }) (sLend progL [progL])
    s.job? 1 = some jobL ∧ s.lendProg 1 = some (h0, progL) ∧ s.lendHive 95 = true ∧ s.mayLend jobL = true ∧ s.lendFirst jobL = true ∧
    s.rangesUe jobL.part.val h0 = false ∧ s.lendHive 13 = false := by decide +kernel
/-- A lent program that was reclaimed. -/
def progR : Prog := { progL with lent := true, ctx := .slot, ovs := { reqV := true }, pc := 3 }
theorem wit_lent_return : let s := sLend progR []
    s.job? 1 = some jobL ∧ s.lentProg 1 = some (95, progR) ∧ s.resumable 95 = some progR ∧ progR.inStream = none ∧ progR.win = none ∧
    (let s := updHive h0 (fun x => { x with run := none }) s
     s.lentProg 1 = some (95, progR) ∧ progR.home ≠ 95 ∧ s.freeHive progR.home = true ∧ s.mayRun progR = true ∧ s.chargeAdmits = true ∧
     (s.hv progR.home).wait = [] ∧ Memory.wf (s.hv 95).cs = true) := by decide +kernel
def modX : Model := { mod0 with part := 0x40, dir := [{ hive := 95, nInstr := 1, imgOff := 0, csOff := 0 }] }
def xreg : XpSt := { inHive := 95, outHive := 95, lenIn := 512, lenOut := 4, key := 3, g2 := 1, user := 2 }
def sXp (js : List Job) (x : XpSt := xreg) : State :=
  { updVf 0 (fun r => { r with xp := x }) (updCol 0 (fun c => { c with caSize := 1 }) base) with models := [modX], jobs := js }
def jobX : Job := { xpJob 0 { xp := xreg } with slot := 960, gen := 1 }
theorem wit_xp : let s := sXp []
    (s.co 0).resetBusy = false ∧ s.xpBusy 0 = false ∧ (s.co 0).r.xp.badLen = false ∧ s.xpFail 0 (xpJob 0 (s.co 0).r).d = none ∧
    (sXp [jobX]).xpBusy 0 = true ∧ ((sXp [] { xreg with lenIn := 516 }).co 0).r.xp.badLen = true ∧
    ((updCol 0 (fun c => { c with resetBusy := true }) s).co 0).resetBusy = true := by decide +kernel
theorem wit_xp_start : let s := sXp [jobX]
    s.job? 960 = some jobX ∧ jobX.slot = 960 ∧ jobX.part.val = 0x40 ∧ s.xpNext jobX = true ∧ s.holds 0x40 = false ∧ s.pwr.stage < 5 ∧ s.isReady = true ∧
    s.xpFail 0 jobX.d = none ∧ s.model? 0x40 = some modX ∧ ({ s with boot := {} } : State).isReady = false := by decide +kernel
theorem wit_xp_kind : ∃ bs pk a, jobX.kind = .express bs pk a := ⟨_, _, _, rfl⟩
/-- R258, R260: an express request starts on its hive with the class of express. -/
theorem test_xp_start : out (exec (.expressStart 0) (sXp [jobX])) (fun t => ((t.hv 95).run.map (fun p => (p.slot, p.cls, p.g[(3 : Fin 16)])))) =
    some (some (960, 3, 512)) := by decide +kernel
theorem wit_reset : (base.co 63).resetBusy = false ∧ base.queueJobs 63 = [] ∧ (base.co 63).r.waiting = [] ∧ (base.co 63).r.xpHeld = none ∧
    (base.jobs.any fun j => j.isHome && j.col == 63) = false ∧ base.vfExists 63 = true ∧ State.reset.vfExists 63 = false ∧
    ((sXp [jobX]).jobs.any fun j => j.isHome && j.col == 0) = true ∧ (sXp [jobX]).queueJobs 0 = [] := by decide +kernel

-- the host interface

theorem wit_link : State.reset.boot.pcie = false ∧ base.boot.pcie = true ∧ base.boot.perstLow = false ∧ base.isReady = true ∧
    base.host.sriov.pageSize = 1 ∧ base.jobs = [] ∧ base.vfExists 63 = true ∧
    ({ base with host := { base.host with sriov := { base.host.sriov with pageSize := 2 } } } : State).host.sriov.pageSize ≠ 1 := by decide +kernel
theorem wit_link_colonies : ∀ c : ColId, (base.co c).r.waiting = [] ∧ (base.co c).r.xpHeld = none ∧ (base.co c).resetBusy = false := by decide +kernel
/-- VF 63 with MSI-X enabled and its vector 3 unmasked. -/
def sMsi (f : FnSt → FnSt) : State := updFn (.vf 63) f (updFn (.vf 63) (fun x => { x with
  msixEn := true, msix := List.replicate 3 {} ++ [{ addr := 8, data := 9, masked := false }] }) base)
theorem wit_vectors : (base.fn .pf0).msixEn = false ∧
    (let s := sMsi id
     (s.fn (.vf 63)).msixEn = true ∧ (s.fn (.vf 63)).msixMask = false ∧ ((s.fn (.vf 63)).ent 3).masked = false ∧ (s.fn (.vf 63)).bme = true ∧
     ((s.fn (.vf 63)).ent 0).masked = true ∧ 3 < (s.fn (.vf 63)).msix.length ∧ 3 ∈ vecsOf (.vf 63)) ∧
    (let s := sMsi fun x => { x with msixMask := true, bme := false, pba := 8 }
     (s.fn (.vf 63)).msixEn = true ∧ (s.fn (.vf 63)).msixMask = true ∧ (s.fn (.vf 63)).bme = false ∧ (s.fn (.vf 63)).pba.getLsbD 3 = true) ∧
    (let s := sMsi fun x => { x with bme := false, held := [.write .output 64 [1], .read (.input 0 1) 128 4] }
     HeldTx.write .output 64 [1] ∈ (s.fn (.vf 63)).held ∧ HeldTx.read (.input 0 1) 128 4 ∈ (s.fn (.vf 63)).held) ∧
    (∀ c : ColId, (base.co c).r.waiting = [] ∧ (base.co c).r.xpHeld = none) := by decide +kernel
theorem wit_no_drain : base.noDrain := ⟨by decide +kernel, rfl, rfl⟩
theorem wit_bme_record : let s := updVf 63 (fun r => { r with waiting := [rec0] }) (sMsi fun x => { x with bme := false })
    (s.co 63).r.waiting = [rec0] ∧ (s.co 63).r.xpHeld = none ∧ (s.co 63).r.cqFull = false := by decide +kernel
/-- R276, R278: with Bus Master Enable the held write leaves before the pending message. -/
theorem test_bus_master : let w : HeldTx := .write .output 64 [1]
    out (exec (.busMasterEnable (.vf 63)) (sMsi fun x => { x with bme := false, pba := 8, held := [w] })) (·.tx) =
    some [.msix (.vf 63) 3 8 9, .write (.vf 63) .output 64 [1] true] := by decide +kernel

def sFor (f : ForSt → ForSt) : State := updFor 15 f base
def forOk : List Byte := [4, 0, 0, 0, 4, 0, 0, 0] ++ List.replicate 8 0 ++ [0, 0, 0, 4] ++ List.replicate 12 0
theorem wit_forager_regs : (base.forg 15).claimed = false ∧ ((sFor fun f => { f with claimed := true }).forg 15).claimed = true ∧
    (15 : Word).toNat % 4096 < 2 ^ (base.forg 15).log2.toNat ∧ (base.forg 15).en = false ∧ 4 ≤ (12 : BitVec 4).toNat ∧ (12 : BitVec 4).toNat ≤ 12 ∧
    (let s := sFor fun f => { f with en := true, st := .run }
     (s.forg 15).en = true ∧ (s.forg 15).cur = none ∧ (s.forg 15).st ≠ .stopped ∧ (s.forg 15).claimed = false) ∧
    ((sFor fun f => { f with en := true, cur := some (parseFor forOk) }).forg 15).cur ≠ none ∧
    ((sFor fun f => { f with st := .stopped }).forg 15).st = .stopped ∧ ((sFor fun f => { f with st := .error }).forg 15).st = .error := by decide +kernel
theorem wit_forager : let s := sFor fun f => { f with en := true, st := .run, tail := 1 }
    s.wax.hold = none ∧ s.forTakes 15 = true ∧ forOk.length = 32 ∧ forFail forOk = none ∧ s.forSealed (parseFor forOk) = false ∧
    forFail (List.replicate 31 0 ++ [9]) = some 2 ∧ (parseFor (List.replicate 31 0 ++ [9])).wb = false ∧ forFail (3 :: List.replicate 31 0) = some 1 ∧
    (parseFor (3 :: List.replicate 31 0)).wb = false ∧ base.forTakes 15 = false := by decide +kernel
theorem wit_forager_done : let s := sFor fun f => { f with en := true, st := .run, tail := 1, cur := some (parseFor forOk) }
    let d := parseFor forOk
    (s.forg 15).cur = some d ∧ (s.forg 15).gated = false ∧ s.pwr.held = false ∧ s.host.pf0.bme = true ∧ s.forSealed d = false ∧ d.dir = 0 ∧
    ([1, 2, 3, 4] : List Byte).length = d.len ∧ 0x4000000 ≤ d.dst ∧ d.wb = true ∧ Memory.wf s.sup.mem = true ∧
    ((updFor 15 (fun f => { f with gated := true }) s).forg 15).gated = true ∧ d.dir ≠ 2 := by decide +kernel
/-- R284 (Table 12.4): a descriptor of length 0 ends with code 0x02. -/
theorem test_forager_code : out (exec (.foragerDescriptor 15 (List.replicate 32 0)) (sFor fun f => { f with en := true, st := .run, tail := 1 }))
    (fun t => ((t.forg 15).code, (t.forg 15).st, (t.forg 15).head)) = some (2, .error, 1) := by decide +kernel
theorem wit_read_fails : let s := sQ (fun q => { q with en := true, tail := 1 }) id
    s.nextFetch = some (63, 3) ∧ (s.co 63).r.errCode = 0 ∧ (s.fn (.vf 63)).ctoDis = false ∧
    (let s : State := { dn 0 with jobs := [{ job0 with inputPend := true }] }
     s.job? 0 = some { job0 with inputPend := true } ∧ s.jobRuns 0 = true ∧ s.others { job0 with inputPend := true } = []) ∧
    (let d : ForDesc := { parseFor forOk with wb := false }
     let s := sFor fun f => { f with cur := some d }
     (s.forg 15).cur = some d ∧ d.dir = 0 ∧ 0 < d.len ∧ d.wb = false) ∧
    (let s := updFn .pf0 (fun x => { x with ctoDis := true }) base
     (s.fn (rdFn s (.forData 15 []))).ctoDis = true) := by decide +kernel
/-- Table 12.5: a malformed TLP sets AER bit 18 of PF0. -/
theorem test_malformed : out (exec (.tlpError .malformed { fn := none }) base) (fun t => (t.fn .pf0).aerUnc) = some (BitVec.ofNat 32 (2 ^ 18)) := by decide +kernel

-- the Exoth ports

def sPort (f : Port → Port) : State := updPort 3 f base
def pUp : Port → Port := fun x => { x with st := .active, light := true, admitted := true, credits := creditInit }
/-- A flit from its header and payload. -/
def flit (h : Nat) (pl : List Byte) : List Byte :=
  let b := BitVec.ofNat 8 h :: pad13 pl
  b ++ leBytes 2 (crc16 0xFFFF b).toNat
theorem wit_flit_bad : ((sPort pUp).ports[(3 : PortId)]).live = true ∧ crcOk (List.replicate 16 0) = false ∧ (List.replicate 16 (0 : Byte)).length = 16 ∧
    ((sPort pUp).ports[(3 : PortId)]).discarding = false ∧ ((sPort fun x => { pUp x with discarding := true }).ports[(3 : PortId)]).discarding = true ∧
    (([] : List Byte).length ≠ 16) := by decide +kernel
theorem wit_flit_order : let bs := flit (2 + 8 + 32 * 7) [0, 0, 1]
    crcOk bs = true ∧ u8 bs 0 % 8 = 2 ∧ u8 bs 0 / 32 ≠ ((sPort pUp).ports[(3 : PortId)]).rxNext % 8 := by decide +kernel
theorem wit_flit_first : let s : State := { sPort (fun x => { pUp x with rxNext := 1023 }) with swarm := { addr := some 0 } }
    let bs := flit (2 + 8 + 32 * 7) [0, 0, 1, 0, 0, 0, 1]
    crcOk bs = true ∧ u8 bs 0 % 8 = 2 ∧ u8 bs 0 / 32 = (s.ports[(3 : PortId)]).rxNext % 8 ∧ u8 bs 0 / 8 % 4 = 1 ∧
    (s.ports[(3 : PortId)]).rxPart = [] ∧ 0 < u8 ((bs.drop 1).take 13) 2 % 64 ∧ u8 ((bs.drop 1).take 13) 2 % 64 < longest 2 ∧
    (s.ports[(3 : PortId)]).admitted = true ∧ opKnown 2 (u8 ((bs.drop 1).take 13) 6) = true ∧ u8 ((bs.drop 1).take 13) 0 % 64 = 0 ∧
    s.swarm.addr = some 0 := by decide +kernel
/-- Station 1 of a chain of three: port 3 leads to station 0 and port 2 to station 2. -/
def sThru : State := { base with
  swarm := {
    addr := some 1, st := .member, members := 7
    partners := [(0, [none, none, none, some (1, 3)]), (1, [none, none, some (2, 2), some (0, 3)]), (2, [none, none, some (1, 2), none])] }
  ports := (updPort 2 pUp (sPort pUp)).ports }
theorem wit_flit_through : let bs := flit (2 + 8) [2, 0, 1, 0, 0, 0, 1]
    let b := (bs.drop 1).take 13
    crcOk bs = true ∧ u8 bs 0 % 8 = 2 ∧ u8 bs 0 / 32 = (sThru.ports[(3 : PortId)]).rxNext % 8 ∧ u8 bs 0 / 8 % 4 = 1 ∧
    (sThru.ports[(3 : PortId)]).rxPart = [] ∧ 0 < u8 b 2 % 64 ∧ u8 b 2 % 64 < longest 2 ∧ (rxTo 3 2 b sThru).1 = .pass 2 ∧
    (sThru.ports[(2 : PortId)]).live = true ∧ (sThru.ports[(2 : PortId)]).admitted = true ∧ (sThru.ports[(2 : PortId)]).outq = [] ∧
    (sThru.ports[(2 : PortId)]).retry = [] ∧ (sThru.ports[(2 : PortId)]).loopOn = false ∧
    u8 b 2 % 64 < (sThru.ports[(2 : PortId)]).credits.getD (creditIdx 2 (rxTo 3 2 b sThru).2) 0 := by decide +kernel
/-- R309: the first flit of a message for another station leaves before its last one has come. -/
theorem test_flit_through : (out (exec (.flitReceive 3 (flit (2 + 8) [2, 0, 1, 0, 0, 0, 1])) sThru) fun t => t.tx.map fun
    | .flit q _ slot cycle => (q.val, slot, cycle)
    | _ => (9, 9, 9)) = some [(2, 0, 0)] := by decide +kernel
theorem wit_flit_whole : let s : State := { sPort pUp with swarm := { addr := some 1 } }
    let bs := flit (4 + 24) [1, 0, 0, 0, 0, 0, 5]
    let b := (bs.drop 1).take 13
    crcOk bs = true ∧ u8 bs 0 % 8 = 4 ∧ u8 bs 0 / 32 = (s.ports[(3 : PortId)]).rxNext % 8 ∧ u8 bs 0 / 8 % 4 = 3 ∧ (s.ports[(3 : PortId)]).rxPart = [] ∧
    u8 b 2 % 64 = 0 ∧ s.swarm.addr = some 1 ∧ u8 b 0 % 64 = 1 ∧ (s.ports[(3 : PortId)]).admitted = true ∧ opKnown 4 (u8 b 6) = true := by decide +kernel
def held3 : List HeldFlit := [{ num := 1022, bytes := [1] }, { num := 1023, bytes := [2] }, { num := 0, bytes := [3] }]
theorem wit_status : isLink 1 (flit 25 [1, 255, 3]) = true ∧ isLink 2 (flit 25 [2, 255, 3]) = true ∧
    (let s := sPort fun x => { pUp x with retry := held3 }
     (s.ports[(3 : PortId)]).outq = [] ∧ (s.ports[(3 : PortId)]).retry = held3.take 1 ++ ⟨1023, [2]⟩ :: held3.drop 2 ∧
     uN (((flit 25 [1, 255, 3]).drop 1).take 13) 1 2 % 1024 = 1023 ∧ uN (((flit 25 [2, 255, 3]).drop 1).take 13) 1 2 % 1024 = 1023 ∧
     (∀ g, g ∈ held3.take 1 → g.num ≠ 1023) ∧ (s.ports[(3 : PortId)]).loopOn = false ∧ (s.ports[(3 : PortId)]).resent = false ∧ (s.ports[(3 : PortId)]).failed < 16 ∧
     (s.ports[(3 : PortId)]).retry ≠ []) ∧ ((sPort pUp).ports[(3 : PortId)]).retry = [] ∧
    (∀ g, g ∈ held3 → g.num ≠ uN (((flit 25 [1, 5]).drop 1).take 13) 1 2 % 1024) := by decide +kernel
theorem wit_retry_fails : let s := sPort fun x => { pUp x with retry := held3, resent := true, failed := 15 }
    (s.ports[(3 : PortId)]).retry ≠ [] ∧ (s.ports[(3 : PortId)]).resent = true ∧ (s.ports[(3 : PortId)]).failed = 15 ∧
    (s.ports[(3 : PortId)]).partnerV = false ∧ (s.ports[(3 : PortId)]).loopOn = false ∧ (s.ports[(3 : PortId)]).light = true ∧
    ∀ q : PortId, (s.ports[q]).outq = [] := by decide +kernel
theorem nonePassed_of_empty {s : State} (h : ∀ q : PortId, (s.ports[q]).outq = []) : s.nonePassed := by
  intro q m hm; rw [h q] at hm; cases hm
theorem wit_none_passed : (sPort pUp).nonePassed := nonePassed_of_empty (by decide +kernel)
theorem wit_emit : let x (n : Nat) (loop half : Bool) : Port := (sPort fun x => { pUp x with slotN := n, loopOn := loop, half := half }).ports[(3 : PortId)]
    (x 2045 true false).slotN / 2 % 1024 ≠ 1023 ∧ (x 2045 true false).loopOn = true ∧ (x 1022 false true).slotN % 1024 ≠ 1023 ∧
    (x 2046 false false).slotN % 2 = 0 ∧ (x 2046 false false).slotN / 2 % 1024 = 1023 ∧ (x 2046 false false).half = false := by decide +kernel
/-- The light of a port that uses wavelengths 1 to 8. -/
theorem wit_light : let x : Port := { txUse := 0x1FE }
    physical x.txUse (4 * 1 + 3) = some 8 ∧ ∃ c v, (c, v) ∈ x.lightOf 3 1 0 (List.replicate 16 7) := by
  refine ⟨by decide +kernel, 5, slotWord (List.replicate 16 7) 0 ^^^ ({ txUse := 0x1FE } : Port).scramble 3 5 0, ?_⟩
  refine List.mem_filterMap.2 ⟨0, by decide, ?_⟩
  rw [show physical ({ txUse := 0x1FE } : Port).txUse (4 * 1 + 0) = some 5 by decide +kernel]
  rfl
/-- R297: one IDLE fills each slot of the 1,024th cycle. -/
theorem test_idle : (emit 3 [1] (sPort fun x => { pUp x with slotN := 2046 })).tx =
    [.flit 3 [1] 0 1024, .flit 3 idleFlit 1 1023, .flit 3 idleFlit 0 1023] := by decide +kernel
/-- R304: a NAK resends the held flits from the number it names. -/
theorem test_nak : out (exec (.nak 3 (flit 25 [2, 255, 3])) (sPort fun x => { pUp x with retry := held3 })) (·.tx) =
    some [.flit 3 [3] 1 0, .flit 3 [2] 0 0] := by decide +kernel
/-- R312: eight good wavelengths below the spare are used; of six the lowest four. -/
theorem test_use_set : useSet 0x1FF = some 0xFF ∧ useSet 0x1F8 = some 0x78 ∧ useSet 0x1FE = some 0x1FE ∧ useSet 7 = none := by decide +kernel
theorem wit_port_states : ((sPort fun x => { x with st := .safe }).ports[(3 : PortId)]).st = .safe ∧ ((sPort id).ports[(3 : PortId)]).st = .down ∧
    ((sPort fun x => { x with st := .answer }).ports[(3 : PortId)]).st = .answer ∧ ((sPort fun x => { x with st := .relit }).ports[(3 : PortId)]).st = .relit ∧
    ((sPort fun x => { x with st := .train }).ports[(3 : PortId)]).st = .train ∧ ((sPort fun x => { x with st := .train }).ports[(3 : PortId)]).loopOn = false ∧
    useSet 0x0F = some 0x0F ∧ useSet 7 = none ∧ freqOk 0x8000 = false ∧ freqOk 16000 = true ∧
    (let x := (sPort fun x => { x with st := .retrain }).ports[(3 : PortId)]
     x.st = .retrain ∧ x.retry = [] ∧ x.outq = [] ∧ x.loopOn = false ∧ x.carries = true) ∧
    (let s := sPort fun x => { x with en := false }
     (s.ports[(3 : PortId)]).en = false ∧ s.boot.stage = 6 ∧ (s.ports[(3 : PortId)]).loopOn = false ∧ (s.ports[(3 : PortId)]).carries = false) ∧
    (let x := (sPort fun x => { x with st := .train, loopOn := true }).ports[(3 : PortId)]
     x.st = .train ∧ x.loopOn = true) := by decide +kernel
/-- A TRAIN payload that reports wavelengths 0 to 3 of a partner with serial number 6 and echo 80. -/
def train3 : List Byte := flit 25 ([3] ++ trainBytes { good := 0xF, serial := 6, echo := 80 })
theorem wit_train : isLink 3 train3 = true ∧ (readTrain ((train3.drop 1).take 13)).good = 0xF ∧ isLink 4 (flit 25 [4, 255, 3]) = true ∧
    isLink 4 train3 = false ∧ isLink 3 (flit 25 [4]) = false ∧ (sPort id).ports[(3 : PortId)].training = false ∧
    ((sPort id).ports[(3 : PortId)]).peer = none ∧ ((sPort id).ports[(3 : PortId)]).carries = false ∧
    ((sPort id).ports[(3 : PortId)]).lossNow = false ∧ ((sPort fun x => { x with st := .relit }).ports[(3 : PortId)]).training = true ∧
    uN (((flit 25 [4, 255, 3]).drop 1).take 13) 1 2 % 1024 = 1023 ∧ ((sPort pUp).ports[(3 : PortId)]).rxUse.getLsbD 0 = false ∧
    ((sPort fun x => { pUp x with rxUse := 1 }).ports[(3 : PortId)]).rxUse.getLsbD 0 = true ∧
    ((sPort pUp).ports[(3 : PortId)]).carries = true ∧
    ((sPort fun x => { x with peer := some { good := 0xF, serial := 6, echo := 80 } }).ports[(3 : PortId)]).peer.isSome = true := by decide +kernel
/-- R311: what the partner reports is noted in training. -/
theorem test_train : out (exec (.train { port := 3, bytes := train3 }) (sPort fun x => { x with st := .relit })) (fun t => ((t.ports[(3 : PortId)]).st, (t.ports[(3 : PortId)]).peer)) =
    some (.train, some { good := 0xF, serial := 6, echo := 80 }) := by decide +kernel
theorem wit_serial : ∃ serial : BitVec 64, serial ≠ Config.dsn := ⟨Config.dsn + 1, by simp⟩
theorem wit_port_lost : let x := (sPort pUp).ports[(3 : PortId)]
    x.partnerV = false ∧ x.loopOn = false ∧ x.live = true ∧ x.light = true ∧ x.st = .active ∧
    (let x := (sPort fun x => { pUp x with light := false }).ports[(3 : PortId)]
     x.live = true ∧ x.light = false) ∧
    (let x := (sPort fun x => { pUp x with st := .retrain }).ports[(3 : PortId)]
     x.live = false ∧ x.st = .retrain ∧ x.light = true) ∧
    (let x := (sPort fun x => { x with st := .train, lossNow := true, lossCause := 4 }).ports[(3 : PortId)]
     x.live = false ∧ x.lossNow = true ∧ 2 < x.lossCause.toNat ∧ x.st ≠ .retrain) ∧
    -14 * 256 ≤ (BitVec.ofInt 16 (-14 * 256)).toInt ∧ (BitVec.ofInt 16 (-14 * 256 - 1)).toInt < -14 * 256 ∧
    ((sPort id).ports[(3 : PortId)]).lossNow = false ∧ ∀ q : PortId, ((sPort pUp).ports[q]).outq = [] := by decide +kernel
/-- R321: of two causes of one cycle the lower code stands. -/
theorem test_two_causes : out (exec (.heartbeatTimeout 3) (sPort fun x => { x with st := .train, lossNow := true, lossCause := 4 }))
    (fun t => (t.ports[(3 : PortId)]).lossCause) = some 2 := by decide +kernel
/-- R321: loss of light, cause 1; LOSS and LIGHT_LOST are set. -/
theorem test_light : out (exec (.lossOfLight 3 (BitVec.ofInt 16 (-15 * 256))) (sPort pUp)) (fun t => let x := t.ports[(3 : PortId)]; (x.st, x.lossCause, x.evt, x.lossCount)) =
    some (.safe, 1, 3, 1) := by decide +kernel

-- swarm jobs and messages

/-- A chain of two stations; this one is `a`, its port to the other 3. -/
def chain2 (a : StnId) : SwarmSt := {
  addr := some a, st := .member, members := 3
  partners := [(0, [none, none, none, some (1, 3)]), (1, [none, none, none, some (0, 3)])] }
def sSw (a : StnId) (js : List Job) : State := { sDisp jobQ with jobs := js, swarm := chain2 a, ports := (sPort pUp).ports }
def hdr (src home : StnId) (tag : BitVec 16) : MsgHdr := { port := 3, src := src, home := home, tag := tag }
def dm0 : DispatchMsg := { col := 0, cls := 1, replayable := false, checkpoint := false, waxVer := 0, key := 5, span := 3 }
theorem wit_exchange : let j : Job := { job0 with span := 3, started := true }
    let s := sSw 0 [j]
    (s.ports[(3 : PortId)]).outq = [] ∧ s.jobs = [j] ∧ j.isHome = true ∧ j.st = .running ∧ j.ending = none ∧ s.othersDone j = false := by decide +kernel
theorem wit_dispatch_msg : let s := sSw 1 []
    s.holds (colPart 0) = false ∧ (hdr 0 0 7).home ≠ s.stn ∧ s.farJob (hdr 0 0 7) = none ∧ s.swarm.route s.stn.val 0 = some [0] ∧
    s.swarm.portTo s.stn.val 0 = some 3 ∧ s.swarm.st = .member ∧ s.checkFail 0 (farJobOf (hdr 0 0 7) dm0).d dm0.hives.isSome = none ∧
    s.checkFail 0 (farJobOf (hdr 0 0 7) { dm0 with hives := some (13, 14) }).d true = none ∧
    s.checkFail 0 (farJobOf (hdr 0 0 7) { dm0 with hives := some (0, 14) }).d true ≠ none ∧
    s.checkFail 0 (farJobOf (hdr 0 0 7) { dm0 with waxVer := 9 }).d false = some (mismatchEnd s 0 1) ∧
    ({ s with swarm := { chain2 1 with st := .detached } } : State).swarm.st = .detached ∧
    ({ s with mld := { s.mld with hold := some 0 } } : State).holds (colPart 0) = true := by decide +kernel
def jobH : Job := { job0 with span := 3, slot := 2 }
theorem wit_home : let s := sSw 0 [jobH]
    let m := hdr 1 0 jobH.tag
    s.homeJob m = some jobH ∧ s.job? 2 = some jobH ∧ jobH.st = .running ∧ jobH.started = false ∧ s.model? 0 = some mod0 ∧
    s.homeJob (hdr 1 0 3) = none ∧ (∀ a, a ∈ s.others jobH → a ≠ m.src → jobH.accepted.getLsbD a.val = true) ∧
    (sSw 0 [{ jobH with started := true }]).homeJob m = some { jobH with started := true } := by decide +kernel
theorem wit_home_waits : let j : Job := { jobH with span := 7, started := true }
    let s := sSw 0 [j]
    s.homeJob (hdr 1 0 j.tag) = some j ∧ s.job? 2 = some j ∧ j.ending = none ∧ (2 : StnId) ∈ s.others j ∧ (2 : StnId) ≠ 1 ∧ j.done.getLsbD 2 = false := by
  decide +kernel
theorem wit_done : let e : Ending := { code := .cancelled, detail := 1 }
    let j : Job := { jobH with st := .stopping, ending := some e, started := true }
    let s := sSw 0 [j]
    s.homeJob (hdr 1 0 j.tag) = some j ∧ s.job? 2 = some j ∧ j.kind = .queue 0 ∧ s.jobRuns 2 = false ∧
    (∀ a, a ∈ s.others j → a ≠ (1 : StnId) → j.done.getLsbD a.val = true) ∧ (s.co 0).r.cqFull = false ∧ (s.co 0).r.waiting = [] := by decide +kernel
/-- A job whose lost station 2 the standby 1 takes over, which has not accepted yet. -/
def jobT : Job := { jobH with st := .running, started := true, role := some (2, 1), span := 7 }
def sStandby : State := { sSw 0 [jobT] with swarm := { chain2 0 with stby := 2 } }
theorem wit_standby : let s := sStandby
    s.homeJob (hdr 1 0 jobT.tag) = some jobT ∧ s.job? 2 = some jobT ∧ jobT.kind = .queue 0 ∧ jobT.st = .running ∧ jobT.ending = none ∧
    jobT.role = some (2, 1) ∧ jobT.accepted.getLsbD 1 = false ∧ s.swarm.stby = BitVec.ofNat 64 (2 ^ 1) ∧ (s.co 0).r.cqFull = false ∧
    (s.co 0).r.waiting = [] ∧ (s.fn (.vf 0)).bme = true ∧ jobH.role = none := by decide +kernel
/-- R342: with the last standby gone the job ends, with SWARM_LOST. -/
theorem test_standby_rejects : out (exec (.reject (hdr 1 0 jobT.tag) 0x11 5) sStandby) (fun t => t.jobs.length) = some 0 := by decide +kernel
def jobF : Job := { farJobOf (hdr 0 0 7) dm0 with st := .running, started := true }
def sFar (p : Option Prog) : State := updHive h0 (fun x => { x with run := p }) (sSw 1 [jobF])
theorem wit_stop_msg : let s := sSw 1 []
    s.farJob (hdr 0 0 7) = none ∧ (hdr 0 0 7).home ≠ s.stn ∧ s.swarm.route s.stn.val 0 = some [0] ∧ (s.swarm.portTo s.stn.val 0).isSome = true ∧
    (let s := sFar (some { prog0 with slot := jobF.slot })
     s.farJob (hdr 0 0 7) = some jobF ∧ jobF.st = .running ∧ jobF.ending = none ∧ jobF.isHome = false ∧ s.jobRuns jobF.slot = true) := by decide +kernel
theorem wit_take_msg : let x : InMsg := { port := 3, kind := 4, vc := 1, payload := [0, 1, 0, 0, 7, 0, 5], nflits := 1 }
    let m := hdr 1 0 7
    let s : State := { sSw 0 [] with inbox := [x] }
    x.port = m.port ∧ x.payload.getD 6 0 = BitVec.ofNat 8 5 ∧ x.payload.getD 1 0 = BitVec.ofNat 8 m.src.val ∧
    x.payload.getD 3 0 = BitVec.ofNat 8 m.home.val ∧ uN x.payload 4 2 = m.tag.toNat ∧ s.inbox = [x] ∧ (sSw 0 []).inbox = [] := by decide +kernel
def jobB (n : Nat) : Job := { jobH with started := true, bars := jobH.bars.set 31 { target := 2, count := n } }
theorem wit_arrive_msg : let s := sSw 0 [jobB 0]
    s.homeJob (hdr 1 0 (jobB 0).tag) = some (jobB 0) ∧ s.job? 2 = some (jobB 0) ∧ ((jobB 0).bars[(31 : Fin 32)]).count + 1 < ((jobB 0).bars[(31 : Fin 32)]).target ∧
    (let s := sSw 0 [jobB 1]
     s.homeJob (hdr 1 0 (jobB 1).tag) = some (jobB 1) ∧ ((jobB 1).bars[(31 : Fin 32)]).target ≠ 0 ∧
     ((jobB 1).bars[(31 : Fin 32)]).target ≤ ((jobB 1).bars[(31 : Fin 32)]).count + 1 ∧ s.isCkpt (jobB 1) 31 = false ∧ (1 : StnId) ∈ s.others (jobB 1) ∧
     s.swarm.route s.stn.val 1 = some [1] ∧ (s.swarm.portTo s.stn.val 1).isSome = true) := by decide +kernel
theorem wit_far_data : let p : Prog := { prog0 with slot := jobF.slot, acc := [(1023, 0xFFFFFFFF)] }
    let s := sFar (some p)
    s.farJob (hdr 0 0 7) = some jobF ∧ s.isCkpt jobF 31 = false ∧ s.anyJob (hdr 0 0 7) = some jobF ∧ (s.hv h0).run = some p ∧ p.sealed = false ∧
    tabWf 0 p.acc = true ∧ s.job? jobF.slot = some jobF ∧ jobF.winHive 14 = 14 ∧ s.jobOwns jobF 14 = true ∧ (s.progOf jobF.slot 14).bind (·.win) = none ∧
    ([1, 2] : List Byte).length ≤ s.winSize 0 ∧ s.progRegion 0 14 = none ∧ Memory.wf (s.hv 14).cs = true ∧ s.jobOwns jobF 0 = false := by decide +kernel
/-- R336: a count of 24 bits adds with its sign, modulo 2^32. -/
theorem test_add : out (exec (.add (hdr 0 0 7) h0 1023 [0xFFFFFF]) (sFar (some { prog0 with slot := jobF.slot, acc := [(1023, 0)] })))
    (fun t => (t.hv h0).run.map fun p => tabGet 0 p.acc 1023) = some (some 0xFFFFFFFF) := by decide +kernel
theorem wit_ckpt_data : let s := sSw 0 [jobH]
    s.homeJob (hdr 1 0 jobH.tag) = some jobH ∧ jobH.ckpt = [] ∧
    (let j : Job := { jobH with ckpt := [{ k := 3 }] }
     (sSw 0 [j]).homeJob (hdr 1 0 j.tag) = some j ∧ (j.ckpt.filter fun c => decide (2 < c.k)).length < 2) := by decide +kernel

-- lost stations

theorem wit_lost : let s := sSw 0 []
    s.swarm.st ≠ .draining ∧ s.swarm.drainOwed = false ∧ s.swarm.walk = none ∧ s.swarm.has 63 = false ∧ s.swarm.has 1 = true ∧ (1 : StnId) ≠ s.stn ∧ s.reaching 1 = [] ∧
    (let j : Job := { jobH with started := true, reach := 3 }
     let s := sSw 0 [j]
     s.jobs = [j] ∧ s.reaching 1 = [j] ∧ j.kind = .queue 0 ∧ j.d.replayable = false ∧ j.ending = none ∧ (s.co 0).r.cqFull = false ∧
     (s.co 0).r.waiting = [] ∧ (s.fn (.vf 0)).bme = true) := by decide +kernel
def progF : Prog := { prog0 with slot := jobF.slot, ctx := .supers, pc := 4 }
def ck1 : OwnCkpt := { slot := jobF.slot, k := 1, progs := [progF], scratch := [] }
theorem wit_rollback : let s : State := { sFar none with swarm := { chain2 1 with ckpts := [ck1] } }
    let m := hdr 0 0 7
    m.home ≠ s.stn ∧ s.job? (farSlot m) = some jobF ∧ (5 : StnId) ≠ s.stn ∧
    s.swarm.ckpts.find? (fun c => c.slot == farSlot m && c.k == 1 && 1 != 0) = some ck1 ∧
    (∀ p, p ∈ ck1.progs → p.slot = farSlot m ∧ p.ctx ≠ .fresh) := by decide +kernel
theorem wit_ckpt_load : let j : Job := { jobF with ckptK := 2 }
    let s := sSw 1 [j]
    s.farJob (hdr 0 0 7) = some j ∧ j.ckptK = 2 ∧ j.ckpt = [] ∧ s.progOf j.slot h0 = none ∧ s.ckptBytes 0 h0 = 8640 ∧
    (List.replicate 8640 (1 : Byte)).length = 8640 ∧ (sSw 1 []).farJob (hdr 0 0 7) = none := by decide +kernel
/-- R340: a failed station leaves the map, which has a new generation. -/
theorem test_fail : out (exec (.stnFail (hdr 1 1 0) 1 0) (sSw 0 [])) (fun t => (t.swarm.members, t.swarm.mapGen, t.swarm.failStn, t.swarm.evt)) =
    some (1, 1, 1, 4) := by decide +kernel

-- the walk

def sWalk (f : SwarmSt → SwarmSt) (root : Bool := true) (js : List Job := []) : State :=
  { base with swarm := f {}, jobs := js, ports := Vector.replicate 4 { st := .active, en := true }
              boot := { base.boot with straps := { base.boot.straps with rootN := !root, stnMode := true } } }
/-- A job of another station. -/
def jobW : Job := { jobF with slot := 9 }
theorem wit_enum : (sWalk id false).isRoot = false ∧ (sWalk fun w => { w with walk := some {} }).swarm.walk.isSome = true ∧
    (let s : State := { sWalk id with boot := { base.boot with straps := { base.boot.straps with rootN := false, stnMode := false, stnAddr := 5 } } }
     s.isRoot = true ∧ s.swarm.walk = none ∧ s.boot.straps.stnMode = false ∧ s.boot.straps.stnAddr ≠ 0) ∧
    (let s := sWalk id true [jobW]
     s.isRoot = true ∧ s.swarm.walk = none ∧ s.boot.straps.stnMode = true ∧ s.swarmBusy = true ∧ s.swarm.st ≠ .draining) := by decide +kernel
theorem wit_drained : let s := sWalk fun w => { w with st := .walking, walk := some {} }
    s.swarmBusy = false ∧ s.swarm.drainOwed = false ∧ s.isRoot = true ∧ s.peers = [] ∧ (s.ports[(1 : Fin 4)]).st = .active ∧
    (s.ports[(1 : Fin 4)]).self = false ∧ (({} : Walk).phase = .draining) ∧ (sWalk id true [jobW]).swarmBusy = true := by decide +kernel
theorem wit_token : let s := sWalk id false
    s.swarm.walk = none ∧ s.isRoot = false ∧ s.boot.straps.stnMode = true ∧ (s.ports[(3 : PortId) + 1]).st = .active ∧
    (s.ports[(3 : PortId) + 1]).self = false ∧ (let s : State := { s with ports := Vector.replicate 4 {} }
     ∀ q, q ≠ (3 : PortId) → (s.ports[q]).st ≠ .active) := by decide +kernel
def walkT : Walk := { phase := .token, list := [1] }
def walkL : Walk := { phase := .links, list := [1] }
theorem wit_token_ret : let s := sWalk (fun w => { w with walk := some walkT }) false
    s.swarm.walk = some walkT ∧ walkT.phase = .token ∧ walkT.left = [] ∧ s.isRoot = false ∧ (sWalk id).swarm.walk = none := by decide +kernel
theorem wit_links : let s := sWalk fun w => { w with walk := some walkL, addr := some 0 }
    let m := hdr 1 0 0
    s.swarm.walk = some walkL ∧ s.isRoot = true ∧ walkL.phase = .links ∧ walkL.list = [m.src.val] ∧ walkL.links = [] ∧
    s.swarm.topoOk [(s.stn, s.myPartners), (m.src, [])] = false ∧
    (let s : State := { s with ports := (updPort 3 (fun x => { x with partnerV := true, partner := 1, pport := 2 }) s).ports }
     s.swarm.topoOk [(s.stn, s.myPartners), (m.src, [some (0, 3)])] = true) := by decide +kernel
theorem wit_walk_rest : (sWalk id).swarm.walk = none ∧ (sWalk id).swarm.drain = false ∧
    (sWalk (fun w => { w with walk := some {} }) false).isRoot = false ∧ (sWalk id).swarm.st ≠ .member ∧
    (sWalk (fun w => { w with st := .member }) true [jobW]).swarm.st = .member ∧ (sWalk (fun w => { w with st := .member }) true [jobW]).swarmBusy = true ∧
    (sWalk fun w => { w with st := .member }).swarmBusy = false := by decide +kernel
/-- R327: a station without further ports takes the value of the token as its address and returns the token. -/
theorem test_token : out (exec (.token (hdr 0 0 0) 63 false [5]) { sWalk id false with ports := Vector.replicate 4 { st := .safe } })
    (fun t => (t.swarm.addr, t.tx.contains (.walk 3 63 (.tokenRet 63 false [5, 63])))) = some (some 63, true) := by decide +kernel

-- the Guard

/-- A window that passes: a maximal sequence of period 31 on every pair. -/
def pairBits : BitVec 4096 := BitVec.ofNat 4096 (0x2EC7CD21 * ((2 ^ 4123 - 1) / (2 ^ 31 - 1)))
def winOk : List (BitVec 4096) := List.replicate 4 pairBits
theorem wit_window : winReasons winOk false = 0 := by decide +kernel
theorem wit_window_stuck : winReasons winOk true ≠ 0 := by decide +kernel

/-- A window that every pair has delivered. -/
def enWin (e : EntropySt) : EntropySt := { e with pairs := Vector.replicate 4 { n := 4096, bits := pairBits.toNat } }
theorem wit_window_full : (({ enWin {} with pairs := (enWin {}).sample [] } : EntropySt).full = true) ∧ ({ enWin {} with pairs := (enWin {}).sample [] } : EntropySt).window = winOk ∧
    (({} : EntropySt).pairs.toList.all fun x => decide (4096 ≤ x.n)) = false := by decide +kernel
theorem wit_window_runs : (({ n := 4096, bits := pairBits.toNat } : PairSt).stuck 4096) = false := by decide +kernel
/-- R345: of the pairs 10, 00, 01, 11, first bit first, the XOR keeps 1, 0, 1, 0 and von Neumann 1, 0. -/
theorem test_conditioner : condBits false 3 4 0b11100001 = (4, 0b0101) ∧ condBits true 3 4 0b11100001 = (2, 0b01) := by decide +kernel
/-- R349: 64 equal bits across the edge of a window are a run. -/
theorem test_stuck : ({ run := 63, last := true, n := 4096, bits := 1 } : PairSt).stuck 4096 = true ∧
    ({ run := 62, last := true, n := 4096, bits := 1 + 4 * pairBits.toNat } : PairSt).stuck 1 = false := by decide +kernel
theorem wit_health : (base.guard.en.dead = false) ∧ base.guard.en.passes = 0 ∧ base.guard.en.startup = true ∧ base.guard.en.run = 0 ∧
    (let e : EntropySt := { passes := 1, run := 1 }
     e.startup = true ∧ 1 ≤ e.passes ∧ e.run = 1 ∧ e.dead = false) ∧ base.jobs = [] := by decide +kernel
theorem wit_no_sp : ∀ c : ColId, (base.co c).r.sp.busy = false := by decide +kernel
def enOk : EntropySt := { ready := true, startup := false }
def sEn (f : EntropySt → EntropySt) (js : List Job := []) : State := { base with guard := { base.guard with en := f enOk }, jobs := js }
theorem wit_calls : enOk.throttled = false ∧ enOk.calls.toNat < 2 ^ 16 ∧
    (sEn id [{ jobS with seedPend := true }]).maySend (.job 959) = true ∧
    (updSp 63 (fun x => { x with busy := true }) (sEn id)).maySend (.sp 63) = true ∧
    (sEn id).maySend .port = true ∧
    ({ sEn id with guard := { (sEn id).guard with busy := true, op := 6 } } : State).maySend .keyManager = true ∧
    (updHive h0 (fun x => { x with claimed := true, wait := [{ prog0 with paused := some .seal }] }) (sEn id)).maySend .cipher = true ∧
    (sEn fun e => { e with portReq := false }).maySend .port = false ∧ enOk.raw = false := by decide +kernel
/-- Every consumer waits: a deferral holds sealed work, DRK_PROG runs, a port waits for its seed. -/
def sAll (f : EntropySt → EntropySt) : State :=
  let s := updHive h0 (fun x => { x with claimed := true, wait := [{ prog0 with paused := some .seal }] }) (updSp 63 (fun x => { x with busy := true }) (sEn f))
  { s with guard := { s.guard with busy := true, op := 6 } }
theorem wit_turns : (∀ i, (sAll id).placeWaits i = true) ∧ (sAll id).guard.en.throttled = false ∧
    (let s := sAll fun e => { e with throttled := true }
     s.guard.en.throttled = true ∧ s.keyWaits = true) ∧
    (let s := sAll fun e => { e with raw := true }
     s.guard.en.raw = true ∧ s.guard.en.dead = false ∧ s.keyWaits = true) ∧
    (let s := sAll fun e => { e with calls := 0x100000, blocks := [List.replicate 128 0] }
     s.guard.en.ready = true ∧ s.guard.en.dead = false ∧ s.guard.en.raw = false ∧ s.guard.en.calls.toNat = 2 ^ 20 ∧ s.keyWaits = true) := by decide +kernel
/-- R354: the turn goes round. -/
theorem test_turn : ((sAll fun e => { e with turn := 1 }).nextPlace, (sAll fun e => { e with turn := 1 }).maySend (.sp 63), (sAll id).maySend (.sp 63)) =
    (some 2, true, false) := by decide +kernel
theorem wit_reseed : let e : EntropySt := { enOk with needReseed := true, blocks := [List.replicate 128 0] }
    e.ready = true ∧ e.dead = false ∧ e.raw = false ∧ e.needReseed = true ∧ e.blocks = [List.replicate 128 0] ∧ enOk.needReseed = false ∧
    (let s := sEn fun e => { e with calls := 0x10000, port := [1], portReq := false }
     2 ^ 16 ≤ s.guard.en.calls.toNat ∧ s.noneWaits = true) := by decide +kernel
theorem wit_port : (sEn id).answers .pf0 = true ∧ (sEn id).answers .guard = true ∧ (sEn id).boot.stage ≠ 7 ∧
    (({ enOk with port := [5] } : EntropySt).port = [5]) ∧ enOk.port = [] ∧ (({ enOk with dead := true } : EntropySt).dead = true) := by decide +kernel
theorem wit_raw : enOk.rawReq = false ∧
    (let s := sEn fun e => { e with rawReq := true, rawAsk := true }
     s.guard.en.rawReq = true ∧ s.guard.en.rawAsk = true ∧ s.guard.seals = 0 ∧ s.keyWaits = false ∧ s.cipherWaits = false ∧
     ({ s with guard := { s.guard with seals := 1 } } : State).guard.seals ≠ 0) ∧
    (({ enOk with raw := true, fifo := List.replicate 1023 0 } : EntropySt).fifo.length < 1024) ∧
    1024 ≤ (({ enOk with raw := true, fifo := List.replicate 1024 0 } : EntropySt).fifo.length) ∧ base.guard.locked = false ∧ enOk.cond ≠ true ∧
    base.guard.lc ≠ 1 ∧ (({ base.guard with lc := 1 } : GuardSt).lc = 1) ∧ enOk.tp ≠ true ∧ enOk.sel = 4 ∧
    (({ enOk with sel := 3 } : EntropySt).sel ≠ 4) := by decide +kernel
/-- R363: in rotation, bit 5 of the word is the second bit of pair 1. -/
theorem test_raw_word : enOk.rawWord [0, 2, 0, 0] = 32 ∧ ({ enOk with sel := 3 } : EntropySt).rawWord [0, 0, 0, 9] = 9 := by decide +kernel
/-- R363: a word beyond 1,024 is dropped and OVF is set. -/
theorem test_raw_overflow : out (exec (.rawFifoWord [1, 0, 0, 0]) (sEn fun e => { e with raw := true, fifo := List.replicate 1024 0 }))
    (fun t => (t.guard.en.fifo.length, t.guard.en.ovf)) = some (1024, true) := by decide +kernel

def sCmd (f : GuardSt → GuardSt) : State :=
  updFor 15 (fun x => { x with claimed := true }) { base with guard := f { base.guard with busy := true, ch := 15, keysValid := true } }
theorem wit_cmd_busy : (sCmd id).guard.busy = true ∧ base.guard.busy = false := by decide +kernel
theorem wit_cmd_done : let s := sCmd id
    (15 : ChanId).val = s.guard.ch.toNat ∧ (s.host.forager[(15 : ChanId)]).claimed = true ∧ s.guard.en.throttled = false ∧ s.guard.verdict = none ∧
    (sCmd fun g => { g with verdict := some 8 }).guard.verdict = some 8 ∧
    (sCmd fun g => { g with op := 3, drk := some 5, blk := [1] }).guard.key = some 5 ∧
    (sCmd fun g => { g with op := 3, drk := some 5, blk := [1] }).guard.blk ≠ [] ∧
    (base.host.forager[(15 : ChanId)]).cur = none ∧ (15 : ChanId).val = base.guard.fch.toNat ∧
    (sCmd fun g => { g with op := 3, inForce := some false }).guard.inForce = some false ∧
    (sCmd fun g => { g with op := 6, drawn := some [1] }).guard.drawn = some [1] ∧
    (let s := sCmd fun g => { g with op := 1, drawn := some [1], col := 0 }
     s.guard.op = 1 ∧ s.guard.col.toNat = (0 : ColId).val ∧ h0 ∈ s.hivesOwned 0 ∧ (s.hv h0).gated = false) ∧
    (let s := sCmd fun g => { g with op := 6, en := { g.en with dead := true } }
     s.guard.op = 6 ∧ s.guard.drawn = none ∧ s.guard.en.dead = true) := by decide +kernel
theorem wit_wax_uses : (sCmd id).waxUsesCe = false ∧ (sSt .committing stF).waxUsesCe = true := by decide +kernel
theorem wit_ce_gate : ({ base.guard with ceClaimed := true } : GuardSt).ceClaimed = true ∧ base.guard.ceClaimed = false := by decide +kernel
/-- R381: KEY_UPDATE waits for the descriptor in progress on its channel before it reads its block; an empty block then gives ARG. -/
theorem test_key_update_waits : out (exec .keyUpdate (updFor 15 (fun f => { f with cur := some { dir := 0, wb := false, stop := false, len := 0, src := 0, dst := 0 } }) base))
    (fun t => (t.guard.busy, t.guard.verdict, t.guard.blk, (t.forg 15).claimed)) = some (true, none, [], false) ∧
    out (exec .keyUpdate { base with guard := { base.guard with keysValid := true, src := 0x4000000 } }) (fun t => (t.guard.verdict, t.guard.blk.length, (t.forg 15).claimed)) =
      some (some 3, 1056, true) := by decide +kernel
/-- R374, R381: LC_OPEN ends with the lifecycle FIELD_OPEN and OK; LC_SEAL with FIELD_SEALED. -/
theorem test_lifecycle : out (exec (.guardCommandDone true) (sCmd fun g => { g with op := 4, lc := 1 })) (fun t => (t.guard.lc, t.guard.result)) = some (2, 0) ∧
    out (exec (.guardCommandDone true) (sCmd fun g => { g with op := 5 })) (fun t => (t.guard.lc, t.guard.locked)) = some (3, true) := by decide +kernel
/-- R381: a command that meets a running one answers BUSY. -/
theorem test_cmd_busy : out (exec .drkProg (sCmd fun g => { g with result := 0 })) (fun t => (t.guard.result, t.guard.busy)) = some (1, true) := by decide +kernel

def jobSl : Job := { job0 with sealed := true, slot := 4 }
def progSl : Prog := { prog0 with slot := 4, ctx := .slot, paused := some .seal, pc := 6 }
def sSeal (f : Hive → Hive) : State := updHive h0 (fun x => f { x with claimed := true }) { sEn id [jobSl] with
  guard := { (sEn id).guard with seals := 1 } }
theorem wit_deferral : (base.hv h0).claimed = false ∧
    (let s := sSeal fun x => { x with clkDefer := true, run := some prog0 }
     (s.hv h0).claimed = true ∧ (s.hv h0).clkDefer = true ∧ (s.hv h0).run.isSome = true ∧ StopWhy.seal ∉ (s.hv h0).stops) ∧
    (let s := sSeal fun x => { x with clkDefer := true }
     (s.hv h0).run = none ∧ s.sealedHeld h0 = [] ∧ s.guard.en.throttled = false) ∧
    (let s := sSeal fun x => { x with pwrDefer := true, wait := [progSl] }
     (s.hv h0).pwrDefer = true ∧ (s.hv h0).run = none ∧ (s.hv h0).wait = [progSl] ∧ s.sealedHeld h0 = [progSl] ∧ s.job? 4 = some jobSl ∧
     s.guard.en.serves = true ∧ s.guard.en.calls.toNat < 2 ^ 16 ∧ s.guard.en.ivs = [] ∧ s.guard.en.tp = false ∧ s.guard.en.dead = false ∧
     ({ s.guard.en with turn := 0 } : EntropySt).turn = 0) ∧
    (let s : State := { sSeal (fun x => { x with pwrDefer := true, wait := [progSl] }) with guard := { base.guard with en := {} } }
     s.sealedHeld h0 ≠ [] ∧ s.guard.en.ivs = [] ∧ s.guard.en.raw = false ∧ s.guard.en.ready = false ∧ s.guard.en.dead = false) ∧
    (({ enOk with ivs := [[1, 2]] } : EntropySt).ivs = [[1, 2]]) := by decide +kernel
def stub0 : Prog := { slot := 4, home := h0, ctx := .supers, sealed := true }
def save0 : SaveSet := { slot := 4, hive := h0, cnt := 1, iv := [], prog := { progSl with paused := none }, scratch := [] }
def sStub : State := updHive 14 (fun x => { x with run := some { prog0 with slot := 4, home := 14 } })
  (updHive h0 (fun x => { x with wait := [stub0] }) { sEn id [jobSl] with guard := { (sEn id).guard with saves := [save0] } })
theorem wit_sealed_resume : sStub.sealedStub 4 = some (h0, stub0) ∧ sStub.guard.saves.find? (fun y => y.slot == 4 && y.hive == stub0.home) = some save0 ∧
    sStub.job? 4 = some jobSl ∧ sStub.freeHive h0 = true ∧ sStub.mayRun stub0 = true ∧ sStub.wax.img.owner? h0.val = some jobSl.part.val ∧
    sStub.chargeAdmits = true ∧ sStub.rangesUe 0 save0.hive = false ∧ save0.prog.slot = 4 ∧ jobSl.st = .running ∧ jobSl.ending = none ∧ sStub.jobRuns 4 = true ∧ sStub.others jobSl = [] ∧
    base.sealedStub 4 = none ∧ base.guard.busy = false ∧ ({ base.guard with seals := 1 } : GuardSt).seals ≠ 0 := by decide +kernel
/-- R391: a save set that verifies runs again from its PC. -/
theorem test_sealed_resume : out (exec (.sealedResume h0 4 true) sStub) (fun t => ((t.hv h0).run.map (·.pc), (t.hv h0).claimed, t.guard.saves.length)) =
    some (some 6, true, 0) := by decide +kernel

-- timebase, power, reset, boot, observation

def sTb (f : TbSt → TbSt) : State := { base with tb := f {} }
theorem wit_edges : edgeOffs 749999999 = 749999999 ∧ edgeOffs 750000000 = -750000000 ∧ edgeOffs 1499998500 = -1500 ∧ edgeOffs 1498 = 1498 ∧ edgeOffs 1501 = 1501 ∧
    base.swarm.tsrc = false ∧ base.tb.ppsEn = true ∧ base.boot.stage = 6 ∧ base.tb.setsecPend = false ∧ base.tb.st = .free ∧
    (-1500 : Int) % 4 ≠ 2 ∧ ((sTb fun t => { t with st := .locked }).tb.ftrim - (-1500 + 2) / 4).natAbs ≤ 450000 ∧
    (sTb fun t => { t with st := .acquire, acq := 1 }).tb.acq = 1 ∧ (sTb fun t => { t with st := .acquire }).tb.acq = 0 ∧
    (sTb fun t => { t with st := .holdover, badrun := 2 }).tb.badrun = 2 ∧ (sTb fun t => { t with st := .locked, badrun := 1 }).tb.badrun.toNat < 2 ∧
    (sTb fun t => { t with mode := false }).tb.mode = false ∧ base.tb.mode = true ∧ base.tb.poutEn = true ∧ State.reset.boot.stage ≠ 6 := by decide +kernel
/-- The root of a chain of two stations. -/
def sRootOf2 : State := { sSw 0 [] with
  boot := { base.boot with straps := { base.boot.straps with rootN := false, stnMode := false, stnAddr := 0 } } }
theorem wit_ticks : let s := sRootOf2
    s.isRoot = true ∧ s.swarm.members ≠ 0 ∧ s.swarm.st ≠ .detached ∧ (1 : StnId) ∈ s.tickNext ∧ s.swarm.route s.stn.val 1 = some [1] ∧
    (s.swarm.portTo s.stn.val 1).isSome = true ∧ base.swarm.members = 0 ∧
    (let s : State := { sTb (fun t => { t with st := .locked }) with swarm := { tsrc := true } }
     s.swarm.tsrc = true ∧ s.isRoot = false ∧ s.boot.stage = 6 ∧ s.tb.st = .locked ∧ s.tb.mode = true ∧
     (edgeOffs (subLess 100 (60 + hopTime s.ports[(3 : PortId)]))).natAbs ≤ 1500) := by decide +kernel
theorem wit_rollover : base.isRoot = false ∧ (sTb fun t => { t with setsecPend := true, st := .locked }).tb.setsecPend = true ∧
    ({ base with swarm := { tsrc := true } } : State).swarm.tsrc = true := by decide +kernel
/-- R399: an edge in FREE starts ACQUIRE with a step to 3; an edge that comes before 0 takes the second with it. -/
theorem test_edge : out (exec (.ppsEdge 1499999990 0) base) (fun t => (t.tb.st, t.tb.sub, t.tb.sec, t.tb.offs)) = some (.acquire, 3, 1, 0xFFFFFFF6) := by
  decide +kernel
/-- R399: two good intervals lock. -/
theorem test_lock : out (exec (.ppsEdge 0 1500000100) (sTb fun t => { t with st := .acquire, acq := 1 })) (fun t => (t.tb.st, t.tb.ftrim, t.tb.evt)) =
    some (.locked, -100, 8) := by decide +kernel

def sPw (f : PwrSt → PwrSt) : State := { base with pwr := f {} }
theorem wit_power_a : (sPw fun p => { p with bGood := true }).pwr.bGood = true ∧ base.pwr.srcB = false ∧ base.pwr.st = .main ∧ base.pwr.bGood = false ∧
    (sPw fun p => { p with st := .standby }).pwr.st = .standby ∧ base.pwr.closing = false ∧
    (let s := sPw fun p => { p with st := .backup, srcB := true }
     s.pwr.closing = false ∧ s.pwr.srcB = true ∧ s.pwr.st = .backup ∧ s.pwr.aGood = true) ∧
    (let s := sPw fun p => { p with closing := true, bGood := true, bkup := 3 }
     s.pwr.closing = true ∧ s.pwr.bGood = true ∧ 120 ≤ s.budget ∧ s.pwr.stage = 0 ∧ s.pickStage ≠ 0) ∧
    (let s := sPw fun p => { p with closing := true, bGood := true, bkup := 2 }
     s.budget < 120 ∧ s.jobs = []) := by decide +kernel
theorem wit_power_b : (let s := sPw fun p => { p with stage := 6 }
     s.pwr.stage = 6 ∧ s.pwr.held = false ∧ s.cutSealed = [] ∧ base.pwr.stage ≠ 6) ∧
    (∀ h : HiveId, (base.hv h).run = none) ∧
    (let s := sPw fun p => { p with st := .ride, stage := 6, resume := true }
     s.pwr.st = .ride ∧ s.pwr.aGood = true ∧ s.pwr.resume = true) ∧ base.pwr.resume = false ∧
    (let s := sPw fun p => { p with st := .standby, resume := true }
     s.pwr.st = .standby ∧ s.pwr.aGood = true ∧ s.pwr.resume = true) ∧ base.boot.dark = false ∧
    (let s := sPw fun p => { p with st := .ride, aGood := false }
     s.boot.dark = false ∧ s.pwr.st = .ride ∧ s.pwr.aGood = false) ∧
    (let s : State := { base with boot := { base.boot with dark := true } }
     s.boot.dark = true ∧ s.boot.cause ≠ 4) := by decide +kernel
theorem wit_budget : 0x5F < (0x60 : Word).toNat % 128 ∧ (0x5F : Word).toNat % 128 ≤ 0x5F ∧ base.pwr.st ≠ .backup ∧
    (let u := sPw fun p => { p with st := .backup, stage := 0, bkup := 0x5F }
     120 ≤ u.budget ∧ u.pickStage = 0) ∧
    (let u := sPw fun p => { p with st := .backup, stage := 0, bkup := 3 }
     120 ≤ u.budget ∧ u.pickStage ≠ 0) := by decide +kernel
/-- R410, R415: a switchover with a budget of 12 W sheds to stage 6. -/
theorem test_switchover : out (exec .switchover (sPw fun p => { p with closing := true, bGood := true, bkup := 3 })) (fun t =>
    (t.pwr.st, t.pwr.stage, t.pwr.switches, t.pwr.evt)) = some (.backup, 6, 1, 1) := by decide +kernel

theorem wit_resets : base.noBoot = false ∧ base.host.link.up = true ∧ State.reset.host.link.lost = false ∧
    ({ base with host := { base.host with link := { up := false, lost := true } } } : State).host.link.lost = true ∧ base.boot.stage = 6 ∧ State.reset.host.link.up = false ∧
    State.reset.boot.stage ≠ 6 ∧ State.reset.boot.stage ≠ 7 ∧ base.jobs = [] ∧
    (let s : State := { base with boot := { base.boot with stage := 7, rcode := 1 } }
     s.boot.stage = 7 ∧ s.boot.rcode ≠ 2) ∧ (0x63FF : BitVec 16).toInt < 25600 ∧ 25600 ≤ (0x6400 : BitVec 16).toInt ∧
    (let s : State := { base with boot := { base.boot with tripPend := true } }
     s.boot.dark = false ∧ s.boot.tripPend = true ∧ s.boot.thermtrip = false) := by decide +kernel
/-- R456, Table 20.2: a warm reset keeps the supers above the system region. -/
theorem test_warm : out (exec .warm { base with sup := { mem := [(5, 1), (0x4000000, 2)] } }) (fun t => (t.sup.mem, t.boot.stage, t.boot.cause)) =
    some ([(0x4000000, 2)], 1, 0xA) := by decide +kernel
def sBoot (k : BitVec 4) (f : BootSt → BootSt := id) : State := { base with boot := f { base.boot with stage := k } }
theorem wit_boot : (∀ k : BitVec 4, (sBoot k).noBoot = false) ∧ (sBoot 5).boot.perstLow = false ∧
    (sBoot 5 fun b => { b with perstLow := true }).boot.perstLow = true ∧
    (∀ b, b ∈ banksOf (sBoot 5).wax.img → ((sBoot 5).phx.bank[b]).st ≠ .cal ∧ ((sBoot 5).phx.bank[b]).st ≠ .acquiring) ∧
    (let s := sBoot 6 fun b => { b with fwSrc := 1, flags := 1 }
     s.boot.stage = 6 ∧ s.boot.fwSrc = 1 ∧ s.boot.flags.getLsbD 0 = true) ∧ base.boot.fwSrc ≠ 1 := by decide +kernel
/-- R459, R462: a boot without a firmware copy ends in RECOVERY with cause 1; the last stage makes the part READY. -/
theorem test_boot : out (exec (.bootStageDone { fwA := false, fwB := false }) (sBoot 2)) (fun t => (t.boot.stage, t.boot.rcode, t.boot.fwSrc)) = some (7, 1, 3) ∧
    out (exec (.bootStageDone {}) (sBoot 5)) (fun t => (t.isReady, (t.ports[(0 : PortId)]).st)) = some (true, .safe) := by decide +kernel

def sObs (f : ObsSt → ObsSt) : State := { base with obs := f {} }
theorem wit_obs : base.glassOn 7 = false ∧ (sObs fun o => { o with en := true, kindEn := 0x7F }).glassOn 7 = true ∧
    (1 : Word).getLsbD 0 = true ∧ base.obs.en = false ∧ base.obs.ringBase < 0x4000000 ∧
    (let s := sObs fun o => { o with base := 0x4000000, size := 0xFFFF }
     0x4000000 ≤ s.obs.ringBase ∧ s.obs.ringBase + 4096 * s.obs.size.toNat ≤ 0x800000000 ∧
     s.ringHits s.obs.ringBase (4096 * s.obs.size.toNat) = false) ∧ (0 : Word).getLsbD 0 = false ∧ base.obs.buf = [] := by decide +kernel
theorem wit_ring : let r : List Byte := List.replicate 32 7
    (let s := sObs fun o => { o with buf := [r], mode := true, base := 0x4000000, wr := 127 }
     s.obs.buf = [r] ∧ s.obs.size ≠ 0 ∧ s.obs.mode = true ∧ r.length = 32 ∧ Memory.wf s.sup.mem = true) ∧
    (let s := sObs fun o => { o with buf := [r], wr := 127, rd := 0 }
     s.obs.mode = false ∧ (s.obs.wr + 1) % (128 * s.obs.size.toNat) = s.obs.rd % (128 * s.obs.size.toNat)) := by decide +kernel
theorem wit_sampler : (0x10000000 : Word).getLsbD 28 = true ∧ (sObs fun o => { o with smpArm := true }).obs.smpArm = true ∧ base.obs.smpBase < 0x4000000 ∧
    (let s := sObs fun o => { o with smpDst := 0x4000000 }
     0x4000000 ≤ s.obs.smpBase ∧ s.obs.smpBase + 2048 ≤ 0x800000000 ∧ s.obs.smpArm = false) := by decide +kernel
theorem wit_csel : (0x105F : Word).toNat / 65536 % 2 = 0 ∧ (0x105F : Word).toNat / 256 % 4 = 0 ∧ (0x105F : Word).toNat % 128 < 96 ∧
    (0x1113F : Word).toNat / 65536 % 2 = 1 ∧ (0x1113F : Word).toNat / 256 % 4 = 1 ∧ (0x1113F : Word).toNat % 128 < 64 ∧
    (0x207 : Word).toNat / 256 % 4 = 2 ∧ (0x207 : Word).toNat % 128 < 8 ∧ (0x300 : Word).toNat / 256 % 4 = 3 := by decide +kernel
/-- R480, R485: a record goes to the ring at GL_WR, which wraps. -/
theorem test_ring : out (exec .glassRecordWrite (sObs fun o => { o with buf := [List.replicate 32 7], mode := true, base := 0x4000000, wr := 127 }))
    (fun t => (t.obs.wr, memRead t.sup.mem (0x4000000 + 32 * 127), t.obs.buf)) = some (0, 7, []) := by decide +kernel
theorem wit_bmc : base.pllOn = true ∧ State.reset.pllOn = false ∧ base.bmc.alert = false ∧
    ({ base with bmc := { base.bmc with alert := true } } : State).bmc.alert = true ∧ smbCode 0x0B = false ∧ smbCode 0xFF = false ∧
    base.boot.resetLow = false ∧ ({ base with boot := { base.boot with resetLow := true } } : State).boot.resetLow = true := by decide +kernel
/-- Table 23.4 and R507: PPS_OUT is low and no alert is shown until READY, while ALARM_N follows its causes. -/
theorem test_pins : let s : State := { State.reset with ovs := { State.reset.ovs with hot := true }, bmc := { State.reset.bmc with alert := true }, tb := { State.reset.tb with ppsOut := true } }
    s.outPin .alarmN = some false ∧ s.outPin .ppsOut = some false ∧ s.outPin .smbAlertN = none ∧
    ({ s with boot := { s.boot with stage := 6 } } : State).outPin .smbAlertN = some false := by decide +kernel
/-- R504: IDCODE shifts out the identifier of the part. -/
theorem test_idcode : out (exec .idcode base) (·.bmc.out) = some (some [0x4D, 0x68, 0xB9, 0x14]) := by decide +kernel

-- the machine

/-- A part with an express write before an output in its arbiter. -/
def sArb : State := { base with tx := [.write (.vf 1) .xpRecord 0 [1], .write (.vf 0) .output 0 [2]] }
theorem wit_arbiter : sArb.host.link.up = true ∧ (sArb.txWaiting.find? fun x => x.2 == .express) = some (1, .express) ∧ base.txWaiting = [] ∧
    (∀ p : PortId, (base.ports[p]).lossNow = false ∧ (base.ports[p]).loopIn = []) ∧ base.guard.en.throttled = false := by decide +kernel
/-- R289: an express TLP leaves first. -/
theorem test_arbiter : out (step sArb) (·.wired) = some [1] := by decide +kernel
/-- Tables 12.2 and 12.6: the identification of the part, and its Link Status at x16 and 32.0 GT/s with Slot Clock Configuration. -/
theorem test_config : base.cfgRead .pf0 0 = 0x4B961F4C ∧ base.cfgRead .pf0 0x70 >>> 16 = 0x3105 := by decide +kernel
theorem wit_step : base.rpr.inspWait = [] ∧ base.pwr.stage = 0 ∧ base.pending = [] ∧ (∀ h : HiveId, (base.hv h).run = none) ∧ base.tb.sub < 1499999999 ∧
    (sTb fun t => { t with sub := 1499999998 }).tb.sub < 1499999999 ∧ ¬(sTb fun t => { t with sub := 1499999999 }).tb.sub < 1499999999 := by decide +kernel
def sTrim (f : Int) (p : Int) (n : Nat) : State := { base with tb := { base.tb with ftrim := f, phase := p, sub := n } }
/-- R397: a trim below 0 holds TB_SUB, a trim above 0 skips, and a slew of a timebase that is ahead holds it and is used up. -/
theorem test_corrections : ((out (step (sTrim (-450000) (-1499600000) 7)) (·.tb.sub)), (out (step (sTrim 450000 1499600000 7)) (·.tb.sub)),
    (out (step (sTrim 450000 0 7)) (·.tb.sub)), (out (step { base with tb := { base.tb with slew := 1, slewPhase := 1499900000, phase := -1499900000, sub := 7 } })
      (fun t => (t.tb.sub, t.tb.slew)))) = (some 7, some 9, some 8, some (7, 0)) := by decide +kernel
theorem wit_corrections : (sTrim 0 0 7).pending = [] ∧ (sTrim 0 0 7).tb.sub < 1499999998 ∧ (sTrim 0 0 7).guard.en.throttled = false ∧
    (sTrim 0 0 7).txWaiting = [] ∧ (∀ p : PortId, ((sTrim 0 0 7).ports[p]).lossNow = false ∧ ((sTrim 0 0 7).ports[p]).loopIn = []) ∧
    (sTrim 0 0 1499999999).tb.sub = 1499999999 ∧ (1500000000 : Int) ≤ (sTrim 450000 1499600000 7).tb.phase + (sTrim 450000 1499600000 7).tb.ftrim +
      (sTrim 450000 1499600000 7).tb.slewRate := by decide +kernel
/-- Log entry 1: the queue is first in, first out. -/
theorem test_queue : out (step { base with pending := [.setsec, .idcode] }) (fun t => (t.tb.setsecPend, t.pending, t.bmc.out)) =
    some (true, [.idcode], none) := by decide +kernel
theorem wit_canonical : base.canonical := by
  refine ⟨by decide +kernel, by decide +kernel, by decide +kernel, ?_, ?_⟩
  · intro x hx; exact absurd hx (by simp [base])
  · intro k hk; exact absurd hk (by simp [base])
theorem wit_lifecycle : base.lifecycleOk := by
  refine ⟨by decide, ?_⟩
  intro h; exact absurd h (by decide)
theorem wit_lifecycle_moves : ∃ t, exec (.guardCommandDone true) (sCmd fun g => { g with op := 4, lc := 1 }) = .next t ∧
    t.guard.lc ≠ (sCmd fun g => { g with op := 4, lc := 1 }).guard.lc :=
  ⟨_, rfl, by decide +kernel⟩

-- well-formedness refuses

theorem wf_write : (Instr.registerWrite (.bar .pf0 2 [(0, 0xF)])).wf = false ∧ (Instr.registerWrite (.bar .pf0 0 [])).wf = false ∧
    (Instr.registerWrite (.cfg .pf0 .numVfs (2 ^ 32))).wf = false := by decide
theorem wf_pairs : (Instr.pairLoRead .pf0 2 false).wf = false ∧ (Instr.pairHiRead .pf0 1).wf = false := by decide
theorem wf_cal : (Instr.phxCalDone 0 (.ok [] [] 0)).wf = false ∧ (Instr.phxLossOfLock 0 1 2048 0).wf = false := by decide
theorem wf_scrub : (Instr.combStoreScrub [{ hive := 0, corrected := 0, rows := [1536], uncorrectable := [] }]).wf = false ∧
    (Instr.combStoreScrub [{ hive := 0, corrected := 0, rows := [], uncorrectable := [196608] }]).wf = false := by decide
theorem wf_bar2 : (Instr.bar2Access (.read 0 0)).wf = false ∧ (Instr.bar2Access (.write 0 [])).wf = false := by decide
theorem wf_fetch : (Instr.jobFetch 0 0 (List.replicate 63 0)).wf = false := by decide
theorem wf_queue_config : (Instr.queueConfigWrite 0 0xFFC 0).wf = false ∧ (Instr.queueConfigWrite 0 0x1080 0).wf = false ∧
    (Instr.queueConfigWrite 0 0x1002 0).wf = false := by decide
theorem wf_mailbox : (Instr.mailboxWrite 0 512 [none]).wf = false ∧ (Instr.mailboxWrite 0 0 []).wf = false := by decide
theorem wf_unmask : (Instr.msixUnmask .pf0 64).wf = false ∧ (Instr.msixUnmask (.vf 0) 4).wf = false := by decide
theorem wf_forager : (Instr.foragerDescriptor 0 (List.replicate 31 0)).wf = false := by decide
theorem wf_read_fail : (Instr.cellarReadFail (.input 0) .ok).wf = false := by decide
theorem wf_link : (Instr.linkUp 2 1).wf = false ∧ (Instr.linkUp 16 0).wf = false ∧ (Instr.linkUp 16 6).wf = false := by decide
theorem wf_flits : (Instr.flitReceive 0 []).wf = false ∧ (Instr.status 0 []).wf = false ∧ (Instr.nak 0 []).wf = false := by decide
theorem wf_dispatch : (Instr.dispatch (hdr 0 0 0) { dm0 with cls := 3 }).wf = false := by decide
theorem wf_codes : (Instr.reject (hdr 0 0 0) 256 0).wf = false ∧ (Instr.swStop (hdr 0 0 0) 256).wf = false ∧
    (Instr.timeout (hdr 0 0 0) 64 0).wf = false ∧ (Instr.timeout (hdr 0 0 0) 0 4).wf = false := by decide
theorem wf_tick : (Instr.tick (hdr 0 0 0) 0 0 1500000000 0).wf = false := by decide
theorem wf_data : (Instr.add (hdr 0 0 0) 0 1023 [1, 2]).wf = false ∧ (Instr.move (hdr 0 0 0) 0 0 []).wf = false ∧
    (Instr.ckptData (hdr 0 0 0) 1 0 0 []).wf = false ∧ (Instr.ckptLoad (hdr 0 0 0) 1 0 0 []).wf = false := by decide
theorem wf_token : (Instr.token (hdr 0 0 0) 256 false []).wf = false ∧ (Instr.token (hdr 0 0 0) 0 false [64]).wf = false ∧
    (Instr.tokenRet (hdr 0 0 0) 256 false []).wf = false ∧ (Instr.tokenRet (hdr 0 0 0) 0 false [64]).wf = false ∧
    (Instr.links (hdr 0 0 0) [none]).wf = false := by decide
theorem wf_window : (Instr.htWindowClose [] []).wf = false ∧ (Instr.htWindowClose [1, 1, 1, 1] [2, 2, 2, 2]).wf = false ∧
    (Instr.rawFifoWord [1]).wf = false := by decide
theorem wf_edge : (Instr.ppsEdge 1500000000 0).wf = false := by decide
theorem wf_inspection : (Instr.inspectionPeriodic 8 0).wf = false ∧ (Instr.inspectionPeriodic 0 13).wf = false := by decide
theorem wf_accepts : (Instr.registerWrite (.bar .pf0 8 [(0, 0xF)])).wf = true ∧ (Instr.mailboxWrite 63 511 [some 1]).wf = true ∧
    (Instr.ppsEdge 1499999999 0).wf = true ∧ (Instr.inspectionPeriodic 7 12).wf = true := by decide

end Sys2Proof.Tests
end

section
/-! The reads that clear (R6 type RC, R520) and the part after its first cold reset (R17, R458, R459). -/

namespace Sys2Proof.Machine

-- reads of one register that is no half of a pair

/-- The address names, for this requester, one whole register of its BAR0 that is no half of a pair (R280, R407). -/
structure NamesSingle (who : Req) (a : Nat) (r : Reg) : Prop where
  named : regNamed who a = some r
  notHigh : isHiHalf who a = false
  notLow : r.hiOf = none
  aligned : a % 4 = 0
  fits : a + 4 ≤ barSize who

/-- Outside RECOVERY a register that is no half of a pair reads as its value, and only the effect of its read happens. -/
theorem readWord_single {who : Req} {a : Nat} {r : Reg} {s : State} (h : NamesSingle who a r) (hs : s.boot.stage ≠ 7) :
    readWord who a s = (regRead s r, regReadEffect r s) := by
  simp only [readWord, h.named, h.notHigh, h.notLow, beq_false_of_ne hs, Bool.false_and, Bool.false_eq_true, if_false]

/-- The answered read of one DW of such a register returns the value held before the read's effect. -/
theorem readAt_single {who : Req} {a : Nat} {r : Reg} {s : State} (h : NamesSingle who a r) (ha : s.answers who = true)
    (hs : s.boot.stage ≠ 7) : readAt who a false s = (regReadEffect r s).reply [regRead s r] := by
  have hfit : ¬ barSize who < a + 4 := Nat.not_lt.2 h.fits
  simp [readAt, barRead, ha, hfit, goodSpan, h.aligned, readWord_single h hs]

-- where PF0 reads the fields of type RC (Table 24.3)

theorem namesSingle_capTemp : NamesSingle .pf0 0x24 (.cap .temp) := ⟨rfl, rfl, rfl, rfl, by decide⟩
theorem namesSingle_supCeCnt : NamesSingle .pf0 0xB0018 (.sup .ceCnt) := ⟨rfl, rfl, rfl, rfl, by decide⟩
theorem namesSingle_obsGlDrop : NamesSingle .pf0 0xF011C (.obs .glDrop) := ⟨rfl, rfl, rfl, rfl, by decide⟩

theorem namesSingle_phxErr (b : BankId) : NamesSingle .pf0 (0xA0110 + 0x40 * b.val) (.phx (.err b)) where
  named := by revert b; decide
  notHigh := by revert b; decide
  notLow := rfl
  aligned := by omega
  fits := by simp only [barSize]; omega

-- one bank of the extractor after an update

@[simp] theorem updBank_bank_same (b : BankId) (f : Bank → Bank) (s : State) :
    (updBank b f s).phx.bank[b] = f s.phx.bank[b] := updAt_same _ _ _

theorem updBank_bank_other (b c : BankId) (f : Bank → Bank) (s : State) (h : c ≠ b) :
    (updBank b f s).phx.bank[c] = s.phx.bank[c] := updAt_other _ _ _ _ h

-- each read that clears: the value before the cycle's update is returned, the update meets the cleared field (R520)

section
variable {s : State} (ha : s.answers .pf0 = true) (hs : s.boot.stage ≠ 7)
include ha hs

theorem exec_capTempRead_quiet : exec (.capTempRead false none) s = .next
    { s with boot := { s.boot with peak := 0 }, resp := { data := [regRead s (.cap .temp)] } } := by
  have hread := readAt_single namesSingle_capTemp ha hs
  change execCapTempRead false none s = _
  simp only [execCapTempRead, hread]
  rfl

theorem exec_capTempRead_sample (x : BitVec 16) : exec (.capTempRead false (some x)) s = .next
    { s with boot := { s.boot with tj := x, peak := x }, resp := { data := [regRead s (.cap .temp)] } } := by
  have hread := readAt_single namesSingle_capTemp ha hs
  change execCapTempRead false (some x) s = _
  simp only [execCapTempRead, hread, ha, if_true]
  rfl

/-- A count below 2^32 added to the cleared counter does not reach its limit. -/
theorem exec_supCeCntRead (n : Nat) (hn : n < 2 ^ 32) : exec (.supCeCntRead false n) s = .next
    { s with sup := { s.sup with ceCnt := BitVec.ofNat 32 n }, resp := { data := [s.sup.ceCnt] } } := by
  have hread := readAt_single namesSingle_supCeCnt ha hs
  have hcount : min 0xFFFFFFFF ((0 : BitVec 32).toNat + n) = n := by
    have hzero : (0 : BitVec 32).toNat = 0 := rfl
    omega
  change execSupCeCntRead false n s = _
  simp only [execSupCeCntRead, hread, regReadEffect, State.reply, regRead, supRead, hcount]

theorem exec_obsGlDropRead : exec (.obsGlDropRead false) s = .next
    { s with obs := { s.obs with drop := 0 }, resp := { data := [s.obs.drop] } } := by
  have hread := readAt_single namesSingle_obsGlDrop ha hs
  change execObsGlDropRead false s = _
  simp only [execObsGlDropRead, hread]
  rfl

/-- The read of PHX_BERR clears one bank's worst detuning, and the bank then takes the detuning of the cycle. -/
theorem exec_phxBerrRead (b : BankId) (worst : BitVec 16) : exec (.phxBerrRead b false worst) s = .next
    (updBank b (fun x => { x with worst := if x.worst.toNat < worst.toNat then worst else x.worst })
      ((updBank b (fun x => { x with worst := 0 }) s).reply [regRead s (.phx (.err b))])) := by
  change execPhxBerrRead b false worst s = _
  simp only [execPhxBerrRead, readAt_single (namesSingle_phxErr b) ha hs, regReadEffect]

end

/-- The larger of a cleared detuning and of a new one is the new one. -/
theorem worst_of_cleared (w : BitVec 16) : (if (0 : BitVec 16).toNat < w.toNat then w else 0) = w := by
  split
  · rfl
  · next h => exact (BitVec.eq_of_toNat_eq (by simpa using h)).symm

-- the part after its first cold reset (R17, R458)

theorem reset_hv (h : HiveId) : State.reset.hv h = {} := Vector.getElem_replicate _
theorem reset_co (c : ColId) : State.reset.co c = {} := Vector.getElem_replicate _
theorem reset_port (p : PortId) : State.reset.ports[p] = {} := Vector.getElem_replicate _
theorem reset_bank (b : BankId) : State.reset.phx.bank[b] = {} := Vector.getElem_replicate _

theorem hive_canonical_at_reset : ({} : Hive).canonical = true := by decide

/-- Every memory and table of the part is empty after the first cold reset. -/
theorem reset_canonical : State.reset.canonical := by
  refine ⟨rfl, fun h => ?_, fun c => ?_, fun _ hx => absurd hx List.not_mem_nil, fun _ hk => absurd hk List.not_mem_nil⟩
  · rw [reset_hv]
    exact hive_canonical_at_reset
  · rw [reset_co]
    rfl

/-- The part as shipped is in FIELD_OPEN, and no Guard command is under way. -/
theorem reset_lifecycleOk : State.reset.lifecycleOk := ⟨by decide, fun hbusy => absurd hbusy Bool.false_ne_true⟩

/-- Slot A holds the factory image byte for byte exactly when the version field of the image, bytes 8 to 11, is 1. -/
theorem factorySlot_eq_iff : factorySlot = Config.factoryImage ↔ (Config.factoryImage.drop 8).take 4 = [1, 0, 0, 0] := by
  unfold factorySlot
  generalize Config.factoryImage = l
  constructor
  · intro h
    have hlen := congrArg List.length h
    simp only [List.length_append, List.length_take, List.length_drop, List.length_cons, List.length_nil] at hlen
    have hhead : (l.take 8).length = 8 := by rw [List.length_take]; omega
    calc (l.drop 8).take 4 = ((l.take 8 ++ [1, 0, 0, 0] ++ l.drop 12).drop 8).take 4 := by rw [h]
      _ = ([1, 0, 0, 0] ++ l.drop 12).take 4 := by rw [List.append_assoc, List.drop_left' hhead]
      _ = [1, 0, 0, 0] := rfl
  · intro h
    have htail : l.drop 12 = (l.drop 8).drop 4 := by rw [List.drop_drop]
    rw [← h, htail, List.append_assoc, List.take_append_drop, List.take_append_drop]

/-- What R17 and R458 give the part holds after its first cold reset, but for one clause: that slot A holds the factory
image rests on the version field of an opaque constant (log entry 7), of which nothing can be proved. -/
theorem resetLeavesTheStatedValues_iff :
    Obligations.ResetLeavesTheStatedValues ↔ (Config.factoryImage.drop 8).take 4 = [1, 0, 0, 0] := by
  rw [← factorySlot_eq_iff]
  constructor
  · rintro ⟨-, -, -, -, -, -, -, -, -, hslot, -⟩
    exact hslot
  · intro hslot
    refine ⟨rfl, rfl, rfl, rfl, rfl, rfl, rfl, rfl, rfl, hslot, rfl, rfl, rfl, rfl, rfl, rfl, rfl, fun h => ?_, fun p => ?_,
      fun b => ?_, fun c => ?_, reset_canonical, reset_lifecycleOk⟩
    · rw [reset_hv]
      exact ⟨rfl, rfl⟩
    · rw [reset_port]
      exact ⟨rfl, rfl⟩
    · rw [reset_bank]
    · rw [reset_co]

end Sys2Proof.Machine

section

open Sys2Proof Sys2Proof.Machine

/-- Settles O6: the read's own effect clears the field, and the update of the cycle is applied after it. -/
theorem readsThatClearLoseNoUpdate : Obligations.ReadsThatClearLoseNoUpdate := by
  intro s ha hs
  refine ⟨exec_capTempRead_quiet ha hs, exec_capTempRead_sample ha hs, exec_supCeCntRead ha hs,
    exec_obsGlDropRead ha hs, fun b worst => ⟨_, exec_phxBerrRead ha hs b worst, rfl, ?_, ?_, rfl, rfl, rfl⟩⟩
  · rw [updBank_bank_same]
    simp only [State.reply, updBank_bank_same]
    exact worst_of_cleared worst
  · intro c hc
    rw [updBank_bank_other _ _ _ _ hc]
    exact updBank_bank_other _ _ _ _ hc

end

end

section
/-! The Parnik sampling port of a VF (R59 to R64): its reads, its software key and its hardware seeds. -/

namespace Sys2Proof.Machine

-- one sampling port after an update

@[simp] theorem updSp_sp (c : ColId) (f : SpPort → SpPort) (s : State) : (updSp c f s).sp c = f (s.sp c) :=
  congrArg (fun x => x.r.sp) (updCol_co c _ s)

theorem updSp_co_other (c d : ColId) (f : SpPort → SpPort) (s : State) (h : d ≠ c) : (updSp c f s).co d = s.co d :=
  updCol_co_other c d _ s h

@[simp] theorem State.reply_co (s : State) (ws : List Word) (d : ColId) : (s.reply ws).co d = s.co d := rfl
@[simp] theorem State.reply_sp (s : State) (ws : List Word) (d : ColId) : (s.reply ws).sp d = s.sp d := rfl

-- the seed wire and the end of THROTTLED touch no colony

@[simp] theorem dropSpSeeds_cols (c : ColId) (s : State) : (dropSpSeeds c s).cols = s.cols := rfl

/-- A wire that holds one seed of the port is empty once the port's seeds are taken off. -/
theorem dropSpSeeds_wire_single {c : ColId} {k : DWord} {s : State} (hw : s.guard.en.wire = [(.sp c, k)]) :
    (dropSpSeeds c s).guard.en.wire = [] := by
  simp [dropSpSeeds, updEn, hw]

@[simp] theorem unthrottle_cols (s : State) : (unthrottle s).cols = s.cols := by rw [onlyEntropy_unthrottle s]
@[simp] theorem unthrottle_co (s : State) (d : ColId) : (unthrottle s).co d = s.co d := by simp only [State.co, unthrottle_cols]
@[simp] theorem unthrottle_sp (s : State) (d : ColId) : (unthrottle s).sp d = s.sp d := by simp only [State.sp, unthrottle_co]

/-- The THROTTLED bit is all of the Guard that may change (R355). -/
theorem unthrottle_guard (s : State) :
    (unthrottle s).guard = { s.guard with en := { s.guard.en with throttled := (unthrottle s).guard.en.throttled } } := by
  unfold unthrottle
  split <;> rfl

theorem unthrottle_guard_of_not_throttled {s : State} (h : s.guard.en.throttled = false) : (unthrottle s).guard = s.guard := by
  simp [unthrottle, h]

-- PRK_SP_DATA (R59, R62)

theorem namesSingle_spData (c : ColId) : NamesSingle (.vf c) 0x4014 (.vf c .spData) where
  named := rfl
  notHigh := rfl
  notLow := rfl
  aligned := rfl
  fits := by simp only [barSize]; omega

section
variable {c : ColId} {s : State} (ha : s.answers (.vf c) = true) (hs : s.boot.stage ≠ 7)
include ha hs

/-- An answered read of PRK_SP_DATA is the port's read, replied. -/
theorem exec_prkSpDataRead : exec (.prkSpDataRead c false) s = .next ((spDataRead c s).2.reply [(spDataRead c s).1]) :=
  congrArg Host.Outcome.next (readAt_single (namesSingle_spData c) ha hs)

theorem exec_prkSpDataRead_idle (hb : (s.sp c).busy = false) :
    exec (.prkSpDataRead c false) s = .next ((updSp c SpPort.next s).reply [(s.sp c).value]) := by
  simp only [exec_prkSpDataRead ha hs, spDataRead, hb, Bool.false_eq_true, if_false]

theorem exec_prkSpDataRead_busy (hb : (s.sp c).busy = true) :
    exec (.prkSpDataRead c false) s = .next ((updSp c (fun x => { x with stat := setBit x.stat 3 }) s).reply [0]) := by
  simp only [exec_prkSpDataRead ha hs, spDataRead, hb, if_true]

end

-- PRK_SP_KEY_HI and PRK_SP_CMD.HWKEY (R60, R61, R64)

theorem exec_prkSpKeyHiWrite (c : ColId) (v : Word) (s : State) : exec (.prkSpKeyHiWrite c v) s =
    .next (unthrottle (updSp c (fun x => { x with key := pairOf v x.keyLo, hwk := false, busy := false }) s)) := rfl

theorem exec_hwkey_busy {c : ColId} {s : State} (hb : (s.sp c).busy = true) : exec (.hwkey c) s = .next s := by
  change execHwkey c s = _
  simp only [execHwkey, hb, if_true]

theorem exec_hwkey_halted {c : ColId} {s : State} (hb : (s.sp c).busy = false) (hd : s.guard.en.dead = true) :
    exec (.hwkey c) s = .next (updSp c (fun x => { x with stat := setBit x.stat 2 }) s) := by
  change execHwkey c s = _
  simp only [execHwkey, hb, hd, if_true, Bool.false_eq_true, if_false]

theorem exec_hwkey_requests {c : ColId} {s : State} (hb : (s.sp c).busy = false) (hd : s.guard.en.dead = false) :
    exec (.hwkey c) s = .next (updSp c (fun x => { x with busy := true }) (dropSpSeeds c s)) := by
  change execHwkey c s = _
  simp only [execHwkey, hb, hd, Bool.false_eq_true, if_false]

-- the seed that arrives (R61, R64)

/-- The one seed on the wire leaves it, and becomes the key exactly when its request still waits. -/
theorem exec_spSeedArrive {c : ColId} {k : DWord} {s : State} (hw : s.guard.en.wire = [(.sp c, k)]) :
    exec (.spSeedArrive c) s = .next (if (s.sp c).busy then
      updSp c (fun x => { x with key := k, hwk := true, busy := false }) (dropSpSeeds c s) else dropSpSeeds c s) := by
  change execSpSeedArrive c s = _
  simp [execSpSeedArrive, hw]

end Sys2Proof.Machine

section

open Sys2Proof Sys2Proof.Machine

/-- Settles O7: each access is one update of the port, and what it leaves alone follows from the rules of that update. -/
theorem samplingPortsReadTheirStream : Obligations.SamplingPortsReadTheirStream := by
  refine ⟨fun c s ha hs => ⟨fun hb => ?value, fun hb => ?early⟩, fun c v s => ⟨?softwareKey, fun hb hd => ?request,
    fun hb hd => ?seedErr, exec_hwkey_busy, fun k hw hb => ?seed, fun k hw hb => ?cancelled⟩⟩
  case value =>
    refine ⟨_, exec_prkSpDataRead_idle ha hs hb, rfl, ?_, fun d hne => ?_, rfl, rfl⟩
    · rw [State.reply_sp, updSp_sp]
      rfl
    · rw [State.reply_co, updSp_co_other c d _ s hne]
  case early =>
    refine ⟨_, exec_prkSpDataRead_busy ha hs hb, rfl, ?_, fun d hne => ?_, rfl⟩
    · rw [State.reply_sp, updSp_sp]
      rfl
    · rw [State.reply_co, updSp_co_other c d _ s hne]
  case softwareKey =>
    refine ⟨_, exec_prkSpKeyHiWrite c v s, ?_, fun d hne => ?_, unthrottle_guard _,
      fun ht => unthrottle_guard_of_not_throttled ht⟩
    · rw [unthrottle_sp, updSp_sp]
    · rw [unthrottle_co, updSp_co_other c d _ s hne]
  case request =>
    exact ⟨_, exec_hwkey_requests hb hd, updSp_sp c _ _, fun d hne => updSp_co_other c d _ _ hne⟩
  case seedErr =>
    exact ⟨_, exec_hwkey_halted hb hd, updSp_sp c _ s, fun d hne => updSp_co_other c d _ s hne, rfl⟩
  case seed =>
    refine ⟨_, exec_spSeedArrive hw, ?_⟩
    rw [if_pos hb]
    exact ⟨updSp_sp c _ _, dropSpSeeds_wire_single hw, fun d hne => updSp_co_other c d _ _ hne⟩
  case cancelled =>
    refine ⟨_, exec_spSeedArrive hw, ?_⟩
    rw [hb]
    exact ⟨dropSpSeeds_cols c s, dropSpSeeds_wire_single hw⟩

end

end

section
/-! Updates of one hive, one after the other. -/

namespace Sys2Proof.Machine

theorem updAt_updAt {α : Type} {n : Nat} (v : Vector α n) (i : Fin n) (f g : α → α) :
    updAt (updAt v i g) i f = updAt v i (fun x => f (g x)) := by
  simp [updAt]

theorem updHive_updHive (h : HiveId) (f g : Hive → Hive) (s : State) :
    updHive h f (updHive h g s) = updHive h (fun x => f (g x)) s := by
  simp only [updHive, updAt_updAt]

/-- Two updates of a hive that agree on what it holds are one. -/
theorem updHive_congr {h : HiveId} {f g : Hive → Hive} {s : State} (e : f (s.hv h) = g (s.hv h)) :
    updHive h f s = updHive h g s := by
  simp only [updHive, updAt]
  exact congrArg (fun x => { s with hives := s.hives.set h x }) e

/-- An update that leaves a hive as it is leaves the state. -/
theorem updHive_eq_self {h : HiveId} {f : Hive → Hive} {s : State} (e : f (s.hv h) = s.hv h) : updHive h f s = s := by
  have hset : s.hives.set h (f s.hives[h]) = s.hives := by
    rw [show f s.hives[h] = s.hives[h] from e]
    exact Vector.set_getElem_self _
  simp only [updHive, updAt, hset]

end Sys2Proof.Machine

end

section
/-! An event of a hive: its register takes the bits (R16), and beside that only the glass and PF0's vectors move. -/

namespace Sys2Proof.Machine

theorem onlyGlass_postEvent_hive (h : HiveId) (w : Word) (s : State) : OnlyGlass s (postEvent (.hive h) w s) :=
  onlyGlass_trans (onlyGlass_hive h _ s) (postEvent_says (.hive h) w s).1

theorem postEvent_hives (h : HiveId) (w : Word) (s : State) :
    (postEvent (.hive h) w s).hives = (updHive h (fun x => { x with evt := x.evt ||| w }) s).hives :=
  (postEvent_says (.hive h) w s).2

theorem postEvent_hv (h : HiveId) (w : Word) (s : State) :
    (postEvent (.hive h) w s).hv h = { s.hv h with evt := (s.hv h).evt ||| w } := by
  rw [State.hv, postEvent_hives]
  exact updHive_hv h _ s

theorem postEvent_hv_other {h k : HiveId} (w : Word) (s : State) (hk : k ≠ h) : (postEvent (.hive h) w s).hv k = s.hv k := by
  rw [State.hv, postEvent_hives]
  exact updHive_hv_other h k _ s hk

end Sys2Proof.Machine

end

section
/-! Clock and power gates of a hive (R92 to R95). -/

namespace Sys2Proof.Machine

-- the rows, as writes of HIV_CTL

theorem exec_hivClkGate (h : HiveId) (s : State) :
    exec (.hivClkGate h) s = .next (hivCtl h true (s.hv h).pwrGate false s) := rfl
theorem exec_hivPwrGate (h : HiveId) (s : State) :
    exec (.hivPwrGate h) s = .next (hivCtl h (s.hv h).clkGate true false s) := rfl
theorem exec_hivForceGate (h : HiveId) (clk pwr : Bool) (s : State) : exec (.hivForceGate h clk pwr) s =
    .next (hivCtl h ((s.hv h).clkGate || clk) ((s.hv h).pwrGate || pwr) true s) := rfl

/-- Both gates are written 0. -/
theorem exec_hivUngate_both (h : HiveId) (s : State) : exec (.hivUngate h true true) s = .next (hivCtl h false false false s) := by
  change execHivUngate h true true s = _
  simp only [execHivUngate, Bool.not_true, Bool.and_false]

-- what a write of HIV_CTL comes to

/-- HIV_CTL takes the bits written. -/
def Hive.withCtl (clk pwr force : Bool) (x : Hive) : Hive := { x with clkGate := clk, pwrGate := pwr, force := force }

theorem off_of_not_gated {x : Hive} (hg : x.gated = false) : x.clkOff = false ∧ x.pwrOff = false := by
  simpa [Hive.gated] using hg

/-- A write that asks the express partition for a gate is refused (R92). -/
theorem hivCtl_express {h : HiveId} {s : State} {clk pwr : Bool} (force : Bool) (hx : s.isExpressHive h = true)
    (hb : (clk || pwr) = true) : hivCtl h clk pwr force s = postEvent (.hive h) 1 s := by
  simp only [hivCtl, hx, hb, Bool.and_self, if_true]

theorem gateClear_nothing (h : HiveId) (s : State) : gateClear h false false s = s := by
  have hself : updHive h (fun x => { x with
      clkWait := x.clkWait && !false, pwrWait := x.pwrWait && !false, clkDefer := x.clkDefer && !false
      pwrDefer := x.pwrDefer && !false, clkOff := x.clkOff && !false, pwrOff := x.pwrOff && !false }) s = s :=
    updHive_eq_self (by simp only [Bool.not_false, Bool.and_true])
  simp only [gateClear, hself, Bool.false_and, Bool.false_eq_true, if_false]
  rw [if_neg]
  cases (s.hv h).clkOff <;> simp

/-- A hive without a gate that is asked for one takes the bits, and the gate is forced or requested (R92, R94). -/
theorem hivCtl_asks {h : HiveId} {s : State} {clk pwr : Bool} (force : Bool) (hx : s.isExpressHive h = false)
    (hg : (s.hv h).gated = false) (hc : (s.hv h).clkGate = false) (hp : (s.hv h).pwrGate = false)
    (hb : (clk || pwr) = true) :
    hivCtl h clk pwr force s = (if force then gateForce h clk pwr else gateRequest h clk pwr)
      (updHive h (Hive.withCtl clk pwr force) s) := by
  obtain ⟨hco, hpo⟩ := off_of_not_gated hg
  simp only [hivCtl, hx, hc, hp, hco, hpo, Bool.or_self, Bool.and_false, Bool.false_eq_true, if_false,
    gateClear_nothing, updHive_hv, Bool.not_false, Bool.and_true, hb, Bool.not_true]
  cases force <;> rfl

-- the three ways of a request (R92)

theorem gateRequest_claimed {h : HiveId} {s : State} (clk pwr : Bool) (hc : (s.hv h).claimed = true) :
    gateRequest h clk pwr s = updHive h (fun x => { x with
      clkDefer := x.clkDefer || clk, pwrDefer := x.pwrDefer || pwr, deferring := true }) s := by
  simp only [gateRequest, hc, if_true]

theorem gateRequest_free {h : HiveId} {s : State} (clk pwr : Bool) (hc : (s.hv h).claimed = false)
    (hw : (s.hv h).holdsWork = false) : gateRequest h clk pwr s = gateNow h clk pwr s := by
  simp only [gateRequest, hc, hw, Bool.false_eq_true, if_false]

/-- What a paused program takes along depends on the comb store that it leaves and on the tables of the part. -/
theorem leaveHive_updHive {h : HiveId} {f : Hive → Hive} {s : State} (hcs : (f (s.hv h)).cs = (s.hv h).cs) :
    leaveHive (updHive h f s) h = leaveHive s h := by
  funext p
  simp only [leaveHive, updHive_hv, hcs]
  rfl

/-- A hive that holds work when a gate is asked of it: its paused contexts leave, the gate waits, and what runs is asked for a
stop unless a gate has asked already (R92). -/
def Hive.gateWaits (clk pwr : Bool) (leave : Prog → Prog) (x : Hive) : Hive :=
  { x with
    wait := x.wait.map leave, clkWait := x.clkWait || clk, pwrWait := x.pwrWait || pwr
    stops := if x.run.isSome && !x.stops.contains .gate then x.stops ++ [.gate] else x.stops }

theorem gateRequest_working {h : HiveId} {s : State} (clk pwr : Bool) (hc : (s.hv h).claimed = false)
    (hw : (s.hv h).holdsWork = true) :
    gateRequest h clk pwr s = updHive h (Hive.gateWaits clk pwr (leaveHive s h)) s := by
  simp only [gateRequest, hc, hw, Bool.false_eq_true, if_false, if_true, leaveAll, updHive_updHive]
  by_cases hstop : ((s.hv h).run.isSome && !(s.hv h).stops.contains .gate) = true
  · rw [if_pos hstop, askStop, updHive_hv, if_pos (Bool.and_eq_true _ _ ▸ hstop).1, updHive_updHive]
    exact updHive_congr (by simp only [Hive.gateWaits, if_pos hstop])
  · rw [if_neg hstop]
    exact updHive_congr (by simp only [Hive.gateWaits, if_neg hstop])

/-- What runs on a hive whose gate waits has been asked for a stop. -/
theorem gate_mem_stops_gateWaits {x : Hive} (clk pwr : Bool) (leave : Prog → Prog) (hr : x.run.isSome = true) :
    StopWhy.gate ∈ (x.gateWaits clk pwr leave).stops := by
  simp only [Hive.gateWaits, hr, Bool.true_and]
  by_cases hin : StopWhy.gate ∈ x.stops <;> simp [hin]

/-- A claimed hive takes the bits, and the gates stand deferred (R92). -/
theorem hivCtl_claimed {h : HiveId} {s : State} {clk pwr : Bool} (hx : s.isExpressHive h = false) (hg : (s.hv h).gated = false)
    (hc : (s.hv h).clkGate = false) (hp : (s.hv h).pwrGate = false) (hcl : (s.hv h).claimed = true) (hb : (clk || pwr) = true) :
    hivCtl h clk pwr false s = updHive h (fun x => { x.withCtl clk pwr false with
      clkDefer := x.clkDefer || clk, pwrDefer := x.pwrDefer || pwr, deferring := true }) s := by
  rw [hivCtl_asks false hx hg hc hp hb, if_neg Bool.false_ne_true, gateRequest_claimed clk pwr (by rw [updHive_hv]; exact hcl),
    updHive_updHive]
  rfl

/-- A hive that holds work takes the bits, and the gates wait (R92). -/
theorem hivCtl_working {h : HiveId} {s : State} {clk pwr : Bool} (hx : s.isExpressHive h = false) (hg : (s.hv h).gated = false)
    (hc : (s.hv h).clkGate = false) (hp : (s.hv h).pwrGate = false) (hcl : (s.hv h).claimed = false)
    (hw : (s.hv h).holdsWork = true) (hb : (clk || pwr) = true) :
    hivCtl h clk pwr false s = updHive h (fun x => (x.withCtl clk pwr false).gateWaits clk pwr (leaveHive s h)) s := by
  rw [hivCtl_asks false hx hg hc hp hb, if_neg Bool.false_ne_true,
    gateRequest_working clk pwr (by rw [updHive_hv]; exact hcl) (by rw [updHive_hv]; exact hw),
    leaveHive_updHive rfl, updHive_updHive]

-- a forced gate (R94)

theorem workOn_of_no_work {h : HiveId} {s : State} (hw : (s.hv h).holdsWork = false) : s.workOn h = [] := by
  obtain ⟨hrun, hheld⟩ : (s.hv h).run = none ∧ ∀ p ∈ (s.hv h).wait, p.held = false := by simpa [Hive.holdsWork] using hw
  have hnone : (s.hv h).wait.filter Prog.held = [] := List.filter_eq_nil_iff.2 fun p hp => by simp [hheld p hp]
  simp [State.workOn, hrun, hnone]

/-- On a hive that holds no work a forced gate ends no job: the hive alone changes. -/
theorem gateForce_free {h : HiveId} {s : State} (clk pwr : Bool) (hw : (s.hv h).holdsWork = false) :
    gateForce h clk pwr s = gateNow h clk pwr s := by
  simp only [gateForce, workOn_of_no_work hw, onSlots, gateNow, updHive_updHive]
  exact updHive_congr (by simp)

/-- Gates asked for are in force at once. -/
def Hive.gatesOn (clk pwr force : Bool) (x : Hive) : Hive :=
  { x with
    clkGate := clk, pwrGate := pwr, force := force, clkOff := clk, pwrOff := pwr, pwrSince := x.pwrSince || pwr
    clkWait := x.clkWait && !clk, pwrWait := x.pwrWait && !pwr, clkDefer := x.clkDefer && !clk, pwrDefer := x.pwrDefer && !pwr }

/-- A hive without a gate, a claim or work is gated at once, with FORCE or without (R92, R94). -/
theorem hivCtl_free {h : HiveId} {s : State} {clk pwr : Bool} (force : Bool) (hx : s.isExpressHive h = false)
    (hg : (s.hv h).gated = false) (hc : (s.hv h).clkGate = false) (hp : (s.hv h).pwrGate = false)
    (hcl : (s.hv h).claimed = false) (hw : (s.hv h).holdsWork = false) (hb : (clk || pwr) = true) :
    hivCtl h clk pwr force s = updHive h (Hive.gatesOn clk pwr force) s := by
  obtain ⟨hco, hpo⟩ := off_of_not_gated hg
  have hnow : gateNow h clk pwr (updHive h (Hive.withCtl clk pwr force) s) = updHive h (Hive.gatesOn clk pwr force) s := by
    rw [gateNow, updHive_updHive]
    exact updHive_congr (by simp [Hive.withCtl, Hive.gatesOn, hco, hpo])
  rw [hivCtl_asks force hx hg hc hp hb]
  cases force
  · exact (gateRequest_free clk pwr (by rw [updHive_hv]; exact hcl) (by rw [updHive_hv]; exact hw)).trans hnow
  · exact (gateForce_free clk pwr (by rw [updHive_hv]; exact hw)).trans hnow

-- the end of a gate (R93, R95)

/-- CLK_GATE reads 0: neither does the gate hold, nor wait, nor stand deferred. -/
def Hive.clkCleared (x : Hive) : Hive := { x with clkWait := false, clkDefer := false, clkOff := false }

/-- Clearing CLK_GATE of a hive whose PWR_GATE is not asked for. -/
theorem hivCtl_clears_clk {h : HiveId} {s : State} (hc : (s.hv h).clkGate = true) (hp : (s.hv h).pwrGate = false)
    (hpo : (s.hv h).pwrOff = false) :
    hivCtl h false false false s = gateClear h true false (updHive h (Hive.withCtl false false false) s) := by
  simp only [hivCtl, hc, hp, hpo, Bool.or_self, Bool.and_false, Bool.false_eq_true, if_false, Bool.not_false, Bool.true_or,
    Bool.and_true, Bool.false_and, if_true]
  rfl

/-- A gate that waits is withdrawn (R93). -/
theorem gateClear_waiting {h : HiveId} {s : State} (hco : (s.hv h).clkOff = false) (hpo : (s.hv h).pwrOff = false) :
    gateClear h true false s = updHive h Hive.clkCleared s := by
  simp only [gateClear, hco, hpo, Bool.false_and, Bool.or_self, Bool.false_eq_true, if_false]
  exact updHive_congr (by simp [Hive.clkCleared])

theorem schedule_of_no_wait {h : HiveId} {s : State} (hw : (s.hv h).wait = []) : schedule h s = s := by
  simp [schedule, hw, firstProg]

/-- The last gate in force ends; with no program that waits, nothing starts on the hive (R95). -/
theorem gateClear_last {h : HiveId} {s : State} (hco : (s.hv h).clkOff = true) (hpo : (s.hv h).pwrOff = false)
    (hw : (s.hv h).wait = []) (hs : s.sealedHive h = false) :
    gateClear h true false s = updHive h (fun x => { x.clkCleared with pwrSince := false }) s := by
  have hseal : ∀ f, (updHive h f s).sealedHive h = false := fun _ => hs
  simp only [gateClear, hco, hpo, Bool.not_true, Bool.not_false, Bool.and_false, Bool.and_true, Bool.or_false,
    Bool.false_eq_true, if_false, if_true, updHive_hv, updHive_updHive, reclaimSealed, hseal]
  exact schedule_of_no_wait (s := updHive h (fun x => { x.clkCleared with pwrSince := false }) s) (by rw [updHive_hv]; exact hw)

/-- Clearing CLK_GATE while its gate waits withdraws it. -/
theorem hivCtl_withdraws {h : HiveId} {s : State} (hc : (s.hv h).clkGate = true) (hp : (s.hv h).pwrGate = false)
    (hco : (s.hv h).clkOff = false) (hpo : (s.hv h).pwrOff = false) :
    hivCtl h false false false s = updHive h (fun x => (x.withCtl false false false).clkCleared) s := by
  rw [hivCtl_clears_clk hc hp hpo, gateClear_waiting (by rw [updHive_hv]; exact hco) (by rw [updHive_hv]; exact hpo),
    updHive_updHive]

/-- Clearing CLK_GATE while its gate alone is in force ungates the hive. -/
theorem hivCtl_ungates {h : HiveId} {s : State} (hc : (s.hv h).clkGate = true) (hp : (s.hv h).pwrGate = false)
    (hco : (s.hv h).clkOff = true) (hpo : (s.hv h).pwrOff = false) (hw : (s.hv h).wait = []) (hs : s.sealedHive h = false) :
    hivCtl h false false false s =
      updHive h (fun x => { (x.withCtl false false false).clkCleared with pwrSince := false }) s := by
  rw [hivCtl_clears_clk hc hp hpo, gateClear_last (s := updHive h (Hive.withCtl false false false) s)
    (by rw [updHive_hv]; exact hco) (by rw [updHive_hv]; exact hpo) (by rw [updHive_hv]; exact hw) hs, updHive_updHive]

/-- Gates that waited or stood deferred execute where their bits still read 1 (R93). -/
theorem exec_deferredGateExecute {h : HiveId} {s : State} (hc : (s.hv h).claimed = false) (hw : (s.hv h).holdsWork = false)
    (hd : ((s.hv h).clkWait || (s.hv h).pwrWait || (s.hv h).clkDefer || (s.hv h).pwrDefer) = true) :
    exec (.deferredGateExecute h) s = .next (runGates h s) := by
  change execDeferredGateExecute h s = _
  simp only [execDeferredGateExecute, hc, hw, hd, Bool.not_false, Bool.and_self, Bool.false_eq_true, if_false, if_true]

end Sys2Proof.Machine

section

open Sys2Proof Sys2Proof.Machine

/-- Settles O8: a write of HIV_CTL comes to one update of the hive in each of its cases, and for the express partition to an
event. -/
theorem gatesOfAHive : Obligations.GatesOfAHive := by
  refine ⟨fun h s hx => ⟨fun hg hc hp hcl hw => ⟨?clk, ?pwr, fun clk pwr hb => ?force⟩, fun hg hc hp hcl => ⟨?clkDefer, ?pwrDefer⟩,
    fun hg hc hp hcl hw => ?working, fun hc hco hpo hp => ?withdrawn, fun hc hco hpo hp hw hs => ?ungated,
    fun hcl hw hg hd hpw hpd => ?deferred⟩, fun h s hx => ⟨?xclk, ?xpwr, fun clk pwr hb => ?xforce, fun t ht => ?refused⟩⟩
  case clk =>
    obtain ⟨-, hpo⟩ := off_of_not_gated hg
    rw [exec_hivClkGate, hp, hivCtl_free false hx hg hc hp hcl hw rfl]
    exact congrArg Host.Outcome.next (updHive_congr (by simp [Hive.gatesOn, hp, hpo]))
  case pwr =>
    obtain ⟨hco, -⟩ := off_of_not_gated hg
    rw [exec_hivPwrGate, hc, hivCtl_free false hx hg hc hp hcl hw rfl]
    exact congrArg Host.Outcome.next (updHive_congr (by simp [Hive.gatesOn, hc, hco]))
  case force =>
    rw [exec_hivForceGate, hc, hp, Bool.false_or, Bool.false_or, hivCtl_free true hx hg hc hp hcl hw hb]
    refine ⟨_, rfl, rfl, ?_⟩
    rw [updHive_hv]
    exact ⟨rfl, rfl, rfl, rfl, fun k hk => updHive_hv_other h k _ s hk⟩
  case clkDefer =>
    rw [exec_hivClkGate, hp, hivCtl_claimed hx hg hc hp hcl rfl]
    exact congrArg Host.Outcome.next (updHive_congr (by simp [Hive.withCtl, hp]))
  case pwrDefer =>
    rw [exec_hivPwrGate, hc, hivCtl_claimed hx hg hc hp hcl rfl]
    exact congrArg Host.Outcome.next (updHive_congr (by simp [Hive.withCtl, hc]))
  case working =>
    obtain ⟨hco, -⟩ := off_of_not_gated hg
    rw [exec_hivClkGate, hp, hivCtl_working hx hg hc hp hcl hw rfl]
    refine ⟨_, rfl, rfl, ?_⟩
    rw [updHive_hv]
    exact ⟨Bool.or_true _, hco, rfl, rfl, gate_mem_stops_gateWaits (x := (s.hv h).withCtl true false false) true false _,
      fun k hk => updHive_hv_other h k _ s hk⟩
  case withdrawn =>
    rw [exec_hivUngate_both, hivCtl_withdraws hc hp hco hpo]
    refine ⟨_, rfl, rfl, ?_⟩
    rw [updHive_hv]
    exact ⟨rfl, rfl, rfl, rfl, rfl, rfl, fun k hk => updHive_hv_other h k _ s hk⟩
  case ungated =>
    rw [exec_hivUngate_both, hivCtl_ungates hc hp hco hpo hw hs]
    refine ⟨_, rfl, rfl, ?_⟩
    rw [updHive_hv]
    exact ⟨hpo, rfl, rfl, rfl, fun k hk => updHive_hv_other h k _ s hk⟩
  case deferred =>
    obtain ⟨hco, -⟩ := off_of_not_gated hg
    rw [exec_deferredGateExecute hcl hw (by simpa [hpw, hpd] using hd), runGates, gateNow, updHive_updHive]
    refine ⟨_, rfl, rfl, ?_⟩
    simp only [updHive_hv, hco, hd, Bool.false_or, Bool.true_and]
    exact ⟨trivial, trivial, trivial, fun k hk => updHive_hv_other h k _ s hk⟩
  case xclk => rw [exec_hivClkGate, hivCtl_express false hx (Bool.true_or _)]
  case xpwr => rw [exec_hivPwrGate, hivCtl_express false hx (Bool.or_true _)]
  case xforce =>
    have hasks : (((s.hv h).clkGate || clk) || ((s.hv h).pwrGate || pwr)) = true := by
      rw [Bool.or_assoc, Bool.or_left_comm clk, hb, Bool.or_true, Bool.or_true]
    rw [exec_hivForceGate, hivCtl_express true hx hasks]
  case refused =>
    obtain ⟨-, hjobs, -, -, -, -, -, hwax⟩ := onlyGlass_keeps (onlyGlass_postEvent_hive h 1 s)
    subst ht
    rw [postEvent_hv]
    exact ⟨rfl, rfl, rfl, rfl, hjobs, hwax⟩

end

end

section
/-! PF0's writes to the honey contexts (R77, R91) and its hold on a dancer (R208). -/

namespace Sys2Proof.Machine

-- PF0's writes: where they go (R91)

theorem hnyWrite_claimed {h : HiveId} {s : State} (f : Hive → Hive) (hc : (s.hv h).claimed = true) : hnyWrite h f s = s := by
  simp only [hnyWrite, hc, if_true]

theorem hnyWrite_busy {h : HiveId} {s : State} (f : Hive → Hive) (hc : (s.hv h).claimed = false) (hi : s.idleHive h = false) :
    hnyWrite h f s = postEvent (.hive h) 8 s := by
  simp only [hnyWrite, hc, hi, Bool.false_eq_true, if_false]

theorem hnyWrite_idle {h : HiveId} {s : State} (f : Hive → Hive) (hc : (s.hv h).claimed = false) (hi : s.idleHive h = true) :
    hnyWrite h f s = updHive h f s := by
  simp only [hnyWrite, hc, hi, Bool.false_eq_true, if_false, if_true]

-- one word of one context

/-- A table of one of several contexts after a write to it: the word written, and every other word as before. -/
theorem tabGet_updAt_tabSet {α : Type} {n : Nat} {v : Vector α n} {get : α → List (Nat × Word)} {f : α → α} {c : Fin n} {a : Nat}
    {w : Word} (hget : ∀ x, get (f x) = tabSet 0 (get x) a w) (hwf : tabWf 0 (get v[c]) = true) (d : Fin n) (i : Nat) :
    tabGet 0 (get (updAt v c f)[d]) i = if d = c ∧ i = a then w else tabGet 0 (get v[d]) i := by
  by_cases hd : d = c
  · subst hd
    rw [updAt_same, hget, tabGet_tabSet a i w hwf]
    simp only [true_and]
  · rw [updAt_other v c d f hd, if_neg (fun e => hd e.1)]

/-- The context that HNY_PS_IDX selects. -/
def Hive.psCtx (x : Hive) : Fin 2 := ⟨x.psIdx.toNat / 64 % 2, Nat.mod_lt _ (by decide)⟩

/-- The context that HNY_ACT_IDX selects. -/
def Hive.actCtx (x : Hive) : Fin 2 := ⟨x.actIdx.toNat / 1024 % 2, Nat.mod_lt _ (by decide)⟩

/-- The parameter word that HNY_PS_IDX selects. -/
def Hive.psWord (x : Hive) : Word := tabGet 0 (x.hny[x.psCtx]).ps (x.psIdx.toNat % 64)

/-- The activation entry that HNY_ACT_IDX selects. -/
def Hive.actWord (x : Hive) : Word := tabGet 0 (x.hny[x.actCtx]).act (x.actIdx.toNat % 1024)

/-- The parameter word that HNY_PS_IDX selects takes a value. -/
def Hive.putPs (v : Word) (x : Hive) : Hive :=
  { x with hny := updAt x.hny x.psCtx fun c => { c with ps := tabSet 0 c.ps (x.psIdx.toNat % 64) v } }

/-- The activation entry that HNY_ACT_IDX selects takes a value. -/
def Hive.putAct (v : Word) (x : Hive) : Hive :=
  { x with hny := updAt x.hny x.actCtx fun c => { c with act := tabSet 0 c.act (x.actIdx.toNat % 1024) v } }

theorem exec_hnyPsDataWrite (h : HiveId) (v : Word) (s : State) :
    exec (.hnyPsDataWrite h v) s = .next (hnyWrite h (Hive.putPs v) s) := rfl

theorem exec_hnyActDataWrite (h : HiveId) (v : Word) (s : State) :
    exec (.hnyActDataWrite h v) s = .next (hnyWrite h (Hive.putAct v) s) := rfl

theorem putPs_ps {x : Hive} (v : Word) (hwf : tabWf 0 (x.hny[x.psCtx]).ps = true) (c : Fin 2) (i : Nat) :
    tabGet 0 (((x.putPs v).hny[c]).ps) i =
      if c = x.psCtx ∧ i = x.psIdx.toNat % 64 then v else tabGet 0 (x.hny[c]).ps i :=
  tabGet_updAt_tabSet (get := HnyCtx.ps) (fun _ => rfl) hwf c i

theorem putAct_act {x : Hive} (v : Word) (hwf : tabWf 0 (x.hny[x.actCtx]).act = true) (c : Fin 2) (i : Nat) :
    tabGet 0 (((x.putAct v).hny[c]).act) i =
      if c = x.actCtx ∧ i = x.actIdx.toNat % 1024 then v else tabGet 0 (x.hny[c]).act i :=
  tabGet_updAt_tabSet (get := HnyCtx.act) (fun _ => rfl) hwf c i

theorem putPs_psWord {x : Hive} (v : Word) (hwf : tabWf 0 (x.hny[x.psCtx]).ps = true) : (x.putPs v).psWord = v :=
  (putPs_ps v hwf _ _).trans (if_pos ⟨rfl, rfl⟩)

theorem putAct_actWord {x : Hive} (v : Word) (hwf : tabWf 0 (x.hny[x.actCtx]).act = true) : (x.putAct v).actWord = v :=
  (putAct_act v hwf _ _).trans (if_pos ⟨rfl, rfl⟩)

-- what PF0 reads of an unclaimed hive (R91)

theorem regRead_psData {h : HiveId} {s : State} (hc : (s.hv h).claimed = false) :
    regRead s (.hive h .psData) = (s.hv h).psWord := by
  change hiveRead s h .psData = _
  simp only [hiveRead, hc, Bool.false_eq_true, if_false]
  rfl

theorem regRead_actData {h : HiveId} {s : State} (hc : (s.hv h).claimed = false) :
    regRead s (.hive h .actData) = (s.hv h).actWord := by
  change hiveRead s h .actData = _
  simp only [hiveRead, hc, Bool.false_eq_true, if_false]
  rfl

/-- The parameter word written on an idle hive reads back. -/
theorem regRead_psData_putPs {h : HiveId} {s : State} (v : Word) (hc : (s.hv h).claimed = false)
    (hwf : tabWf 0 ((s.hv h).hny[(s.hv h).psCtx]).ps = true) :
    regRead (updHive h (Hive.putPs v) s) (.hive h .psData) = v := by
  rw [regRead_psData (by rw [updHive_hv]; exact hc), updHive_hv]
  exact putPs_psWord v hwf

/-- The activation entry written on an idle hive reads back. -/
theorem regRead_actData_putAct {h : HiveId} {s : State} (v : Word) (hc : (s.hv h).claimed = false)
    (hwf : tabWf 0 ((s.hv h).hny[(s.hv h).actCtx]).act = true) :
    regRead (updHive h (Hive.putAct v) s) (.hive h .actData) = v := by
  rw [regRead_actData (by rw [updHive_hv]; exact hc), updHive_hv]
  exact putAct_actWord v hwf

-- DNC_CTL (R91, R208)

theorem exec_dncHalt_ignored {h : HiveId} {s : State} (hi : s.dncIgnored h = true) : exec (.dncHalt h) s = .next s := by
  change execHalt h s = _
  simp only [execHalt, dncWrite, hi, if_true]

theorem exec_dncHalt {h : HiveId} {s : State} (hi : s.dncIgnored h = false) :
    exec (.dncHalt h) s = .next (updHive h (fun x => { x with halt := true }) s) := by
  change execHalt h s = _
  simp only [execHalt, dncWrite, hi, Bool.not_true, Bool.false_and, Bool.false_eq_true, if_false]

theorem exec_dncStep_nothing {h : HiveId} {s : State} (hn : s.dncIgnored h = true ∨ (s.hv h).halted = false) :
    exec (.dncStep h) s = .next s := by
  change execStep h s = _
  rcases hn with hi | hh
  · simp only [execStep, hi, Bool.true_or, if_true]
  · simp only [execStep, hh, Bool.not_false, Bool.or_true, if_true]

theorem exec_dncStep_halted {h : HiveId} {s : State} (hi : s.dncIgnored h = false) (hh : (s.hv h).halted = true) :
    exec (.dncStep h) s = .next (updHive h (fun x => { x with halted := false, step := true }) s) := by
  change execStep h s = _
  simp only [execStep, hi, hh, Bool.not_true, Bool.or_self, Bool.false_eq_true, if_false]

end Sys2Proof.Machine

section

open Sys2Proof Sys2Proof.Machine

/-- Settles O9: a write that the hive takes is one update of the selected word, and the table rules give every word read after
it. -/
theorem honeyAndDancerControls : Obligations.HoneyAndDancerControls := by
  refine ⟨fun h v s => ⟨fun hc => ⟨?psClaimed, ?actClaimed⟩, fun hc hi => ⟨?psBusy, ?actBusy⟩, fun hc hi hwf => ⟨?ps, ?act⟩⟩,
    fun h s => ⟨fun hi => ⟨exec_dncHalt_ignored hi, exec_dncStep_nothing (.inl hi)⟩,
      fun hi => ⟨exec_dncHalt hi, exec_dncStep_halted hi, fun hh => exec_dncStep_nothing (.inr hh)⟩⟩⟩
  case psClaimed => rw [exec_hnyPsDataWrite, hnyWrite_claimed _ hc]
  case actClaimed => rw [exec_hnyActDataWrite, hnyWrite_claimed _ hc]
  case psBusy => rw [exec_hnyPsDataWrite, hnyWrite_busy _ hc hi]
  case actBusy => rw [exec_hnyActDataWrite, hnyWrite_busy _ hc hi]
  case ps =>
    rw [exec_hnyPsDataWrite, hnyWrite_idle _ hc hi]
    refine ⟨_, rfl, rfl, fun k hk => updHive_hv_other h k _ s hk, regRead_psData_putPs v hc (hwf _).1, fun c i hne => ?_⟩
    rw [updHive_hv, putPs_ps v (hwf _).1]
    exact if_neg fun e => hne.elim (fun hd => hd (congrArg Fin.val e.1)) fun hd => hd e.2
  case act =>
    rw [exec_hnyActDataWrite, hnyWrite_idle _ hc hi]
    refine ⟨_, rfl, rfl, fun k hk => updHive_hv_other h k _ s hk, regRead_actData_putAct v hc (hwf _).2, fun c i hne => ?_⟩
    rw [updHive_hv, putAct_act v (hwf _).2]
    exact if_neg fun e => hne.elim (fun hd => hd (congrArg Fin.val e.1)) fun hd => hd e.2

end

end

section
/-! Jobs of the table and the programs that run for them: what a change of a job, a stop request and the end of a job do
(R13, R90, R208, R263). -/

namespace Sys2Proof.Machine

-- the job in a slot

/-- A change that leaves slots alone reaches the job found in its slot. -/
theorem job?_updJob (slot : Nat) {f : Job → Job} (hf : ∀ j, (f j).slot = j.slot) (s : State) :
    (updJob slot f s).job? slot = (s.job? slot).map f := by
  have hfound : ((fun j : Job => j.slot == slot) ∘ fun j => if j.slot == slot then f j else j) = fun j => j.slot == slot := by
    funext j
    simp only [Function.comp]
    split <;> simp only [hf]
  simp only [State.job?, updJob, List.find?_map, hfound]
  cases hj : s.jobs.find? fun j => j.slot == slot with
  | none => rfl
  | some j => simp only [Option.map_some, if_pos (List.find?_some hj)]

theorem job?_congr {s t : State} (h : t.jobs = s.jobs) (slot : Nat) : t.job? slot = s.job? slot := by
  simp only [State.job?, h]

-- the ending of a job (R13)

theorem endWith_slot (e : Ending) (j : Job) : (j.endWith e).slot = j.slot := by
  unfold Job.endWith
  split
  · rfl
  · split <;> rfl

theorem endWith_first {e : Ending} {j : Job} (h : j.ending = none) : (j.endWith e).ending = some e := by
  simp only [Job.endWith, h]

/-- The first cause stays unless one of a lower rank comes in its cycle. -/
theorem endWith_later {e f : Ending} {j : Job} (h : j.ending = some f) (hr : j.endNow = false ∨ f.code.rank ≤ e.code.rank) :
    (j.endWith e).ending = some f := by
  have hkeep : ¬(j.endNow && decide (e.code.rank < f.code.rank)) = true := by
    rcases hr with hn | hle
    · simp [hn]
    · simp [Nat.not_lt.2 hle]
  simp only [Job.endWith, h, if_neg hkeep]

/-- A cause of a lower rank in the cycle of the first one takes its place. -/
theorem endWith_outranks {e f : Ending} {j : Job} (h : j.ending = some f) (hn : j.endNow = true)
    (hr : e.code.rank < f.code.rank) : (j.endWith e).ending = some e := by
  simp only [Job.endWith, h, hn, hr, decide_true, Bool.and_self, if_true]

-- the hives that run a job

theorem mem_hivesRunning {s : State} {slot : Nat} {h : HiveId} :
    h ∈ s.hivesRunning slot ↔ ∃ p, (s.hv h).run = some p ∧ p.slot = slot := by
  simp only [State.hivesRunning, List.mem_filter, allHives, List.mem_finRange, true_and]
  cases (s.hv h).run <;> simp

theorem jobRuns_iff {s : State} {slot : Nat} : s.jobRuns slot = true ↔ ∃ h p, (s.hv h).run = some p ∧ p.slot = slot := by
  simp only [State.jobRuns, List.any_eq_true, allHives, List.mem_finRange, true_and]
  refine exists_congr fun h => ?_
  cases (s.hv h).run <;> simp

/-- Whether a job runs rests on the slots of the programs that run. -/
theorem jobRuns_congr {s t : State} (h : ∀ k, (t.hv k).run.map (·.slot) = (s.hv k).run.map (·.slot)) (slot : Nat) :
    t.jobRuns slot = s.jobRuns slot := by
  have hslots : ∀ u : State, u.jobRuns slot = allHives.any fun k => (u.hv k).run.map (·.slot) == some slot := by
    intro u
    simp only [State.jobRuns]
    congr 1
    funext k
    cases (u.hv k).run <;> simp
  simp only [hslots, h]

-- stop requests (R208)

/-- A stop request adds to the stops of its hive, and touches nothing else. -/
theorem askStop_says (h : HiveId) (w : StopWhy) (s : State) :
    ∃ f : Hive → List StopWhy, askStop h w s = updHive h (fun x => { x with stops := f x }) s ∧
      (∀ x, x.stops ⊆ f x) ∧ ((s.hv h).run.isSome = true → w ∈ f (s.hv h)) := by
  by_cases hr : (s.hv h).run.isSome = true
  · exact ⟨fun x => x.stops ++ [w], if_pos hr, fun x => List.subset_append_left _ _, fun _ => by simp⟩
  · exact ⟨Hive.stops, (if_neg hr).trans (updHive_eq_self rfl).symm, fun x => List.Subset.refl _, fun h' => absurd h' hr⟩

theorem askStop_hv (h k : HiveId) (w : StopWhy) (s : State) :
    (askStop h w s).hv k = { s.hv k with stops := ((askStop h w s).hv k).stops } ∧
      (s.hv k).stops ⊆ ((askStop h w s).hv k).stops := by
  obtain ⟨f, heq, hsub, -⟩ := askStop_says h w s
  rw [heq]
  by_cases hk : k = h
  · subst hk
    rw [updHive_hv]
    exact ⟨rfl, hsub _⟩
  · rw [updHive_hv_other h k _ s hk]
    exact ⟨rfl, List.Subset.refl _⟩

theorem askStop_mem {h : HiveId} (w : StopWhy) {s : State} (hr : (s.hv h).run.isSome = true) :
    w ∈ ((askStop h w s).hv h).stops := by
  obtain ⟨f, heq, -, hmem⟩ := askStop_says h w s
  rw [heq, updHive_hv]
  exact hmem hr

theorem askStops_only (w : StopWhy) (l : List HiveId) (s : State) :
    askStops w l s = { s with hives := (askStops w l s).hives } := by
  induction l generalizing s with
  | nil => rfl
  | cons h r ih =>
    obtain ⟨f, heq, -, -⟩ := askStop_says h w s
    have hrest := ih (askStop h w s)
    rw [heq] at hrest
    simp only [askStops, heq]
    exact hrest

theorem askStops_hv (w : StopWhy) (l : List HiveId) (s : State) (k : HiveId) :
    (askStops w l s).hv k = { s.hv k with stops := ((askStops w l s).hv k).stops } ∧
      (s.hv k).stops ⊆ ((askStops w l s).hv k).stops := by
  induction l generalizing s with
  | nil => exact ⟨rfl, List.Subset.refl _⟩
  | cons h r ih =>
    obtain ⟨heq, hsub⟩ := askStop_hv h k w s
    obtain ⟨heq', hsub'⟩ := ih (askStop h w s)
    refine ⟨?_, List.Subset.trans hsub hsub'⟩
    rw [heq] at heq'
    exact heq'

/-- Every hive of the list that runs a program is asked. -/
theorem askStops_mem {w : StopWhy} {l : List HiveId} {s : State} {k : HiveId} (hk : k ∈ l) (hr : (s.hv k).run.isSome = true) :
    w ∈ ((askStops w l s).hv k).stops := by
  induction l generalizing s with
  | nil => exact absurd hk List.not_mem_nil
  | cons h r ih =>
    rcases List.mem_cons.1 hk with rfl | hin
    · exact (askStops_hv w r _ k).2 (askStop_mem w hr)
    · exact ih hin (by rw [(askStop_hv h k w s).1]; exact hr)

-- messages to other stations

/-- Only the ports, and what the part sends, moved. -/
def OnlyPorts (s t : State) : Prop := t = { s with ports := t.ports, tx := t.tx }

theorem onlyPorts_refl (s : State) : OnlyPorts s s := rfl

theorem onlyPorts_trans {s t u : State} (h : OnlyPorts s t) (k : OnlyPorts t u) : OnlyPorts s u := by
  rw [OnlyPorts] at *
  rw [h] at k
  exact k

theorem onlyPorts_leaveBuffer (m : OutMsg) (n : Nat) (s : State) : OnlyPorts s (leaveBuffer m n s) := by
  unfold leaveBuffer
  split
  · exact onlyPorts_refl s
  · split <;> rfl

theorem onlyPorts_sendOut (p : PortId) (m : OutMsg) (s : State) : OnlyPorts s (sendOut p m s) :=
  onlyPorts_trans (onlyPorts_trans (onlyPort_updPort p _ s).1 (onlyPort_sendFlit p _ _ _ _ _).1) (onlyPorts_leaveBuffer m 1 _)

theorem onlyPorts_pumpN (p : PortId) (n : Nat) (s : State) : OnlyPorts s (pumpN p n s) := by
  induction n generalizing s with
  | zero => exact onlyPorts_refl s
  | succ n ih =>
    simp only [pumpN]
    split
    · exact onlyPorts_refl s
    · exact onlyPorts_trans (onlyPorts_sendOut p _ s) (ih _)

theorem onlyPorts_sendMsg (dst home : StnId) (tag : BitVec 16) (m : SwMsg) (s : State) : OnlyPorts s (sendMsg dst home tag m s) := by
  unfold sendMsg
  split
  · split
    · exact onlyPorts_refl s
    · next p _ =>
      exact onlyPorts_trans (onlyPorts_trans (onlyPort_send p _ s).1 (onlyPort_updPort p _ _).1) (onlyPorts_pumpN p _ _)
  · exact onlyPorts_refl s

theorem onlyPorts_sendSwAll (j : Job) (m : SwMsg) (l : List StnId) (s : State) : OnlyPorts s (sendSwAll j m l s) := by
  induction l generalizing s with
  | nil => exact onlyPorts_refl s
  | cons a r ih => exact onlyPorts_trans (onlyPorts_sendMsg a _ _ m s) (ih _)

/-- The orders to stop leave every hive and every count on the mesh as it was (R337). -/
theorem stopOthers_keeps (j : Job) (reason : Nat) (s : State) :
    (stopOthers j reason s).hives = s.hives ∧ (stopOthers j reason s).mesh = s.mesh := by
  unfold stopOthers
  split
  · rw [onlyPorts_sendSwAll j _ _ _]
    exact ⟨rfl, rfl⟩
  · exact ⟨rfl, rfl⟩

/-- A job that spans no other station orders none to stop. -/
theorem stopOthers_alone {j : Job} {s : State} (reason : Nat) (ho : s.others j = []) : stopOthers j reason s = s := by
  simp only [stopOthers, ho, List.isEmpty_nil, Bool.not_true, Bool.and_false, Bool.false_eq_true, if_false]

-- the end of a job that runs (R13, R208, R263)

/-- The waiting programs of a job leave every hive. -/
def dropWaiting (slot : Nat) (s : State) : State :=
  { s with hives := s.hives.map fun hv => { hv with wait := hv.wait.filter fun p => p.slot != slot } }

theorem dropWaiting_hv (slot : Nat) (s : State) (h : HiveId) :
    (dropWaiting slot s).hv h = { s.hv h with wait := (s.hv h).wait.filter fun p => p.slot != slot } :=
  Vector.getElem_map _ _

/-- The ending of a job is known; its programs still stop. -/
def Job.toStop (j : Job) : Job := { j with st := .stopping }

/-- A job whose ending is noted, and whose programs wait no more. -/
def noteEnd (j : Job) (slot : Nat) (e : Ending) (s : State) : State :=
  dropWaiting slot (stopOthers j e.reason (updJob slot (Job.endWith e) s))

theorem noteEnd_hv (j : Job) (slot : Nat) (e : Ending) (s : State) (h : HiveId) :
    (noteEnd j slot e s).hv h = { s.hv h with wait := (s.hv h).wait.filter fun p => p.slot != slot } := by
  have hhives : ∀ k, (stopOthers j e.reason (updJob slot (Job.endWith e) s)).hv k = s.hv k := fun k =>
    congrArg (fun v => v[k]) (stopOthers_keeps j e.reason _).1
  rw [noteEnd, dropWaiting_hv, hhives]

section
variable {s : State} {slot : Nat} {j : Job} (hj : s.job? slot = some j) (hst : j.st ≠ .ended) (hr : s.jobRuns slot = true)
include hj hst hr

/-- The end of a job that runs: its ending is noted, and each of its hives is asked for a stop. -/
theorem endJob_runs (e : Ending) (w : StopWhy) : endJob slot e w s =
    askStops w ((noteEnd j slot e s).hivesRunning slot) (updJob slot Job.toStop (noteEnd j slot e s)) := by
  have hruns : (stopOthers j e.reason (updJob slot (Job.endWith e) s)).jobRuns slot = true := by
    rw [← hr]
    exact jobRuns_congr (fun k => congrArg (fun v : Vector Hive 96 => v[k].run.map (·.slot)) (stopOthers_keeps j e.reason _).1) slot
  simp only [endJob, hj, beq_false_of_ne hst, Bool.false_eq_true, if_false, hruns, Bool.true_or, if_true]
  rfl

/-- To a hive the end of a job does no more than take the job's programs off the waiting list and add stops. -/
theorem endJob_hv (e : Ending) (w : StopWhy) (h : HiveId) : (endJob slot e w s).hv h =
    { s.hv h with
      wait := (s.hv h).wait.filter fun p => p.slot != slot, stops := ((endJob slot e w s).hv h).stops } := by
  have hnoted : (updJob slot Job.toStop (noteEnd j slot e s)).hv h = _ := noteEnd_hv j slot e s h
  rw [endJob_runs hj hst hr, (askStops_hv w _ _ h).1, hnoted]

theorem endJob_stops (e : Ending) (w : StopWhy) {h : HiveId} {p : Prog} (hp : (s.hv h).run = some p) (hs : p.slot = slot) :
    w ∈ ((endJob slot e w s).hv h).stops := by
  have hrun : ((noteEnd j slot e s).hv h).run = some p := by rw [noteEnd_hv]; exact hp
  rw [endJob_runs hj hst hr]
  exact askStops_mem (mem_hivesRunning.2 ⟨p, hrun, hs⟩) (Option.isSome_of_eq_some hrun)

theorem endJob_mesh (e : Ending) (w : StopWhy) : (endJob slot e w s).mesh = s.mesh := by
  rw [endJob_runs hj hst hr, askStops_only]
  exact (stopOthers_keeps j e.reason _).2

/-- A job of this station alone ends as `endWith` says, and the colonies stand. -/
theorem endJob_alone (ho : s.others j = []) (e : Ending) (w : StopWhy) :
    (endJob slot e w s).job? slot = some (j.endWith e).toStop ∧ (endJob slot e w s).cols = s.cols := by
  have halone : stopOthers j e.reason (updJob slot (Job.endWith e) s) = updJob slot (Job.endWith e) s := stopOthers_alone _ ho
  rw [endJob_runs hj hst hr, askStops_only, noteEnd, halone]
  refine ⟨?_, rfl⟩
  change (updJob slot Job.toStop (updJob slot (Job.endWith e) s)).job? slot = _
  rw [job?_updJob slot (f := Job.toStop) fun _ => rfl, job?_updJob slot (endWith_slot e), hj]
  rfl

end

-- a hive fault (R90), of any job and of one that runs

theorem onlyGlass_faultNote (h : HiveId) (cause slot : Nat) (s : State) : OnlyGlass s (faultNote h cause slot s) := by
  unfold faultNote
  refine onlyGlass_trans ?_ (onlyGlass_postEvent_hive h 4 _)
  split
  · rfl
  · exact onlyGlass_hive h _ s

/-- HIV_FAULT keeps the first cause and tag, and HIV_EVT.FAULT is set. -/
def Hive.withFault (cause : Nat) (tag : BitVec 16) (x : Hive) : Hive :=
  { x with
    evt := x.evt ||| 4
    faultCause := if anyBit x.evt 4 then x.faultCause else BitVec.ofNat 4 cause
    faultTag := if anyBit x.evt 4 then x.faultTag else tag }

theorem faultNote_hv (h : HiveId) (cause slot : Nat) (s : State) :
    (faultNote h cause slot s).hv h = (s.hv h).withFault cause (s.tagOf slot) := by
  simp only [faultNote, postEvent_hv, Hive.withFault]
  split
  · rfl
  · rw [updHive_hv]

theorem faultNote_hv_other {h k : HiveId} (cause slot : Nat) (s : State) (hk : k ≠ h) :
    (faultNote h cause slot s).hv k = s.hv k := by
  simp only [faultNote]
  rw [postEvent_hv_other 4 _ hk]
  split
  · rfl
  · exact updHive_hv_other h k _ s hk

theorem faultNote_run (h : HiveId) (cause slot : Nat) (s : State) (k : HiveId) :
    ((faultNote h cause slot s).hv k).run = (s.hv k).run := by
  by_cases hk : k = h
  · subst hk
    rw [faultNote_hv]
    rfl
  · rw [faultNote_hv_other cause slot s hk]

/-- Bit 2 of an event register is HIV_EVT.FAULT. -/
theorem anyBit_four (w : Word) : anyBit w 4 = w.getLsbD 2 := by
  rw [anyBit, show (4 : Word) = BitVec.twoPow 32 2 from rfl, BitVec.and_twoPow]
  cases w.getLsbD 2 <;> rfl

theorem or_four_getLsbD_two (w : Word) : (w ||| 4).getLsbD 2 = true := by
  rw [BitVec.getLsbD_or, show (4 : Word).getLsbD 2 = true from rfl, Bool.or_true]

theorem faultNote_fault (h : HiveId) (cause slot : Nat) (s : State) : ((faultNote h cause slot s).hv h).evt.getLsbD 2 = true := by
  rw [faultNote_hv]
  exact or_four_getLsbD_two _

/-- The ending that a hive fault gives a job: the hive in byte 8 of DETAIL, the cause in byte 9 (Table 11.4). -/
def faultEnding (h : HiveId) (cause : Nat) : Ending := { code := .hiveFault, detail := BitVec.ofNat 64 (h.val + 256 * cause) }

theorem hiveFault_eq (h : HiveId) (cause slot : Nat) (s : State) :
    hiveFault h cause slot s = endJob slot (faultEnding h cause) (.cancel 0) (faultNote h cause slot s) := rfl

theorem running_ne_ended {j : Job} (hst : j.st = .running) : j.st ≠ .ended := by
  rw [hst]
  decide

theorem tagOf_of_job? {s : State} {slot : Nat} {j : Job} (hj : s.job? slot = some j) : s.tagOf slot = j.tag := by
  rw [State.tagOf, hj]
  rfl

theorem others_congr {s t : State} (h : t.swarm = s.swarm) (j : Job) : t.others j = s.others j := by
  simp only [State.others, State.stn, h]

theorem faultNote_job? (h : HiveId) (cause slot : Nat) (s : State) (n : Nat) : (faultNote h cause slot s).job? n = s.job? n := by
  obtain ⟨-, hjobs, -⟩ := onlyGlass_keeps (onlyGlass_faultNote h cause slot s)
  exact job?_congr hjobs n

theorem faultNote_jobRuns (h : HiveId) (cause slot : Nat) (s : State) (n : Nat) :
    (faultNote h cause slot s).jobRuns n = s.jobRuns n :=
  jobRuns_congr (fun k => by rw [faultNote_run]) n

theorem faultNote_others (h : HiveId) (cause slot : Nat) (s : State) (j : Job) : (faultNote h cause slot s).others j = s.others j := by
  obtain ⟨-, -, -, -, -, -, hswarm, -⟩ := onlyGlass_keeps (onlyGlass_faultNote h cause slot s)
  exact others_congr hswarm j

section
variable {s : State} {slot : Nat} {j : Job} (hj : s.job? slot = some j) (hst : j.st ≠ .ended) (hr : s.jobRuns slot = true)
include hj hst hr

/-- To a hive the fault of a job that runs does what `faultNote` does, and the stops and the waiting list of the job's end. -/
theorem hiveFault_hv (h : HiveId) (cause : Nat) (k : HiveId) : (hiveFault h cause slot s).hv k =
    { (faultNote h cause slot s).hv k with
      wait := ((faultNote h cause slot s).hv k).wait.filter fun p => p.slot != slot
      stops := ((hiveFault h cause slot s).hv k).stops } :=
  endJob_hv ((faultNote_job? h cause slot s slot).trans hj) hst ((faultNote_jobRuns h cause slot s slot).trans hr) _ _ k

theorem hiveFault_fault (h : HiveId) (cause : Nat) : ((hiveFault h cause slot s).hv h).evt.getLsbD 2 = true := by
  rw [hiveFault_hv hj hst hr]
  exact faultNote_fault h cause slot s

theorem hiveFault_mesh (h : HiveId) (cause : Nat) : (hiveFault h cause slot s).mesh = s.mesh := by
  rw [hiveFault_eq, endJob_mesh ((faultNote_job? h cause slot s slot).trans hj) hst
    ((faultNote_jobRuns h cause slot s slot).trans hr), onlyGlass_faultNote h cause slot s]

/-- A job of this station alone that runs ends with the fault, as `endWith` says. -/
theorem hiveFault_alone (ho : s.others j = []) (h : HiveId) (cause : Nat) :
    (hiveFault h cause slot s).job? slot = some (j.endWith (faultEnding h cause)).toStop :=
  (endJob_alone ((faultNote_job? h cause slot s slot).trans hj) hst ((faultNote_jobRuns h cause slot s slot).trans hr)
    ((faultNote_others h cause slot s j).trans ho) _ _).1

end

end Sys2Proof.Machine

end

section
/-! What ends a job: an uncorrectable word that an instruction reads (R235, R263), and cancellation (R264, R265). -/

namespace Sys2Proof.Machine

-- an uncorrectable word read by LD (R189, R235)

theorem dancing_job {s : State} {h : HiveId} {p : Prog} {j : Job} (hd : s.dancing h = some (p, j)) : s.job? p.slot = some j := by
  simp only [State.dancing, dancing_run hd] at hd
  cases hjob : s.job? p.slot with
  | none => simp [hjob] at hd
  | some i =>
    simp only [hjob] at hd
    split at hd
    · exact absurd hd (by simp)
    · rw [(Prod.mk.inj (Option.some.inj hd)).2]

/-- A wait leaves the program but for its counts, and moves nothing but the glass and the counters. -/
theorem waitFor_ran (h : HiveId) (w : Nat) (p : Prog) (s : State) (hr : (s.hv h).run = some p) :
    ∃ n, Ran h p n s (waitFor h w s) := by
  unfold waitFor
  split
  · exact ⟨p.stepCycles, ⟨p.tr, p.stN, p.stP, (s.hv h).late, id, by rw [← hr]⟩, fun _ _ => rfl, rfl⟩
  · obtain ⟨⟨tr, a, b, l, hl, e⟩, o, g⟩ := yieldPoint_ran h 0 p s hr
    obtain ⟨⟨tr', a', b', l', hl', e'⟩, o', g'⟩ := hiveCycles_ran h w w _ (yieldPoint h 0 s) (by rw [e])
    refine ⟨0, ⟨tr', a', b', l', fun hn => hl' (by rw [e]; exact hl hn), ?_⟩, fun k hk => (o' k hk).trans (o k hk),
      onlyGlass_trans g g'⟩
    rw [e', e]

/-- What the unit of an instruction leaves: the hive runs a program of the same job, its uncorrectable words stand, and nothing
but hives, glass and counters moved. -/
structure RanUnit (h : HiveId) (slot : Nat) (s t : State) : Prop where
  only : OnlyGlass s t
  run : ∃ q, (t.hv h).run = some q ∧ q.slot = slot
  csUe : (t.hv h).csUe = (s.hv h).csUe

theorem ranUnit_trans {h : HiveId} {a b : Nat} {s t u : State} (x : RanUnit h a s t) (y : RanUnit h b t u) : RanUnit h b s u :=
  ⟨onlyGlass_trans x.only y.only, y.run, y.csUe.trans x.csUe⟩

theorem ranUnit_waitFor {h : HiveId} {p : Prog} {s : State} (hr : (s.hv h).run = some p) (w : Nat) :
    RanUnit h p.slot s (waitFor h w s) := by
  obtain ⟨n, ⟨tr, a, b, l, -, e⟩, -, g⟩ := waitFor_ran h w p s hr
  exact ⟨g, ⟨_, congrArg Hive.run e, rfl⟩, by rw [e]⟩

theorem ranUnit_startUnit {h : HiveId} {p : Prog} {s : State} (hr : (s.hv h).run = some p) (c : Nat) :
    RanUnit h p.slot s (startUnit h c s) := by
  obtain ⟨tr, a, b, l, -, e, -, g⟩ := startUnit_ran h c p s hr
  exact ⟨g, ⟨_, congrArg Hive.run e, rfl⟩, by rw [e]⟩

/-- The wait of an instruction and its unit. -/
theorem ranUnit_issue {h : HiveId} {p : Prog} {s : State} (hr : (s.hv h).run = some p) (c w : Nat) :
    RanUnit h p.slot s (startUnit h c (waitFor h w s)) := by
  have hwait := ranUnit_waitFor hr w
  obtain ⟨q, hq, hslot⟩ := hwait.run
  exact hslot ▸ ranUnit_trans hwait (ranUnit_startUnit hq c)

theorem ranUnit_updRun {h : HiveId} {slot : Nat} {s t : State} (hu : RanUnit h slot s t) {f : Prog → Prog}
    (hf : ∀ p, (f p).slot = p.slot) : RanUnit h slot s (updRun h f t) := by
  obtain ⟨q, hq, hslot⟩ := hu.run
  have hv := updRun_hv h f t
  refine ⟨onlyGlass_trans hu.only rfl, ⟨f q, ?_, (hf q).trans hslot⟩, (congrArg Hive.csUe hv).trans hu.csUe⟩
  rw [hv, hq]
  rfl

theorem ranUnit_putG {h : HiveId} {slot : Nat} {s t : State} (hu : RanUnit h slot s t) (rd : Reg4) (v : Word) :
    RanUnit h slot s (putG h rd v t) :=
  ranUnit_updRun (ranUnit_updRun (f := fun p => { p with g := p.g.set rd v }) hu fun _ => rfl) fun _ => rfl

/-- Where a window lies rests on the wax in force and the quotas (R219, R220). -/
theorem winAddr_congr {s t : State} (hwax : t.wax = s.wax) (hcols : t.cols = s.cols) (part off : Nat) :
    t.winAddr part off = s.winAddr part off := by
  have hx : t.expressX = s.expressX := by rw [State.expressX, hwax, ← State.expressX]
  have hq : ∀ c, t.quota c = s.quota c := fun c => by simp only [State.quota, State.co, hcols]
  simp only [State.winAddr, State.winBase, State.winSize, hx, hq, hwax]

/-- Which words of a window are uncorrectable stands through a unit. -/
theorem ranUnit_winUe {h : HiveId} {slot : Nat} {s t : State} (hu : RanUnit h slot s t) (part off n : Nat) :
    t.winUe part h off n = s.winUe part h off n := by
  obtain ⟨-, -, hcols, -, -, -, -, hwax⟩ := onlyGlass_keeps hu.only
  simp only [State.winUe, hu.csUe, winAddr_congr hwax hcols]

/-- LD writes its register after its unit; the word that it read may be uncorrectable. -/
theorem exec_ld {s : State} {h : HiveId} {p : Prog} {j : Job} {rd ra : Reg4} {imm : Word} (hi : s.issues h p j (.ld rd ra imm)) :
    ∃ t, RanUnit h p.slot s t ∧ exec (.ld h) s = .next (dataUe h p j (wordAddr (p.reg ra) imm) 4 t) := by
  have hunit := ranUnit_issue (dancing_run hi.1) (opCost s p j (.ld rd ra imm)) (opLands s h p (.ld rd ra imm))
  change ∃ t, _ ∧ execLd h s = _
  rw [execLd, stepOp_waits hi rfl]
  exact ⟨_, ranUnit_putG hunit rd _, rfl⟩

/-- A read of an uncorrectable word declares the fault of R90 with cause 3, and ends the job with it. -/
theorem dataUe_ends {h : HiveId} {p : Prog} {j : Job} {off n : Nat} {s : State} (hu : s.winUe j.part.val h off n = true)
    (hj : s.job? p.slot = some j) (hst : j.st ≠ .ended) (hr : s.jobRuns p.slot = true) (ho : s.others j = []) :
    (dataUe h p j off n s).job? p.slot = some (j.endWith (faultEnding h 3)).toStop ∧
      ((dataUe h p j off n s).hv h).evt.getLsbD 2 = true := by
  rw [dataUe, if_pos hu, csFault]
  exact ⟨hiveFault_alone (s := { s with freeCtr := s.freeCtr + 2 ^ 21 }) hj hst hr ho h 3,
    hiveFault_fault (s := { s with freeCtr := s.freeCtr + 2 ^ 21 }) hj hst hr h 3⟩

-- cancellation (R264, R265)

theorem exec_colCancel_missing {c : ColId} {tag : BitVec 16} {s : State}
    (hf : ((s.queueJobs c).find? fun j => j.tag == tag) = none) : exec (.colCancel c tag) s = .next (colErr c 7 s) := by
  change execColCancel c tag s = _
  simp only [execColCancel, hf]

theorem exec_colCancel_found {c : ColId} {tag : BitVec 16} {s : State} {j : Job}
    (hf : ((s.queueJobs c).find? fun j => j.tag == tag) = some j) : exec (.colCancel c tag) s =
      .next (if s.pastCancel j then colErr c 7 s else endJob j.slot (cancelled 1) (.cancel 1) s) := by
  change execColCancel c tag s = _
  simp only [execColCancel, hf]
  split <;> rfl

theorem exec_cancelAll (c : ColId) (s : State) :
    exec (.cancelAll c) s = .next (onSlots (cancelOne 1) ((s.queueJobs c).map (·.slot)) s) := rfl

theorem cancelOne_running {s : State} {slot : Nat} {j : Job} (reason : Nat) (hj : s.job? slot = some j) (hp : s.pastCancel j = false) :
    cancelOne reason slot s = unthrottle (endJob slot (cancelled reason) (.cancel reason) s) := by
  simp only [cancelOne, hj, hp, Bool.false_eq_true, if_false]

theorem unthrottle_job? (s : State) (slot : Nat) : (unthrottle s).job? slot = s.job? slot := by
  obtain ⟨-, hjobs, -⟩ := onlyEntropy_keeps (onlyEntropy_unthrottle s)
  exact job?_congr hjobs slot

end Sys2Proof.Machine

section

open Sys2Proof Sys2Proof.Machine

/-- Settles O32: a job that runs keeps its programs until they stop, so its end is the ending that `endWith` notes, a stop asked of
each of its hives, and its waiting programs dropped. -/
theorem endedAndCancelledJobs : Obligations.EndedAndCancelledJobs := by
  refine ⟨fun slot s j hj hst _ ho hr => ⟨fun e w => ?ends, fun h cause => ?fault⟩, fun c tag s hf => exec_colCancel_missing hf,
    fun c tag s j hf hp => ?past, fun c tag s j hf hp hj hst he ho hr => ?cancel, fun c s hq => ?none,
    fun c s j hq hp hj hst he ho hr => ?one, fun h s p j rd ra imm hi hst he _ ho hu => ?ld⟩
  case ends =>
    obtain ⟨hjob, -⟩ := endJob_alone hj (running_ne_ended hst) hr ho e w
    have hhive := endJob_hv hj (running_ne_ended hst) hr e w
    rw [hjob]
    refine ⟨endWith_first, fun f => endWith_later, fun f => endWith_outranks, rfl,
      fun h p hp hs => endJob_stops hj (running_ne_ended hst) hr e w hp hs, fun h p hp => ?_, fun h p hp => ?_⟩
    · rw [hhive]
      exact ⟨hp, rfl⟩
    · rw [hhive] at hp
      simpa using (List.mem_filter.1 hp).2
  case fault =>
    rw [hiveFault_hv hj (running_ne_ended hst) hr, faultNote_hv, hiveFault_alone hj (running_ne_ended hst) hr ho,
      tagOf_of_job? hj]
    refine ⟨rfl, fun hb => ?_, fun hb => ?_, endWith_first⟩
    · simp only [Hive.withFault, anyBit_four, hb, Bool.false_eq_true, if_false, and_self]
    · simp only [Hive.withFault, anyBit_four, hb, if_true]
  case past => rw [exec_colCancel_found hf, if_pos hp]
  case cancel =>
    obtain ⟨hjob, hcols⟩ := endJob_alone hj (running_ne_ended hst) hr ho (cancelled 1) (.cancel 1)
    refine ⟨_, by rw [exec_colCancel_found hf, if_neg (Bool.eq_false_iff.1 hp)], ?_, ?_, ?_⟩
    · rw [hjob]
      exact endWith_first he
    · rw [hjob]
      rfl
    · rw [State.co, hcols]
      rfl
  case none => rw [exec_cancelAll, hq, List.map_nil, onSlots]
  case one =>
    obtain ⟨hjob, -⟩ := endJob_alone hj (running_ne_ended hst) hr ho (cancelled 1) (.cancel 1)
    refine ⟨_, by rw [exec_cancelAll, hq, List.map_singleton, onSlots, onSlots, cancelOne_running 1 hj hp], ?_⟩
    rw [unthrottle_job?, hjob]
    exact endWith_first he
  case ld =>
    obtain ⟨t, hunit, hexec⟩ := exec_ld hi
    obtain ⟨q, hq, hslot⟩ := hunit.run
    obtain ⟨-, hjobs, -, -, -, -, hswarm, -⟩ := onlyGlass_keeps hunit.only
    have hj : t.job? p.slot = some j := (job?_congr hjobs p.slot).trans (dancing_job hi.1)
    have hr : t.jobRuns p.slot = true := jobRuns_iff.2 ⟨h, q, hq, hslot⟩
    have hue : t.winUe j.part.val h (wordAddr (p.reg ra) imm) 4 = true := (ranUnit_winUe hunit _ _ _).trans hu
    obtain ⟨hend, hevt⟩ := dataUe_ends hue hj (running_ne_ended hst) hr ((others_congr hswarm j).trans ho)
    refine ⟨_, hexec, ?_, hevt⟩
    rw [hend]
    exact endWith_first he

end

end

section
/-! Counts: what a comb pass can count (R31 to R35, R73), and how a count that comes over the mesh lands (R75, R76, R88). -/

namespace Sys2Proof.Machine

-- what a pass can count

theorem b2n_le_one (b : Bool) : b2n b ≤ 1 := by cases b <;> decide

/-- A term counts at most one per bit. -/
theorem termOnes_le (m : CellMode) (wsid isid : BitVec 24) (wc ic pos t n : Nat) : termOnes m wsid isid wc ic pos t n ≤ n := by
  induction n generalizing t with
  | zero => exact Nat.le_refl 0
  | succ n ih =>
    have hbit := b2n_le_one (cellBits m wsid isid wc ic t (pos + t)).2.2
    have hrest := ih (t + 1)
    simp only [termOnes]
    omega

/-- A unary weight without XNOR passes input bits only below its ones. -/
theorem cellBits_unary_le {m : CellMode} (wsid isid : BitVec 24) (wc ic t pos : Nat) (hw : m.randw = false) (hb : m.bip = false) :
    b2n (cellBits m wsid isid wc ic t pos).2.2 ≤ if t < unaryOnes wc m.len then 1 else 0 := by
  simp only [cellBits, hw, hb, Bool.false_eq_true, if_false]
  split
  · exact b2n_le_one _
  · next ht => simp [ht, b2n]

/-- From bit t on, a unary weight adds at most the ones of its stream that lie there. -/
theorem termOnes_unary_le {m : CellMode} (wsid isid : BitVec 24) (wc ic pos t n : Nat) (hw : m.randw = false) (hb : m.bip = false) :
    termOnes m wsid isid wc ic pos t n ≤ unaryOnes wc m.len - t := by
  induction n generalizing t with
  | zero => exact Nat.zero_le _
  | succ n ih =>
    have hbit := cellBits_unary_le wsid isid wc ic t (pos + t) hw hb
    have hrest := ih (t + 1)
    simp only [termOnes]
    split at hbit <;> omega

theorem slabBits_count (sh : Shape) (j sl : Nat) : (slabBits sh j sl).2.1 = min 256 sh.mode.len := by
  unfold slabBits
  split
  · next hlen => exact (Nat.min_eq_right (Nat.le_of_lt hlen)).symm
  · next hlen => exact (Nat.min_eq_left (Nat.le_of_not_lt hlen)).symm

/-- A sum of values of at most b. -/
theorem sum_map_le {α : Type} {f : α → Nat} {b : Nat} (hf : ∀ k, f k ≤ b) (l : List α) : (l.map f).sum ≤ l.length * b := by
  induction l with
  | nil => exact Nat.zero_le _
  | cons k r ih =>
    rw [List.map_cons, List.sum_cons, List.length_cons, Nat.succ_mul, Nat.add_comm]
    exact Nat.add_le_add ih (hf k)

/-- A slab of a pass counts at most one per real term and bit. -/
theorem slabCount_le (s : State) (h : HiveId) (a : StreamArgs) (x : PassAt) (j sl : Nat) :
    slabCount s h a x j sl ≤ a.shape.realTerms x.p * min 256 a.shape.mode.len := by
  have hterm : ∀ k, termOnes a.shape.mode (weightSid s.wax.img a.shape.part a.shape.layer (termElem a x k))
      (inputSid s.wax.img a.shape.part a.shape.layer (termElem a x k)) (termCodes s h a x j k).1 (termCodes s h a x j k).2
      (slabBits a.shape j sl).2.2 (slabBits a.shape j sl).1 (slabBits a.shape j sl).2.1 ≤ min 256 a.shape.mode.len := fun k =>
    Nat.le_trans (termOnes_le _ _ _ _ _ _ _ _) (Nat.le_of_eq (slabBits_count a.shape j sl))
  have hsum := sum_map_le hterm (List.range (a.shape.realTerms x.p))
  rw [List.length_range] at hsum
  exact hsum

/-- A stream has no more ones than bits. -/
theorem unaryOnes_le (c len : Nat) (hc : c ≤ 4095) : unaryOnes c len ≤ len := by
  have hmul : c * len ≤ 4095 * len := Nat.mul_le_mul_right len hc
  unfold unaryOnes
  omega

-- a count lands (R75, R76)

/-- A change of a job's program reaches it where it runs. -/
theorem updProgAt_run (slot : Nat) (home : HiveId) (f : List Landing → Prog → Prog) (s : State) (h : HiveId) :
    ((updProgAt slot home f s).hv h).run = (s.hv h).run.map fun p =>
      if p.slot == slot && p.home == home && !p.sealed then f (s.hv h).late p else p :=
  congrArg Hive.run (Vector.getElem_map _ _)

/-- A count adds to its accumulator, modulo 2^32, and to the chains that end there. -/
theorem landCount_acc (acc : Nat) (v : Word) (late : List Landing) {p : Prog} (hwf : tabWf 0 p.acc = true) (i : Nat) :
    tabGet 0 (p.landCount acc v late).acc i =
      if i = acc % 1024 then tabGet 0 p.acc (acc % 1024) + v else tabGet 0 p.acc i :=
  tabGet_tabSet (acc % 1024) i _ hwf

theorem landCount_frame (acc : Nat) (v : Word) (late : List Landing) (p : Prog) :
    p.landCount acc v late = { p with acc := (p.landCount acc v late).acc, fins := (p.landCount acc v late).fins } := rfl

/-- With nothing on its way for the program, no chain waits for the count. -/
theorem landCount_fins_quiet (acc : Nat) (v : Word) (p : Prog) : (p.landCount acc v []).fins = p.fins := by
  simp [Prog.landCount, Prog.addAcc, Prog.setAcc]

theorem exec_meshCountMessage {n : Nat} {m : MeshMsg} {s : State} (hm : s.mesh[n]? = some m) :
    exec (.meshCountMessage n none) s = .next (addCount m.slot m.dst m.acc m.v { s with mesh := dropAt s.mesh n }) := by
  change execMeshCountMessage n none s = _
  simp only [execMeshCountMessage, hm]

-- a flit that a link discards (R88, R90)

theorem exec_meshCountMessage_bad {n : Nat} {m : MeshMsg} {s : State} (k : Fin 4) (hm : s.mesh[n]? = some m) :
    ∃ v, exec (.meshCountMessage n (some k)) s = .next (meshBad m.src m.path k m.slot
      (updProg m.slot m.dst (fun p => p.setAcc m.acc v) { s with mesh := dropAt s.mesh n }).tickFree) := by
  refine ⟨State.free { s with mesh := dropAt s.mesh n } 32, ?_⟩
  change execMeshCountMessage n (some k) s = _
  simp only [execMeshCountMessage, hm]

theorem or_link_getLsbD (u : BitVec 4) (k : Fin 4) : (u ||| BitVec.ofNat 4 (2 ^ k.val)).getLsbD k.val = true := by
  have hbit : ∀ k : Fin 4, (BitVec.ofNat 4 (2 ^ k.val)).getLsbD k.val = true := by decide
  rw [BitVec.getLsbD_or, hbit, Bool.or_true]

/-- With no job in the slot, or one that has ended, a fault is noted and ends nothing. -/
theorem hiveFault_of_over {s : State} {slot : Nat} (hover : ∀ j, s.job? slot = some j → j.st = .ended) (h : HiveId) (cause : Nat) :
    hiveFault h cause slot s = faultNote h cause slot s := by
  have hjob := faultNote_job? h cause slot s slot
  rw [hiveFault_eq, endJob, hjob]
  cases hj : s.job? slot with
  | none => rfl
  | some j => simp only [hover j hj, beq_self_eq_true, if_true]

/-- Whatever becomes of the job, the fault of a hive sets HIV_EVT.FAULT, and keeps what its links have counted and what is on the
mesh. -/
theorem hiveFault_noted {s : State} {slot : Nat} (h : HiveId) (cause : Nat) (hr : s.job? slot = none ∨ s.jobRuns slot = true) :
    ((hiveFault h cause slot s).hv h).evt.getLsbD 2 = true ∧ ((hiveFault h cause slot s).hv h).uncorr = (s.hv h).uncorr ∧
      (hiveFault h cause slot s).mesh = s.mesh := by
  have hnote : ((faultNote h cause slot s).hv h).uncorr = (s.hv h).uncorr := by
    rw [faultNote_hv]
    rfl
  by_cases hover : ∀ j, s.job? slot = some j → j.st = .ended
  · rw [hiveFault_of_over hover]
    exact ⟨faultNote_fault h cause slot s, hnote, by rw [onlyGlass_faultNote h cause slot s]⟩
  · obtain ⟨j, hnot⟩ := Classical.not_forall.1 hover
    obtain ⟨hj, hst⟩ := Classical.not_imp.1 hnot
    have hruns : s.jobRuns slot = true := hr.resolve_left (by simp [hj])
    exact ⟨hiveFault_fault hj hst hruns h cause, by rw [hiveFault_hv hj hst hruns]; exact hnote, hiveFault_mesh hj hst hruns h cause⟩

theorem updHive_run {f : Hive → Hive} (hf : ∀ x, (f x).run = x.run) (h k : HiveId) (s : State) :
    ((updHive h f s).hv k).run = (s.hv k).run := by
  by_cases hk : k = h
  · rw [hk, updHive_hv, hf]
  · rw [updHive_hv_other h k f s hk]

/-- A flit that came by a link has been discarded (R88). -/
def Hive.lostFlit (k : Fin 4) (x : Hive) : Hive := { x with uncorr := x.uncorr ||| BitVec.ofNat 4 (2 ^ k.val) }

theorem meshBad_eq (a : HiveId) (path : List HiveId) (k : Fin 4) (slot : Nat) (s : State) : meshBad a path k slot s =
    hiveFault (routerBy k.val a path) 4 slot (updHive (routerBy k.val a path) (Hive.lostFlit k) s) := rfl

/-- The router at which a bad flit ends sets the link's UNCORR bit and declares its fault (R88, R90 cause 4). -/
theorem meshBad_says {s : State} {slot : Nat} (a : HiveId) (path : List HiveId) (k : Fin 4)
    (hr : s.job? slot = none ∨ s.jobRuns slot = true) :
    ((meshBad a path k slot s).hv (routerBy k.val a path)).uncorr.getLsbD k.val = true ∧
      ((meshBad a path k slot s).hv (routerBy k.val a path)).evt.getLsbD 2 = true ∧ (meshBad a path k slot s).mesh = s.mesh := by
  have hruns : (updHive (routerBy k.val a path) (Hive.lostFlit k) s).jobRuns slot = s.jobRuns slot :=
    jobRuns_congr (fun i => congrArg _ (updHive_run (f := Hive.lostFlit k) (fun _ => rfl) _ i s)) slot
  obtain ⟨hevt, hunc, hmesh⟩ := hiveFault_noted (s := updHive (routerBy k.val a path) (Hive.lostFlit k) s)
    (routerBy k.val a path) 4 (hr.imp id hruns.trans)
  refine ⟨?_, hevt, hmesh⟩
  rw [meshBad_eq, hunc, updHive_hv]
  exact or_link_getLsbD _ k

/-- A change of programs that leaves their slots alone leaves whether a job runs. -/
theorem updProg_jobRuns {f : Prog → Prog} (hf : ∀ p, (f p).slot = p.slot) (slot : Nat) (home : HiveId) (s : State) (n : Nat) :
    (updProg slot home f s).jobRuns n = s.jobRuns n := by
  refine jobRuns_congr (fun k => ?_) n
  rw [updProg, updProgAt_run, Option.map_map]
  congr 1
  funext p
  simp only [Function.comp]
  split
  · exact hf p
  · rfl

end Sys2Proof.Machine

section

open Sys2Proof Sys2Proof.Machine

/-- Settles O15: a count that lands is one write of the accumulator table of the program it is for, a flit that a link discards is
the fault of its router, and the bounds on counts are those of one term, summed. -/
theorem meshCountsAddExactly : Obligations.MeshCountsAddExactly := by
  refine ⟨fun n m s hm => ⟨?lands, fun k hr => ?bad, fun k a b r => ⟨rfl, fun e => if_pos e, fun e => if_neg e⟩⟩, slabCount_le,
    fun m wsid isid wc ic pos n hw hb _ => termOnes_unary_le wsid isid wc ic pos 0 n hw hb, unaryOnes_le⟩
  case lands =>
    refine ⟨_, exec_meshCountMessage hm, rfl, rfl, fun h p hp hslot hhome hsealed hwf => ?_, fun h p hp hne => ?_⟩
    · have hfor : (p.slot == m.slot && p.home == m.dst && !p.sealed) = true := by simp [hslot, hhome, hsealed]
      refine ⟨p.landCount m.acc m.v (s.hv h).late, ?_, landCount_frame _ _ _ _, fun hq => ?_, ?_, fun i _ hi => ?_⟩
      · rw [addCount, updProgAt_run]
        exact (congrArg (Option.map _) hp).trans (congrArg some (if_pos hfor))
      · rw [hq, landCount_fins_quiet]
      · rw [landCount_acc _ _ _ hwf, if_pos rfl]
      · rw [landCount_acc _ _ _ hwf, if_neg hi]
    · have hnot : ¬(p.slot == m.slot && p.home == m.dst && !p.sealed) = true := by
        rcases hne with h' | h' <;> simp [h']
      rw [addCount, updProgAt_run]
      exact (congrArg (Option.map _) hp).trans (congrArg some (if_neg hnot))
  case bad =>
    obtain ⟨v, hexec⟩ := exec_meshCountMessage_bad k hm
    have hruns := updProg_jobRuns (f := fun p => p.setAcc m.acc v) (fun _ => rfl) m.slot m.dst
      { s with mesh := dropAt s.mesh n } m.slot
    obtain ⟨hunc, hevt, hmesh⟩ := meshBad_says
      (s := (updProg m.slot m.dst (fun p => p.setAcc m.acc v) { s with mesh := dropAt s.mesh n }).tickFree)
      m.src m.path k (hr.imp id hruns.trans)
    exact ⟨_, hexec, hmesh, hunc, hevt⟩

end

end

section
/-! The banks of the extractor (R113 to R121): what stands through their events, and what their own commands make of one bank. -/

namespace Sys2Proof.Machine

-- the extractor, the hives and the jobs through events

/-- The extractor, the hives, the jobs and the station stand. -/
structure SameUnits (s t : State) : Prop where
  phx : t.phx = s.phx
  hives : t.hives = s.hives
  jobs : t.jobs = s.jobs
  swarm : t.swarm = s.swarm

theorem sameUnits_refl (s : State) : SameUnits s s := ⟨rfl, rfl, rfl, rfl⟩

theorem sameUnits_trans {s t u : State} (h : SameUnits s t) (k : SameUnits t u) : SameUnits s u :=
  ⟨k.phx.trans h.phx, k.hives.trans h.hives, k.jobs.trans h.jobs, k.swarm.trans h.swarm⟩

theorem onlyGlass_phx {s t : State} (h : OnlyGlass s t) : t.phx = s.phx := by
  rw [h]

theorem sameUnits_of_onlyGlass {s t : State} (h : OnlyGlass s t) (hh : t.hives = s.hives) : SameUnits s t := by
  obtain ⟨-, hjobs, -, -, -, -, hswarm, -⟩ := onlyGlass_keeps h
  exact ⟨onlyGlass_phx h, hh, hjobs, hswarm⟩

theorem sameUnits_raise (v : Nat) (s : State) : SameUnits s (raise .pf0 v s) :=
  sameUnits_of_onlyGlass (onlyGlass_raise v s) (raise_hives _ v s)

theorem sameUnits_updBank {s t : State} (b : BankId) (f : Bank → Bank) (h : SameUnits s t) :
    SameUnits (updBank b f s) (updBank b f t) :=
  ⟨by simp only [updBank, h.phx], h.hives, h.jobs, h.swarm⟩

/-- An event of a bank adds to that bank's register alone. -/
theorem sameUnits_postEvent_phx (b : BankId) (w : Word) (s : State) :
    SameUnits (updBank b (fun x => { x with evt := x.evt ||| w }) s) (postEvent (.phx b) w s) := by
  obtain ⟨honly, hhives⟩ := postEvent_says (.phx b) w s
  exact sameUnits_of_onlyGlass honly hhives

theorem sameUnits_rpr (r : RprSt) (s : State) : SameUnits s { s with rpr := r } := ⟨rfl, rfl, rfl, rfl⟩

theorem sameUnits_rprEvent (w : Word) (s : State) : SameUnits s (rprEvent w s) := by
  obtain ⟨honly, hhives⟩ := postEvent_says .rpr w s
  exact sameUnits_trans (sameUnits_rpr _ s) (sameUnits_of_onlyGlass honly hhives)

theorem sameUnits_addLogged (e : MapEnt) (s : State) : SameUnits s (addLogged e s) := by
  have hadd : SameUnits s (addEnt e s) := by
    unfold addEnt
    split
    · exact sameUnits_refl s
    · dsimp only
      split
      · exact sameUnits_trans (sameUnits_rpr _ s) (sameUnits_rprEvent 32 _)
      · exact sameUnits_rpr _ s
  exact sameUnits_trans hadd (sameUnits_rpr _ _)

theorem sameUnits_addAll (l : List MapEnt) (s : State) : SameUnits s (addAll l s) := by
  induction l generalizing s with
  | nil => exact sameUnits_refl s
  | cons e r ih => exact sameUnits_trans (sameUnits_addLogged e s) (ih _)

/-- Channels that enter the repair map leave the extractor as it is (R438). -/
theorem sameUnits_chanEnts (b : BankId) (bad : List Nat) (s : State) : SameUnits s (chanEnts b bad s) := by
  unfold chanEnts
  split
  · exact sameUnits_refl s
  · exact sameUnits_trans (sameUnits_trans (sameUnits_addAll _ s) (sameUnits_rprEvent 64 _)) (sameUnits_rpr _ _)

-- a bank after an update, and after what stands through its events

theorem updBank_updBank (b : BankId) (f g : Bank → Bank) (s : State) :
    updBank b f (updBank b g s) = updBank b (fun x => f (g x)) s := by
  simp only [updBank, updAt_updAt]

/-- An update of a bank and then an event of it are one update of it, and what stands through the event. -/
theorem sameUnits_postEvent_updBank (b : BankId) (f : Bank → Bank) (w : Word) (s : State) :
    SameUnits (updBank b (fun x => { f x with evt := (f x).evt ||| w }) s) (postEvent (.phx b) w (updBank b f s)) := by
  have hpost := sameUnits_postEvent_phx b w (updBank b f s)
  rwa [updBank_updBank] at hpost

section
variable {b : BankId} {f : Bank → Bank} {s t : State} (h : SameUnits (updBank b f s) t)
include h

theorem sameUnits_bank : t.phx.bank[b] = f s.phx.bank[b] := by
  rw [h.phx, updBank_bank_same]

theorem sameUnits_bank_other (c : BankId) (hc : c ≠ b) : t.phx.bank[c] = s.phx.bank[c] := by
  rw [h.phx, updBank_bank_other b c f s hc]

end

-- the start of a calibration (R113, R116, R426)

/-- A calibration of the bank begins. -/
def Bank.calibrates (x : Bank) : Bank := { x with st := .cal, relocking := false, thermal := false }

theorem startCal_shed {b : BankId} {s : State} (hs : s.pwr.stage ≠ 0) : startCal b s = s := by
  have hshed : s.phxShed = true := bne_iff_ne.2 hs
  simp only [startCal, hshed, if_true]

theorem startCal_runs {b : BankId} {s : State} (hs : s.pwr.stage = 0) (ht : s.phx.tempHold = false) :
    startCal b s = updBank b Bank.calibrates s := by
  simp only [startCal, State.phxShed, hs, ht, bne_self_eq_false, Bool.false_eq_true, if_false]
  rfl

theorem startCal_held {b : BankId} {s : State} (hs : s.pwr.stage = 0) (ht : s.phx.tempHold = true) :
    startCal b s = updBank b (fun x => { x with st := .off, relocking := false, thermal := true }) s := by
  simp only [startCal, State.phxShed, hs, ht, bne_self_eq_false, Bool.false_eq_true, if_false, if_true]

/-- Without a thermal hold a start leaves the bank alone, which shedding does, or calibrates it. -/
theorem startCal_cases (b : BankId) {s : State} (ht : s.phx.tempHold = false) :
    startCal b s = s ∨ startCal b s = updBank b Bank.calibrates s := by
  by_cases hs : s.pwr.stage = 0
  · exact .inr (startCal_runs hs ht)
  · exact .inl (startCal_shed hs)

theorem exec_phxEnable_on {b : BankId} {s : State} (he : (s.phx.bank[b]).en = true) : exec (.phxEnable b) s = .next s := by
  change execPhxEnable b s = _
  simp only [execPhxEnable, he, if_true]

/-- The bank is enabled. -/
def Bank.enabled (x : Bank) : Bank := { x with en := true }

theorem exec_phxEnable {b : BankId} {s : State} (he : (s.phx.bank[b]).en = false) :
    exec (.phxEnable b) s = .next (startCal b (updBank b Bank.enabled s)) := by
  change execPhxEnable b s = _
  simp only [execPhxEnable, he, Bool.false_eq_true, if_false]
  rfl

theorem exec_cal_ignored {b : BankId} {s : State} (hi : (s.phx.bank[b]).en = false ∨ (s.phx.bank[b]).st = .unlocked) :
    exec (.cal b) s = .next s := by
  change execCal b s = _
  rcases hi with he | hst
  · simp only [execCal, he, Bool.not_false, Bool.true_or, if_true]
  · simp only [execCal, hst, beq_self_eq_true, Bool.or_true, if_true]

theorem exec_cal {b : BankId} {s : State} (he : (s.phx.bank[b]).en = true) (hl : (s.phx.bank[b]).st ≠ .locked)
    (hu : (s.phx.bank[b]).st ≠ .unlocked) : exec (.cal b) s = .next (startCal b s) := by
  change execCal b s = _
  simp only [execCal, he, beq_false_of_ne hl, beq_false_of_ne hu, Bool.not_true, Bool.or_self, Bool.false_eq_true, if_false]

-- the end of a calibration (R112, R113)

/-- A calibration has succeeded: its entries and its temperature stand. -/
def Bank.calibrated (ents : List (BitVec 16 × BitVec 12)) (temp : BitVec 8) (x : Bank) : Bank :=
  { x with
    st := .acquiring, calValid := true, calStale := false, tCal := temp
    ents := Vector.ofFn fun i => match ents[i.val]? with
      | some (g, o) => { gain := g, offs := o }
      | none => x.ents[i] }

theorem calibrated_ents {ents : List (BitVec 16 × BitVec 12)} (hl : ents.length = 8) (temp : BitVec 8) (x : Bank) (i : Fin 8) :
    (x.calibrated ents temp).ents[i] = { gain := (ents.getD i.val (0, 0)).1, offs := (ents.getD i.val (0, 0)).2 } := by
  have hi : i.val < ents.length := by omega
  simp [Bank.calibrated, hi]

theorem exec_phxCalDone_ok {b : BankId} {s : State} (ents : List (BitVec 16 × BitVec 12)) (temp : BitVec 8)
    (hst : (s.phx.bank[b]).st = .cal) (hsp : (s.phx.bank[b]).spares ≤ 8) : exec (.phxCalDone b (.ok ents [] temp)) s = .next
      { s with phx := { (updBank b (Bank.calibrated ents temp) s).phx with laserOk := true } } := by
  have hbad : (s.phx.bank[b]).newBad [] = [] := rfl
  change execPhxCalDone b (.ok ents [] temp) s = _
  simp only [execPhxCalDone, hst, hbad, bne_self_eq_false, Bool.false_eq_true, if_false, List.length_nil, Nat.add_zero,
    Nat.not_lt.2 hsp, List.append_nil]
  rfl

/-- A comb line that fails takes LASER_OK with it. -/
def lineLost (line : Bool) (s : State) : State := if line then { s with phx := { s.phx with laserOk := false } } else s

theorem lineLost_keeps (line : Bool) (s : State) : (lineLost line s).phx.bank = s.phx.bank ∧ (lineLost line s).hives = s.hives ∧
    (lineLost line s).jobs = s.jobs := by
  cases line <;> exact ⟨rfl, rfl, rfl⟩

/-- A calibration has failed: it found `found` bad channels and retires those of the list. -/
def Bank.calFailed (found : Nat) (retires : List Nat) (x : Bank) : Bank :=
  { x with
    st := .off, wasShed := false, calValid := false, spares := min 8 (x.spares + found), retired := x.retired ++ retires
    evt := x.evt ||| 2 }

theorem sameUnits_calFail (b : BankId) (bad : List Nat) (line : Bool) (s : State) : SameUnits
    (updBank b (Bank.calFailed bad.length (bad.take (8 - ((lineLost line s).phx.bank[b]).spares))) (lineLost line s))
    (calFail b bad line s) := by
  have hchan := sameUnits_updBank b (fun x => { x with evt := x.evt ||| 2 })
    (sameUnits_chanEnts b (bad.take (8 - ((lineLost line s).phx.bank[b]).spares)) (updBank b (fun x => { x with
      st := .off, wasShed := false, calValid := false, spares := min 8 (x.spares + bad.length)
      retired := x.retired ++ bad.take (8 - ((lineLost line s).phx.bank[b]).spares) }) (lineLost line s)))
  rw [updBank_updBank] at hchan
  exact sameUnits_trans hchan (sameUnits_postEvent_phx b 2 _)

theorem exec_phxCalDone_fail {b : BankId} {s : State} (bad : List Nat) (line : Bool) (hst : (s.phx.bank[b]).st = .cal) :
    exec (.phxCalDone b (.fail bad line)) s = .next (calFail b ((s.phx.bank[b]).newBad bad) line s) := by
  change execPhxCalDone b (.fail bad line) s = _
  simp only [execPhxCalDone, hst, bne_self_eq_false, Bool.false_eq_true, if_false]

/-- Bit 1 of an event register is set with it. -/
theorem or_two_getLsbD_one (w : Word) : (w ||| 2).getLsbD 1 = true := by
  rw [BitVec.getLsbD_or, show (2 : Word).getLsbD 1 = true from rfl, Bool.or_true]

-- lock (R112, R119, R120)

/-- Only the hives, and inspections that give way to their programs, moved. -/
def OnlyWork (s t : State) : Prop := t = { s with hives := t.hives, rpr := t.rpr }

theorem onlyWork_trans {s t u : State} (h : OnlyWork s t) (k : OnlyWork t u) : OnlyWork s u := by
  rw [OnlyWork] at *
  rw [h] at k
  exact k

theorem onlyWork_askStop (h : HiveId) (w : StopWhy) (s : State) : OnlyWork s (askStop h w s) := by
  unfold askStop
  split <;> rfl

theorem onlyWork_abandonInsp (h : HiveId) (s : State) : OnlyWork s (abandonInsp h s) := by
  unfold abandonInsp
  dsimp only
  split <;> rfl

theorem onlyWork_ite {c : Prop} [Decidable c] {s t : State} (h : OnlyWork s t) : OnlyWork s (if c then t else s) := by
  split
  · exact h
  · rfl

theorem onlyWork_schedule (h : HiveId) (s : State) : OnlyWork s (schedule h s) := by
  have hready : OnlyWork s (if (firstProg s.mayRun (s.hv h).wait).isSome then abandonInsp h s else s) :=
    onlyWork_ite (onlyWork_abandonInsp h s)
  unfold schedule
  dsimp only
  refine onlyWork_trans hready ?_
  generalize (if (firstProg s.mayRun (s.hv h).wait).isSome then abandonInsp h s else s) = t
  split
  · rfl
  · split
    · exact onlyWork_ite rfl
    · split
      · exact onlyWork_ite (onlyWork_askStop h _ t)
      · rfl

theorem onlyWork_unpauseShed (l : List HiveId) (s : State) : OnlyWork s (unpauseShed l s) := by
  induction l generalizing s with
  | nil => rfl
  | cons h r ih => exact onlyWork_trans (onlyWork_trans (t := updHive h _ s) rfl (onlyWork_schedule h _)) (ih _)

/-- Where nothing waits, nothing resumes. -/
theorem unpauseShed_of_no_wait {l : List HiveId} {s : State} (hw : ∀ h ∈ l, (s.hv h).wait = []) : unpauseShed l s = s := by
  induction l with
  | nil => rfl
  | cons h r ih =>
    have hh := hw h List.mem_cons_self
    have hnone : updHive h (fun hv => { hv with wait := hv.wait.map (releaseFrom .shed) }) s = s :=
      updHive_eq_self (congrArg (fun w => { s.hv h with wait := w }) (by rw [hh]; rfl : (s.hv h).wait.map _ = (s.hv h).wait))
    rw [unpauseShed, hnone, schedule_of_no_wait hh]
    exact ih fun k hk => hw k (List.mem_cons_of_mem h hk)

theorem exec_phxLocked {b : BankId} {s : State} (hst : (s.phx.bank[b]).st = .acquiring) : exec (.phxLocked b) s = .next
    (unpauseShed (allHives.filter fun h => h.val / 12 == b.val)
      (updBank b (fun x => { x with st := .locked, relocking := false, wasShed := false }) s)) := by
  change execPhxLocked b s = _
  simp only [execPhxLocked, hst, beq_self_eq_true, if_true]

theorem exec_phxRelockTimeout {b : BankId} {s : State} (hst : (s.phx.bank[b]).st = .acquiring)
    (hr : (s.phx.bank[b]).relocking = true) : exec (.phxRelockTimeout b) s = .next
      (postEvent (.phx b) 4 (updBank b (fun x => { x with st := .unlocked, relocking := false }) s)) := by
  change execPhxRelockTimeout b s = _
  simp only [execPhxRelockTimeout, hst, hr, beq_self_eq_true, Bool.and_self, if_true]

-- entries and temperature (R114, R116, R121)

theorem exec_phxBcalDataWrite_off {b : BankId} {s : State} (v : Word) (hst : (s.phx.bank[b]).st = .off) :
    exec (.phxBcalDataWrite b v) s = .next (updBank b (fun x => { x with
      ents := putAt x.ents x.calIdx.toFin { gain := v.setWidth 16, offs := (v >>> 16).setWidth 12 } }) s) := by
  change execPhxBcalDataWrite b v s = _
  simp only [execPhxBcalDataWrite, hst, beq_self_eq_true, if_true]

theorem exec_phxBcalDataWrite_on {b : BankId} {s : State} (v : Word) (hst : (s.phx.bank[b]).st ≠ .off) :
    exec (.phxBcalDataWrite b v) s = .next (postEvent (.phx b) 16 s) := by
  change execPhxBcalDataWrite b v s = _
  simp only [execPhxBcalDataWrite, beq_false_of_ne hst, Bool.false_eq_true, if_false]

/-- The extractor's temperature as last measured. -/
def atTemp (temp : BitVec 16) (s : State) : State := { s with phx := { s.phx with temp := temp } }

theorem exec_phxCalStale {b : BankId} {s : State} {temp : BitVec 16} (hv : (s.phx.bank[b]).calValid = true)
    (hs : (s.phx.bank[b]).calStale = false) (hfar : 2560 < (temp.toInt - 256 * (s.phx.bank[b]).tCal.toInt).natAbs) :
    exec (.phxCalStale b temp) s =
      .next (postEvent (.phx b) 32 (updBank b (fun x => { x with calStale := true }) (atTemp temp s))) := by
  change execPhxCalStale b temp s = _
  simp only [execPhxCalStale, farFrom, hv, hs, hfar, decide_true, Bool.not_false, Bool.and_self, if_true]
  rfl

-- the end of a thermal hold (R116)

/-- A bank that the thermal hold kept OFF calibrates when the hold ends; the others stand. -/
def Bank.released (x : Bank) : Bank := if x.en && x.thermal && x.st == .off then x.calibrates else x

theorem released_released (x : Bank) : x.released.released = x.released := by
  by_cases hk : (x.en && x.thermal && x.st == .off) = true
  · rw [Bank.released, Bank.released, if_pos hk]
    simp only [Bank.calibrates, Bool.and_false, Bool.false_and, Bool.false_eq_true, if_false]
  · rw [Bank.released, Bank.released, if_neg hk, if_neg hk]

theorem released_st (x : Bank) :
    x.released.st = if x.en = true ∧ x.thermal = true ∧ x.st = .off then BankSt.cal else x.st := by
  have hiff : (x.en && x.thermal && x.st == .off) = true ↔ x.en = true ∧ x.thermal = true ∧ x.st = .off := by
    simp [and_assoc]
  by_cases hk : (x.en && x.thermal && x.st == .off) = true
  · rw [Bank.released, if_pos hk, if_pos (hiff.1 hk), Bank.calibrates]
  · rw [Bank.released, if_neg hk, if_neg (mt hiff.2 hk)]

/-- An update that leaves a bank as it is leaves the state. -/
theorem updBank_eq_self {b : BankId} {f : Bank → Bank} {s : State} (e : f s.phx.bank[b] = s.phx.bank[b]) : updBank b f s = s := by
  have hset : updAt s.phx.bank b f = s.phx.bank := by
    rw [updAt, e]
    exact Vector.set_getElem_self _
  rw [updBank, hset]

theorem endHold_cons {b : BankId} {r : List BankId} {s : State} (hs : s.pwr.stage = 0) (ht : s.phx.tempHold = false) :
    endHold (b :: r) s = endHold r (updBank b Bank.released s) := by
  rw [endHold]
  congr 1
  by_cases hk : ((s.phx.bank[b]).en && (s.phx.bank[b]).thermal && (s.phx.bank[b]).st == .off) = true
  · rw [if_pos hk, startCal_runs hs ht]
    have hbank : (s.phx.bank[b]).released = (s.phx.bank[b]).calibrates := if_pos hk
    simp only [updBank, updAt, hbank]
  · have hbank : (s.phx.bank[b]).released = s.phx.bank[b] := if_neg hk
    rw [if_neg hk, updBank_eq_self hbank]

/-- Outside shedding the end of a hold releases each bank of the list, and moves the extractor alone. -/
theorem endHold_says {l : List BankId} {s : State} (hs : s.pwr.stage = 0) (ht : s.phx.tempHold = false) :
    endHold l s = { s with phx := { s.phx with bank := (endHold l s).phx.bank } } ∧
      ∀ c : BankId, (endHold l s).phx.bank[c] = if c ∈ l then (s.phx.bank[c]).released else s.phx.bank[c] := by
  induction l generalizing s with
  | nil => exact ⟨rfl, fun c => (if_neg List.not_mem_nil).symm⟩
  | cons b r ih =>
    obtain ⟨honly, hbank⟩ := ih (s := updBank b Bank.released s) hs ht
    rw [endHold_cons hs ht]
    refine ⟨honly, fun c => ?_⟩
    rw [hbank]
    by_cases hc : c = b
    · subst hc
      simp only [updBank_bank_same, released_released, ite_self, List.mem_cons_self, if_true]
    · simp only [updBank_bank_other b c _ s hc, List.mem_cons, hc, false_or]

theorem exec_phxTempHoldEnd {temp : BitVec 16} {s : State} (ht : s.phx.tempHold = true) (hcool : temp.toInt < 80 * 256) :
    exec (.phxTempHoldEnd temp) s =
      .next (latchAlert (endHold allBanks { s with phx := { s.phx with temp := temp, tempHold := false } })) := by
  have hcool' : temp.toInt < 20480 := hcool
  change execPhxTempHoldEnd temp s = _
  simp only [execPhxTempHoldEnd, ht, hcool', decide_true, Bool.and_self, if_true]

/-- Outside shedding the hold ends, and releases every bank. -/
theorem exec_phxTempHoldEnd_releases {temp : BitVec 16} {s : State} (ht : s.phx.tempHold = true) (hcool : temp.toInt < 80 * 256)
    (hs : s.pwr.stage = 0) : ∃ t, exec (.phxTempHoldEnd temp) s = .next t ∧ t = { s with phx := t.phx, bmc := t.bmc } ∧
      t.phx.tempHold = false ∧ t.phx.temp = temp ∧ ∀ c : BankId, t.phx.bank[c] = (s.phx.bank[c]).released := by
  obtain ⟨honly, hbank⟩ := endHold_says (l := allBanks)
    (s := { s with phx := { s.phx with temp := temp, tempHold := false } }) hs rfl
  have hexec := exec_phxTempHoldEnd ht hcool
  generalize endHold allBanks { s with phx := { s.phx with temp := temp, tempHold := false } } = t at honly hbank hexec
  refine ⟨_, hexec, ?_, ?_, ?_, fun c => (hbank c).trans (if_pos (List.mem_finRange c))⟩
  all_goals
    rw [honly]
    rfl

theorem exec_phxTempHoldEnd_stays {temp : BitVec 16} {s : State} (h : s.phx.tempHold = false ∨ 80 * 256 ≤ temp.toInt) :
    exec (.phxTempHoldEnd temp) s = .next (atTemp temp s) := by
  have hstays : (s.phx.tempHold && decide (temp.toInt < 80 * 256)) = false := by
    rcases h with ht | hhot
    · rw [ht, Bool.false_and]
    · rw [decide_eq_false (Int.not_lt.2 hhot), Bool.and_false]
  change (if (s.phx.tempHold && decide (temp.toInt < 80 * 256)) = true then _ else _) = _
  simp only [hstays, Bool.false_eq_true, if_false]
  rfl

end Sys2Proof.Machine

end

section
/-! Loss of lock (R116 to R119): what it notes, and what becomes of a pass in conversion. -/

namespace Sys2Proof.Machine

-- what a loss notes (R116)

/-- The bank has lost lock: its state, the cause and the job that PHX_BLOSS records, and LOCK_LOST. -/
def Bank.lost (cause : Nat) (st : BankSt) (tag : BitVec 16) (x : Bank) : Bank :=
  { x with st := st, relocking := st == .acquiring, lossCause := BitVec.ofNat 4 cause, lossTag := tag, evt := x.evt ||| 1 }

/-- A loss of lock is noted; the passes in conversion still stand. -/
def noteLoss (b : BankId) (cause : Nat) (st : BankSt) (s : State) : State :=
  let t := postEvent (.phx b) 1 (updBank b (fun x => { x with
    st := st, relocking := st == .acquiring, lossCause := BitVec.ofNat 4 cause, lossTag := s.lossTagOf b }) s)
  if cause = 3 then raise .pf0 0 t else t

theorem lossOf_eq (b : BankId) (cause : Nat) (st : BankSt) (s : State) :
    lossOf b cause st s = discardAll b (s.converting b) (noteLoss b cause st s) := rfl

/-- With no pass in conversion a loss is noted and discards nothing. -/
theorem lossOf_quiet {b : BankId} {s : State} (hq : s.converting b = []) (cause : Nat) (st : BankSt) :
    lossOf b cause st s = noteLoss b cause st s := by
  rw [lossOf_eq, hq, discardAll]

theorem sameUnits_noteLoss (b : BankId) (cause : Nat) (st : BankSt) (s : State) :
    SameUnits (updBank b (Bank.lost cause st (s.lossTagOf b)) s) (noteLoss b cause st s) := by
  have hpost := sameUnits_postEvent_updBank b (fun x => { x with
    st := st, relocking := st == .acquiring, lossCause := BitVec.ofNat 4 cause, lossTag := s.lossTagOf b }) 1 s
  unfold noteLoss
  dsimp only
  split
  · exact sameUnits_trans hpost (sameUnits_raise 0 _)
  · exact hpost

-- PHX_DISABLE, and CAL of a LOCKED bank (R113, R116, R119)

/-- The bank is disabled. -/
def Bank.disabled (x : Bank) : Bank := { x with en := false, wasShed := false, thermal := false }

theorem exec_phxDisable_locked {b : BankId} {s : State} (hst : (s.phx.bank[b]).st = .locked) (hs : s.pwr.stage = 0) :
    exec (.phxDisable b) s = .next (lossOf b 4 .off (updBank b Bank.disabled s)) := by
  change execPhxDisable b s = _
  simp only [execPhxDisable, hst, State.phxShed, hs, bne_self_eq_false, beq_self_eq_true, Bool.false_eq_true, if_false, if_true]
  rfl

theorem exec_phxDisable_unlocked {b : BankId} {s : State} (hst : (s.phx.bank[b]).st = .unlocked) :
    exec (.phxDisable b) s = .next (updBank b Bank.disabled s) := by
  have hne : (BankSt.unlocked == BankSt.locked) = false := rfl
  change execPhxDisable b s = _
  simp only [execPhxDisable, hst, hne, beq_self_eq_true, Bool.false_eq_true, if_false, if_true]
  rfl

theorem exec_phxDisable {b : BankId} {s : State} (hl : (s.phx.bank[b]).st ≠ .locked) (hu : (s.phx.bank[b]).st ≠ .unlocked) :
    exec (.phxDisable b) s = .next (updBank b (fun x => { x.disabled with
      st := if s.pwr.stage = 0 then .off else .shed, relocking := false }) s) := by
  have hdark : (if s.phxShed then BankSt.shed else .off) = if s.pwr.stage = 0 then .off else .shed := by
    by_cases hs : s.pwr.stage = 0 <;> simp [State.phxShed, hs]
  change execPhxDisable b s = _
  simp only [execPhxDisable, beq_false_of_ne hl, beq_false_of_ne hu, Bool.false_eq_true, if_false, updBank_updBank, hdark]
  rfl

theorem exec_cal_locked {b : BankId} {s : State} (he : (s.phx.bank[b]).en = true) (hst : (s.phx.bank[b]).st = .locked) :
    exec (.cal b) s = .next (startCal b (lossOf b 4 .cal s)) := by
  have hne : (BankSt.locked == BankSt.unlocked) = false := rfl
  change execCal b s = _
  simp only [execCal, he, hst, hne, Bool.not_true, Bool.or_self, beq_self_eq_true, Bool.false_eq_true, if_false, if_true]

-- PHX_LOSS_OF_LOCK (R112, R116)

/-- What the declaration of a loss measures: the temperature, the largest detuning, the thermal hold, the laser. -/
def lossSeen (b : BankId) (cause : BitVec 4) (worst temp : BitVec 16) (s : State) : State :=
  updBank b (fun x => { x with worst := if x.worst.toNat < worst.toNat then worst else x.worst })
    { s with phx := { s.phx with
      temp := temp, tempHold := s.phx.tempHold || cause = 3, laserOk := s.phx.laserOk && cause != 2 } }

/-- The state to which a cause of Table 5.7 takes a bank, the thermal hold aside. -/
def lossSt (cause : BitVec 4) : BankSt := if cause = 2 then .off else .acquiring

/-- A loss of lock with its measurements, noted. -/
def lossDeclared (b : BankId) (cause : BitVec 4) (worst temp : BitVec 16) (s : State) : State :=
  noteLoss b cause.toNat (lossSt cause) (lossSeen b cause worst temp s)

theorem sameUnits_lossDeclared (b : BankId) (cause : BitVec 4) (worst temp : BitVec 16) (s : State) :
    SameUnits (updBank b (Bank.lost cause.toNat (lossSt cause) (s.lossTagOf b)) (lossSeen b cause worst temp s))
      (lossDeclared b cause worst temp s) :=
  sameUnits_noteLoss b cause.toNat (lossSt cause) (lossSeen b cause worst temp s)

/-- The state in which a thermal hold leaves a bank. -/
def BankSt.heldOff (st : BankSt) : BankSt := if st == .cal || st == .acquiring then .off else st

/-- The banks under a thermal hold, where there is one, and the alert latched. -/
def lossEnd (hold : Bool) (s : State) : State := latchAlert (if hold then holdBanks s else s)

theorem lossEnd_keeps (hold : Bool) (s : State) : (lossEnd hold s).hives = s.hives ∧ (lossEnd hold s).jobs = s.jobs ∧
    (lossEnd hold s).phx.temp = s.phx.temp ∧ (lossEnd hold s).phx.tempHold = s.phx.tempHold := by
  cases hold <;> exact ⟨rfl, rfl, rfl, rfl⟩

theorem lossEnd_hv (hold : Bool) (s : State) (h : HiveId) : (lossEnd hold s).hv h = s.hv h := by
  cases hold <;> rfl

theorem lossEnd_job? (hold : Bool) (s : State) (slot : Nat) : (lossEnd hold s).job? slot = s.job? slot := by
  cases hold <;> rfl

theorem holdBanks_bank (s : State) (b : BankId) : ∃ r k, (holdBanks s).phx.bank[b] =
    { s.phx.bank[b] with st := (s.phx.bank[b]).st.heldOff, relocking := r, thermal := k } := by
  have hmap : (holdBanks s).phx.bank[b] = if (s.phx.bank[b]).st == .cal || (s.phx.bank[b]).st == .acquiring then
      { s.phx.bank[b] with st := .off, relocking := false, thermal := true } else s.phx.bank[b] := Vector.getElem_map _ _
  rw [hmap, BankSt.heldOff]
  split
  · exact ⟨_, _, rfl⟩
  · exact ⟨(s.phx.bank[b]).relocking, (s.phx.bank[b]).thermal, rfl⟩

/-- To a bank the end of a declaration does no more than hold it OFF. -/
theorem lossEnd_bank (hold : Bool) (s : State) (b : BankId) : ∃ r k, (lossEnd hold s).phx.bank[b] = { s.phx.bank[b] with
    st := if hold then (s.phx.bank[b]).st.heldOff else (s.phx.bank[b]).st, relocking := r, thermal := k } := by
  cases hold
  · exact ⟨(s.phx.bank[b]).relocking, (s.phx.bank[b]).thermal, rfl⟩
  · exact holdBanks_bank s b

theorem exec_phxLossOfLock {b : BankId} {cause : BitVec 4} {s : State} (worst temp : BitVec 16)
    (hst : (s.phx.bank[b]).st = .locked) (hc : cause ∈ [(1 : BitVec 4), 2, 3, 5]) :
    exec (.phxLossOfLock b cause worst temp) s = .next (lossEnd (s.phx.tempHold || cause = 3)
      (discardAll b (s.converting b) (lossDeclared b cause worst temp s))) := by
  have hcause : (decide (cause = 1) || decide (cause = 2) || decide (cause = 3) || decide (cause = 5)) = true := by
    revert cause
    decide
  change execPhxLossOfLock b cause worst temp s = _
  simp only [execPhxLossOfLock, hst, hcause, bne_self_eq_false, Bool.not_true, Bool.or_self, Bool.false_eq_true, if_false]
  rfl

theorem exec_phxLossOfLock_quiet {b : BankId} {cause : BitVec 4} {s : State} (worst temp : BitVec 16)
    (hst : (s.phx.bank[b]).st = .locked) (hc : cause ∈ [(1 : BitVec 4), 2, 3, 5]) (hq : s.converting b = []) :
    exec (.phxLossOfLock b cause worst temp) s =
      .next (lossEnd (s.phx.tempHold || cause = 3) (lossDeclared b cause worst temp s)) := by
  rw [exec_phxLossOfLock worst temp hst hc, hq, discardAll]

theorem exec_phxLossOfLock_pass {b : BankId} {cause : BitVec 4} {s : State} {h : HiveId} {p : Prog} {x : Landing}
    (worst temp : BitVec 16) (hst : (s.phx.bank[b]).st = .locked) (hc : cause ∈ [(1 : BitVec 4), 2, 3, 5])
    (hq : s.converting b = [(h, p, x)]) : exec (.phxLossOfLock b cause worst temp) s =
      .next (lossEnd (s.phx.tempHold || cause = 3) (discardPass b h p x (lossDeclared b cause worst temp s))) := by
  rw [exec_phxLossOfLock worst temp hst hc, hq, discardAll, discardAll]

/-- Cause and thermal hold together give the state after the loss (Table 5.7). -/
theorem heldOff_lossSt : ∀ cause ∈ [(1 : BitVec 4), 2, 3, 5], ∀ hold : Bool,
    (if (hold || cause = 3) = true then (lossSt cause).heldOff else lossSt cause) =
      if (cause = 1 ∨ cause = 5) ∧ hold = false then BankSt.acquiring else .off := by
  decide

/-- PHX_BERR keeps the larger detuning. -/
theorem worst_toNat (x w : BitVec 16) : (if x.toNat < w.toNat then w else x).toNat = max x.toNat w.toNat := by
  split <;> omega

/-- What the bank holds after a declared loss, whatever became of the passes in conversion. -/
theorem lossEnd_lost {b : BankId} {cause : BitVec 4} {worst temp : BitVec 16} {s t : State} (hold : Bool)
    (ht : t.phx = (lossDeclared b cause worst temp s).phx) : ∃ r k, (lossEnd hold t).phx.bank[b] = { s.phx.bank[b] with
      st := if hold then (lossSt cause).heldOff else lossSt cause
      relocking := r, thermal := k, lossCause := cause, lossTag := s.lossTagOf b, evt := (s.phx.bank[b]).evt ||| 1
      worst := if (s.phx.bank[b]).worst.toNat < worst.toNat then worst else (s.phx.bank[b]).worst } := by
  obtain ⟨r, k, hend⟩ := lossEnd_bank hold t b
  have hnote := sameUnits_bank (sameUnits_lossDeclared b cause worst temp s)
  rw [← ht, lossSeen, updBank_bank_same] at hnote
  refine ⟨r, k, ?_⟩
  rw [hend, hnote]
  simp only [Bank.lost, BitVec.ofNat_toNat, BitVec.setWidth_eq]

theorem lossDeclared_hv (b : BankId) (cause : BitVec 4) (worst temp : BitVec 16) (s : State) (h : HiveId) :
    (lossDeclared b cause worst temp s).hv h = s.hv h :=
  congrArg (fun v : Vector Hive 96 => v[h]) (sameUnits_lossDeclared b cause worst temp s).hives

-- the job that a loss concerns

theorem lossTagOf_pass {b : BankId} {h : HiveId} {p : Prog} {x : Landing} {s : State} (hc : s.converting b = [(h, p, x)]) :
    s.lossTagOf b = s.tagOf p.slot := by
  rw [State.lossTagOf, hc]

/-- With no pass in conversion, the first program of the row whose layer is photonic is the one that loses its bank. -/
theorem lossTagOf_user {b : BankId} {r : HiveId × Prog} {l : List (HiveId × Prog)} {s : State} (hc : s.converting b = [])
    (hr : s.photonicRuns b = r :: l) : s.lossTagOf b = s.tagOf r.2.slot := by
  simp only [State.lossTagOf, hc, hr]

/-- With nothing in conversion and no photonic layer in force, no job is recorded. -/
theorem lossTagOf_idle {b : BankId} {s : State} (hc : s.converting b = []) (hr : s.photonicRuns b = []) : s.lossTagOf b = 0 := by
  simp only [State.lossTagOf, hc, hr]

/-- A pass in conversion belongs to the program that its hive runs. -/
theorem converting_run {b : BankId} {h : HiveId} {p : Prog} {x : Landing} {s : State} (hc : s.converting b = [(h, p, x)]) :
    (s.hv h).run = some p := by
  have hm : (h, p, x) ∈ s.converting b := hc ▸ List.mem_cons_self
  obtain ⟨k, -, hk⟩ := List.mem_flatMap.1 hm
  cases hr : (s.hv k).run with
  | none => simp [hr] at hk
  | some q =>
    simp only [hr, List.mem_map, Prod.mk.injEq] at hk
    obtain ⟨y, -, rfl, rfl, -⟩ := hk
    exact hr

-- a sum into neighbouring accumulators

/-- Add to n accumulators from a base on. -/
def Prog.addDiffs (base n : Nat) (d : Nat → Word) (p : Prog) : Prog :=
  (List.range n).foldl (fun (q : Prog) j => q.addAcc (base + j) (d j)) p

theorem addDiffs_succ (base n : Nat) (d : Nat → Word) (p : Prog) :
    p.addDiffs base (n + 1) d = (p.addDiffs base n d).addAcc (base + n) (d n) := by
  simp only [Prog.addDiffs, List.range_succ, List.foldl_append, List.foldl_cons, List.foldl_nil]

theorem addDiffs_frame (base n : Nat) (d : Nat → Word) (p : Prog) :
    p.addDiffs base n d = { p with acc := (p.addDiffs base n d).acc } := by
  induction n with
  | zero => rfl
  | succ n ih =>
    rw [addDiffs_succ, ih]
    rfl

theorem addDiffs_wf (base n : Nat) (d : Nat → Word) {p : Prog} (hwf : tabWf 0 p.acc = true) :
    tabWf 0 (p.addDiffs base n d).acc = true := by
  induction n with
  | zero => exact hwf
  | succ n ih =>
    rw [addDiffs_succ]
    exact tabSet_wf _ _ ih

/-- Each accumulator takes the difference of its own index: no two of at most 1,024 meet. -/
theorem addDiffs_acc {base n : Nat} (d : Nat → Word) {p : Prog} (hwf : tabWf 0 p.acc = true) (hn : n ≤ 1024) {i : Nat}
    (hi : i < 1024) : tabGet 0 (p.addDiffs base n d).acc ((base + i) % 1024) =
      tabGet 0 p.acc ((base + i) % 1024) + if i < n then d i else 0 := by
  induction n with
  | zero => exact (BitVec.add_zero _).symm
  | succ n ih =>
    have hadd : ∀ k, tabGet 0 (p.addDiffs base (n + 1) d).acc k = if k = (base + n) % 1024 then
        tabGet 0 (p.addDiffs base n d).acc ((base + n) % 1024) + d n else tabGet 0 (p.addDiffs base n d).acc k := fun k => by
      rw [addDiffs_succ]
      exact tabGet_tabSet _ k _ (addDiffs_wf base n d hwf)
    have hbelow := ih (by omega)
    rw [hadd]
    by_cases hin : i = n
    · subst hin
      rw [if_pos rfl, hbelow, if_neg (Nat.lt_irrefl i), if_pos (Nat.lt_succ_self i)]
      exact congrArg (· + d i) (BitVec.add_zero _)
    · have hlt : i < n + 1 ↔ i < n := by omega
      rw [if_neg (by omega), hbelow]
      simp only [hlt]

-- the counts of a discarded pass (R117, R118)

/-- The program after a discarded pass whose counts still land: the differences in its accumulators and its chains. -/
def Prog.retaken (x : Landing) (vals alts : List Word) (fb : Bool) (p : Prog) : Prog :=
  let q := p.addDiffs x.acc vals.length (lostDiff vals alts fb)
  { q with fins := q.fins.map fun f =>
      if x.seq ≤ f.seq && accIn x.acc vals.length f.acc then
        { f with v := f.v + lostDiff vals alts fb ((f.acc + 1024 - x.acc) % 1024) } else f }

/-- With fallback each accumulator of the pass holds the adder tree's count in the place of the bank's (R118). -/
theorem retaken_acc (x : Landing) {vals : List Word} (alts : List Word) {p : Prog} (hn : vals.length ≤ 1024)
    (hwf : tabWf 0 p.acc = true) {i : Nat} (hi : i < vals.length) :
    tabGet 0 (p.retaken x vals alts true).acc ((x.acc + i) % 1024) =
      tabGet 0 p.acc ((x.acc + i) % 1024) + (alts.getD i 0 - vals.getD i 0) :=
  (addDiffs_acc (lostDiff vals alts true) hwf hn (Nat.lt_of_lt_of_le hi hn)).trans (by rw [if_pos hi]; rfl)

theorem retaken_frame (x : Landing) (vals alts : List Word) (fb : Bool) (p : Prog) : p.retaken x vals alts fb =
    { p with acc := (p.retaken x vals alts fb).acc, fins := (p.retaken x vals alts fb).fins } := by
  simp only [Prog.retaken]
  rw [addDiffs_frame]

section
variable (h : HiveId) (p : Prog) (x : Landing) (vals alts : List Word) (fb : Bool) (slabs : Nat) (s : State)

theorem retake_run : ((retake h p x vals alts fb slabs s).hv h).run =
    if ((s.hv h).late.any fun y => y.kind == .count && y.seq == x.seq) = true then (s.hv h).run.map (Prog.retaken x vals alts fb)
    else (s.hv h).run := by
  change ((updHive h _ s).hv h).run = _
  rw [updHive_hv]
  rfl

theorem retake_hv_other {k : HiveId} (hk : k ≠ h) : (retake h p x vals alts fb slabs s).hv k = s.hv k :=
  updHive_hv_other h k _ s hk

variable {h p s}

/-- While a count of the pass has not landed, the program's accumulators and chains take the difference. -/
theorem retake_takes (hr : (s.hv h).run = some p) (hown : ∃ y, y ∈ (s.hv h).late ∧ y.kind = .count ∧ y.seq = x.seq) :
    ((retake h p x vals alts fb slabs s).hv h).run = some (p.retaken x vals alts fb) := by
  have hany : ((s.hv h).late.any fun y => y.kind == .count && y.seq == x.seq) = true := by simpa using hown
  rw [retake_run, if_pos hany, hr]
  rfl

/-- A job goes on running while a pass of it is discarded. -/
theorem retake_jobRuns (hr : (s.hv h).run = some p) : (retake h p x vals alts fb slabs s).jobRuns p.slot = true := by
  have hrun := retake_run h p x vals alts fb slabs s
  rw [hr] at hrun
  rw [jobRuns_iff]
  split at hrun
  · exact ⟨h, _, hrun, by rw [retaken_frame]⟩
  · exact ⟨h, p, hrun, rfl⟩

end

-- the end of a job moves no bank

theorem endJob_phx {s : State} {slot : Nat} {j : Job} (hj : s.job? slot = some j) (hst : j.st ≠ .ended)
    (hr : s.jobRuns slot = true) (ho : s.others j = []) (e : Ending) (w : StopWhy) : (endJob slot e w s).phx = s.phx := by
  have halone : stopOthers j e.reason (updJob slot (Job.endWith e) s) = updJob slot (Job.endWith e) s := stopOthers_alone _ ho
  rw [endJob_runs hj hst hr, askStops_only, noteEnd, halone]
  rfl

theorem hiveFault_phx {s : State} {slot : Nat} {j : Job} (hj : s.job? slot = some j) (hr : s.jobRuns slot = true)
    (ho : s.others j = []) (h : HiveId) (cause : Nat) : (hiveFault h cause slot s).phx = s.phx := by
  have hnote : (faultNote h cause slot s).phx = s.phx := onlyGlass_phx (onlyGlass_faultNote h cause slot s)
  by_cases hst : j.st = .ended
  · have hover : ∀ i, s.job? slot = some i → i.st = .ended := fun i hi => by
      rw [← Option.some.inj (hj.symm.trans hi)]
      exact hst
    rw [hiveFault_of_over hover, hnote]
  · exact (endJob_phx ((faultNote_job? h cause slot s slot).trans hj) hst ((faultNote_jobRuns h cause slot s slot).trans hr)
      ((faultNote_others h cause slot s j).trans ho) _ _).trans hnote

-- a pass in conversion is discarded (R117, R118)

/-- The job has run with less than the full array (R118). -/
def Job.degraded (j : Job) : Job := { j with degr := j.degr ||| 4 }

section
variable {h : HiveId} {p : Prog} {x : Landing} {vals alts : List Word} {slabs : Nat} {s : State} {j : Job} (b : BankId)

/-- With fallback the job is degraded, and the hives are as `retake` leaves them. -/
theorem discardPass_fallback (hk : x.kind = .pass vals alts true slabs) (hj : s.job? p.slot = some j) :
    (discardPass b h p x s).phx = s.phx ∧ (discardPass b h p x s).job? p.slot = some j.degraded ∧
      ∀ k, (discardPass b h p x s).hv k = (retake h p x vals alts true slabs s).hv k := by
  have heq : discardPass b h p x s =
      cntBank b 1 1 (updJob p.slot Job.degraded (cntBank b 3 1 (retake h p x vals alts true slabs s))) := by
    simp only [discardPass, hk, if_true]
    rfl
  have hjob : (cntBank b 3 1 (retake h p x vals alts true slabs s)).job? p.slot = some j := hj
  have hphx : (retake h p x vals alts true slabs s).phx = s.phx := rfl
  rw [heq]
  refine ⟨hphx, ?_, fun _ => rfl⟩
  change (updJob p.slot Job.degraded (cntBank b 3 1 (retake h p x vals alts true slabs s))).job? p.slot = _
  rw [job?_updJob p.slot (f := Job.degraded) fun _ => rfl, hjob]
  rfl

/-- Without fallback the hive declares its fault, and a job of this station alone that runs is being stopped. -/
theorem discardPass_fault (hk : x.kind = .pass vals alts false slabs) (hj : s.job? p.slot = some j) (hr : (s.hv h).run = some p)
    (ho : s.others j = []) : (discardPass b h p x s).phx = s.phx ∧ ((discardPass b h p x s).hv h).evt.getLsbD 2 = true ∧
      (j.st = .running → ((discardPass b h p x s).job? p.slot).map (·.st) = some .stopping) := by
  have heq : discardPass b h p x s = hiveFault h 2 p.slot (cntBank b 3 1 (retake h p x vals alts false slabs s)) := by
    simp only [discardPass, hk, Bool.false_eq_true, if_false]
  have hruns : (cntBank b 3 1 (retake h p x vals alts false slabs s)).jobRuns p.slot = true :=
    retake_jobRuns x vals alts false slabs hr
  rw [heq]
  refine ⟨hiveFault_phx (s := cntBank b 3 1 (retake h p x vals alts false slabs s)) hj hruns ho h 2,
    (hiveFault_noted h 2 (.inr hruns)).1, fun hst => ?_⟩
  rw [hiveFault_alone (s := cntBank b 3 1 (retake h p x vals alts false slabs s)) hj (running_ne_ended hst) hruns ho h 2]
  rfl

end

end Sys2Proof.Machine

section

open Sys2Proof Sys2Proof.Machine

/-- Settles O19: each command of a bank is one update of it and what stands through the event; a pass in conversion is one addition
per accumulator, or the fault of its hive. -/
theorem photonicBanksLockAndLoseLock : Obligations.PhotonicBanksLockAndLoseLock := by
  refine ⟨fun b s => ⟨fun he hs ht => ?enable, fun he hs => ?enableShed, fun he hs ht => ?enableHeld, exec_phxEnable_on,
    fun he => exec_cal_ignored (.inl he), fun hst => exec_cal_ignored (.inr hst), fun he hl hu hs ht => ?cal,
    fun ents temp hst hsp hlen => ?calOk, fun bad line hst => ?calFail, fun hst => ?locked, fun hst hr => ?relockTimeout,
    fun v hst => exec_phxBcalDataWrite_off v hst, fun v hst => exec_phxBcalDataWrite_on v hst⟩,
    fun b s => ⟨fun hst hs hq => ?disable, exec_phxDisable_unlocked, exec_phxDisable, fun hst he ht hq => ?calLocked,
      fun cause worst temp hst hc hq => ?loss, fun cause worst temp h p j x vals alts slabs hst hc hq hj hk => ?fallback,
      fun cause worst temp h p j x vals alts slabs hst hc hq hj _ ho hk => ?fault, fun temp hv hs hfar => ?stale,
      fun temp ht hcool hs => ?holdEnd, fun temp hstays => exec_phxTempHoldEnd_stays hstays⟩⟩
  case enable =>
    rw [exec_phxEnable he, startCal_runs (s := updBank b Bank.enabled s) hs ht, updBank_updBank]
    rfl
  case enableShed =>
    rw [exec_phxEnable he, startCal_shed (s := updBank b Bank.enabled s) hs]
    rfl
  case enableHeld =>
    rw [exec_phxEnable he, startCal_held (s := updBank b Bank.enabled s) hs ht, updBank_updBank]
    rfl
  case cal =>
    rw [exec_cal he hl hu, startCal_runs hs ht]
    rfl
  case calOk =>
    have hbank := updBank_bank_same b (Bank.calibrated ents temp) s
    have hent := fun i => calibrated_ents hlen temp s.phx.bank[b] i
    refine ⟨_, exec_phxCalDone_ok ents temp hst hsp, rfl, ?_, ?_, ?_, ?_, fun i => ?ents, rfl,
      fun c hc => updBank_bank_other b c _ s hc⟩
    case ents => simp only [hbank, hent, and_self]
    all_goals
      rw [hbank]
      rfl
  case calFail =>
    have hunits := sameUnits_calFail b ((s.phx.bank[b]).newBad bad) line s
    have hbank := sameUnits_bank hunits
    obtain ⟨hbanks, hhives, hjobs⟩ := lineLost_keeps line s
    refine ⟨_, exec_phxCalDone_fail bad line hst, ?_, ?_, ?_, fun c hc => ?_, hunits.hives.trans hhives, hunits.jobs.trans hjobs⟩
    · rw [hbank]
      rfl
    · rw [hbank]
      rfl
    · rw [hbank]
      exact or_two_getLsbD_one _
    · rw [sameUnits_bank_other hunits c hc, hbanks]
  case locked =>
    refine ⟨_, exec_phxLocked hst, onlyWork_unpauseShed _ _, fun hw => ?_⟩
    have hnone := unpauseShed_of_no_wait (l := allHives.filter fun h => h.val / 12 == b.val)
      (s := updBank b (fun x => { x with st := .locked, relocking := false, wasShed := false }) s)
      fun h hh => hw h (by simpa using (List.mem_filter.1 hh).2)
    rw [hnone]
    exact ⟨rfl, fun _ => rfl⟩
  case relockTimeout =>
    have hunits := sameUnits_postEvent_updBank b (fun x => { x with st := .unlocked, relocking := false }) 4 s
    have hbank := sameUnits_bank hunits
    refine ⟨_, exec_phxRelockTimeout hst hr, ?_, ?_, sameUnits_bank_other hunits, hunits.hives, hunits.jobs⟩
    · rw [hbank]
    · rw [hbank]
  case disable =>
    have hunits := sameUnits_noteLoss b 4 .off (updBank b Bank.disabled s)
    rw [updBank_updBank] at hunits
    have hbank := sameUnits_bank hunits
    have hexec := exec_phxDisable_locked hst hs
    rw [lossOf_quiet (s := updBank b Bank.disabled s) hq] at hexec
    refine ⟨_, hexec, ?_, ?_, ?_, ?_, sameUnits_bank_other hunits, hunits.hives, hunits.jobs⟩
    all_goals
      rw [hbank]
      rfl
  case calLocked =>
    have hunits := sameUnits_noteLoss b 4 .cal s
    have hbank := sameUnits_bank hunits
    have hhold : (noteLoss b 4 .cal s).phx.tempHold = false := by rw [hunits.phx]; exact ht
    refine ⟨_, exec_cal_locked he hst, ?_⟩
    rw [lossOf_quiet hq]
    rcases startCal_cases b hhold with hc | hc
    · rw [hc, hbank]
      exact ⟨rfl, rfl, rfl, hunits.hives, hunits.jobs⟩
    · rw [hc, updBank_bank_same, hbank]
      exact ⟨rfl, rfl, rfl, hunits.hives, hunits.jobs⟩
  case loss =>
    have hunits := sameUnits_lossDeclared b cause worst temp s
    obtain ⟨r, k, hbank⟩ := lossEnd_lost (b := b) (cause := cause) (worst := worst) (temp := temp) (s := s)
      (s.phx.tempHold || cause = 3) rfl
    obtain ⟨hhives, hjobs, htemp, hhold⟩ := lossEnd_keeps (s.phx.tempHold || cause = 3) (lossDeclared b cause worst temp s)
    refine ⟨_, exec_phxLossOfLock_quiet worst temp hst hc hq, ?_, ?_, ?_, ?_, htemp.trans (congrArg PhxSt.temp hunits.phx), ?_, ?_,
      hhives.trans hunits.hives, hjobs.trans hunits.jobs⟩
    · rw [hbank]
      exact heldOff_lossSt cause hc s.phx.tempHold
    · rw [hbank]
    · rw [hbank]
      cases hruns : s.photonicRuns b with
      | nil => exact lossTagOf_idle hq hruns
      | cons r l => exact lossTagOf_user hq hruns
    · rw [hbank]
    · rw [hbank]
      exact worst_toNat _ _
    · rw [hhold, hunits.phx]
      simp [updBank, lossSeen]
  case fallback =>
    have hjob := (job?_congr (sameUnits_lossDeclared b cause worst temp s).jobs p.slot).trans hj
    have hhv := lossDeclared_hv b cause worst temp s
    obtain ⟨hphx, hdegr, hhives⟩ := discardPass_fallback (h := h) b hk hjob
    obtain ⟨r, k, hbank⟩ := lossEnd_lost (s.phx.tempHold || cause = 3) hphx
    refine ⟨_, exec_phxLossOfLock_pass worst temp hst hc hq, ?_, ?_, fun k hne => ?_, fun hown hn hwf =>
      ⟨p.retaken x vals alts true, ?_, retaken_frame x vals alts true p, fun i hi => retaken_acc x alts hn hwf hi⟩⟩
    · rw [hbank, lossTagOf_pass hq]
    · rw [lossEnd_job?, hdegr]
      rfl
    · rw [lossEnd_hv, hhives, retake_hv_other h p x vals alts true slabs _ hne, hhv]
    · rw [lossEnd_hv, hhives]
      exact retake_takes x vals alts true slabs ((congrArg Hive.run (hhv h)).trans (converting_run hq))
        (by rw [hhv]; exact hown)
  case fault =>
    have hunits := sameUnits_lossDeclared b cause worst temp s
    have hrun : ((lossDeclared b cause worst temp s).hv h).run = some p :=
      (congrArg Hive.run (lossDeclared_hv b cause worst temp s h)).trans (converting_run hq)
    obtain ⟨hphx, hevt, hstop⟩ := discardPass_fault b hk ((job?_congr hunits.jobs p.slot).trans hj) hrun
      ((others_congr hunits.swarm j).trans ho)
    obtain ⟨r, k, hbank⟩ := lossEnd_lost (s.phx.tempHold || cause = 3) hphx
    refine ⟨_, exec_phxLossOfLock_pass worst temp hst hc hq, ?_, ?_, fun hst => ?_⟩
    · rw [hbank, lossTagOf_pass hq]
    · rw [lossEnd_hv]
      exact hevt
    · rw [lossEnd_job?]
      exact hstop hst
  case stale =>
    have hunits := sameUnits_postEvent_updBank b (fun x => { x with calStale := true }) 32 (atTemp temp s)
    have hbank := sameUnits_bank hunits
    refine ⟨_, exec_phxCalStale hv hs hfar, ?_, ?_, ?_, congrArg PhxSt.temp hunits.phx, hunits.hives, hunits.jobs⟩
    · rw [hbank]
    · rw [hbank]
      rfl
    · rw [hbank]
      rfl
  case holdEnd =>
    obtain ⟨t, hexec, honly, hhold, htemp, hbank⟩ := exec_phxTempHoldEnd_releases ht hcool hs
    exact ⟨t, hexec, honly, hhold, htemp, by rw [hbank, released_st]⟩

end

end

section
/-! The rail of a row under inspection (R444, log entry 84): what holds its target down when no request does (R128). -/

namespace Sys2Proof.Machine

/-- An inspection in a row holds the row's target at OVS0, whatever its ceilings and requests are. -/
theorem target_of_inspected {r : RowId} {s : State} (hi : (s.rpr.insp.any fun i => i.row == r.val) = true) : s.target r = 0 := by
  unfold State.target State.rowMin
  exact if_pos hi

/-- A part without work whose wax gives row 1 the ceiling OVS3. -/
def idlePart : State := { wax := { img := { ovs := [.row 1 3] } }, rpr := { pcol := hostCols [] } }

/-- That part once the periodic inspection of row 1, column 0 has begun. -/
def inspectedPart : State := { idlePart with rpr := { idlePart.rpr with
  inspNext := idlePart.rpr.inspNext.set 1 1
  insp := [{ target := 12, row := 1, pcol := 0, why := .periodic }] } }

theorem inspectedPart_run (h : HiveId) : (inspectedPart.hv h).run = none := by
  simp [inspectedPart, idlePart, State.hv]

/-- The inspection of an idle row takes its target below the ceiling while no program runs that could ask for it. -/
theorem inspection_holds_target_below_ceiling : ∃ t, exec (.inspectionPeriodic 1 0) idlePart = .next t ∧
    t.target 1 = 0 ∧ t.ceilEff 1 = 3 ∧ ∀ h, (t.hv h).run = none :=
  ⟨inspectedPart, rfl, target_of_inspected rfl, by decide, inspectedPart_run⟩

end Sys2Proof.Machine

section

open Sys2Proof Sys2Proof.Machine

/-- Refutes O20: its clause that a row's target is the effective ceiling or a request in force leaves out the row under
inspection. A periodic inspection of an idle row whose ceiling is OVS3 holds the target at OVS0 (log entry 84), and no
program runs whose request that could be. -/
theorem not_railsFollowTheirTargets : ¬ Obligations.RailsFollowTheirTargets := by
  rintro ⟨htargets, -, -⟩
  obtain ⟨t, -, htarget, hceil, hidle⟩ := inspection_holds_target_below_ceiling
  obtain ⟨-, -, -, -, -, hfrom⟩ := htargets 1 t
  obtain hatCeil | ⟨h, p, hrun, -⟩ := hfrom
  · rw [htarget, hceil] at hatCeil
    exact absurd hatCeil (by decide)
  · rw [hidle h] at hrun
    exact absurd hrun (Option.some_ne_none p).symm

end

end

section
/-! The wax controller's shared operations (R157, R158, R162, R177): what each makes of the wax state, and what stands. -/

namespace Sys2Proof.Machine

-- events and results

theorem sameUnits_updWax (f : WaxSt → WaxSt) (s : State) : SameUnits s (updWax f s) := ⟨rfl, rfl, rfl, rfl⟩

theorem sameUnits_waxEvent (w : Word) (s : State) : SameUnits s (waxEvent w s) := by
  obtain ⟨honly, hhives⟩ := postEvent_says .wax w s
  exact sameUnits_trans (sameUnits_updWax (fun x => { x with evt := x.evt ||| w }) s) (sameUnits_of_onlyGlass honly hhives)

@[simp] theorem updWax_wax (f : WaxSt → WaxSt) (s : State) : (updWax f s).wax = f s.wax := rfl

@[simp] theorem waxEvent_wax (w : Word) (s : State) : (waxEvent w s).wax = { s.wax with evt := s.wax.evt ||| w } := by
  obtain ⟨-, -, -, -, -, -, -, hwax⟩ := onlyGlass_keeps (postEvent_says .wax w s).1
  exact hwax

-- the claim of the cipher engine (R373)

@[simp] theorem ceFollow_wax (s : State) : (ceFollow s).wax = s.wax := by
  unfold ceFollow
  split
  · rfl
  · split <;> rfl

@[simp] theorem ceFollow_key (s : State) : (ceFollow s).guard.key = s.guard.key := by
  unfold ceFollow
  split
  · rfl
  · split <;> rfl

theorem sameUnits_ceFollow (s : State) : SameUnits s (ceFollow s) := by
  unfold ceFollow
  split
  · exact ⟨rfl, rfl, rfl, rfl⟩
  · split <;> exact ⟨rfl, rfl, rfl, rfl⟩

theorem ceFollow_claims {s : State} (h : s.waxUsesCe = true) : ceFollow s = { s with guard := ceClaim s.guard } :=
  if_pos (by rw [h, Bool.or_true])

@[simp] theorem waxEnd_wax (err : Byte) (st : WaxState) (s : State) : (waxEnd err st s).wax = { s.wax with err := err, st := st } :=
  ceFollow_wax _

theorem sameUnits_waxEnd (err : Byte) (st : WaxState) (s : State) : SameUnits s (waxEnd err st s) :=
  sameUnits_trans (sameUnits_updWax _ s) (sameUnits_ceFollow _)

/-- A command that leads to a state of checks claims the cipher engine. -/
theorem waxEnd_checking (err : Byte) (s : State) : waxEnd err .checking s =
    { s with wax := { s.wax with err := err, st := .checking }, guard := ceClaim s.guard } :=
  ceFollow_claims rfl

/-- A COMMIT claims the cipher engine. -/
theorem waxEnd_committing (err : Byte) (s : State) : waxEnd err .committing s =
    { s with wax := { s.wax with err := err, st := .committing }, guard := ceClaim s.guard } :=
  ceFollow_claims rfl

-- reports of the checks (R158)

@[simp] theorem waxReport_none_wax (s : State) :
    (waxReport none s).wax = { s.wax with chkCode := 0, chkSection := 0, chkRecord := 0, chkOffs := 0 } := rfl

@[simp] theorem waxReport_some_wax (f : WaxFail) (s : State) : (waxReport (some f) s).wax = { s.wax with
    chkCode := f.1, chkSection := BitVec.ofNat 8 f.2.1, chkRecord := BitVec.ofNat 16 f.2.2.1, chkOffs := BitVec.ofNat 25 f.2.2.2
    evt := s.wax.evt ||| 1 } := waxEvent_wax 1 _

theorem sameUnits_waxReport (r : Option WaxFail) (s : State) : SameUnits s (waxReport r s) := by
  cases r with
  | none => exact ⟨rfl, rfl, rfl, rfl⟩
  | some f => exact sameUnits_trans (sameUnits_updWax _ s) (sameUnits_waxEvent 1 _)

@[simp] theorem checkFailed_wax (f : WaxFail) (s : State) : (checkFailed f s).wax = { (waxReport (some f) s).wax with
    hold := none, staged := none, err := 3, st := .idle } := waxEnd_wax 3 .idle _

theorem sameUnits_checkFailed (f : WaxFail) (s : State) : SameUnits s (checkFailed f s) :=
  sameUnits_trans (sameUnits_trans (sameUnits_waxReport _ s) (sameUnits_updWax _ _)) (sameUnits_waxEnd 3 .idle _)

@[simp] theorem enterStaged_wax (x : Staged) (s : State) : (enterStaged x s).wax =
    { s.wax with staged := some x, err := 0, st := .staged, evt := s.wax.evt ||| 2 } := by
  simp only [enterStaged, waxEvent_wax, waxEnd_wax, updWax_wax]

theorem sameUnits_enterStaged (x : Staged) (s : State) : SameUnits s (enterStaged x s) :=
  sameUnits_trans (sameUnits_trans (sameUnits_updWax _ s) (sameUnits_waxEnd 0 .staged _)) (sameUnits_waxEvent 2 _)

-- commands in a state that does not list them (R162, Table 8.2)

section
variable {s : State}

theorem exec_stage_busy (h : s.wax.st ≠ .idle) : exec .stage s = .next (waxBusy s) := if_pos (bne_iff_ne.2 h)

theorem exec_revert_busy (h : s.wax.st ≠ .idle) : exec .revert s = .next (waxBusy s) := if_pos (bne_iff_ne.2 h)

theorem exec_abort_busy (h : s.wax.st ≠ .staged) : exec .abort s = .next (waxBusy s) := if_pos (bne_iff_ne.2 h)

theorem exec_rollback_busy (h : s.wax.st ≠ .trial) : exec .rollback s = .next (waxBusy s) := if_pos (bne_iff_ne.2 h)

theorem exec_trial_busy (h : s.wax.st ≠ .staged) : exec .trial s = .next (waxBusy s) := by
  change execTrial s = _
  unfold execTrial
  split
  · contradiction
  · rfl

theorem exec_commit_busy (h : s.wax.st ≠ .trial) : exec .commit s = .next (waxBusy s) := by
  change execCommit s = _
  unfold execCommit
  split
  · contradiction
  · rfl

-- ABORT and REVERT (R175, R176)

theorem exec_abort (h : s.wax.st = .staged) : exec .abort s =
    .next (updWax (fun w => { w with err := 0, st := .idle, staged := none, hold := none }) s) := by
  change execAbort s = _
  simp only [execAbort, h, bne_self_eq_false, Bool.false_eq_true, if_false]

theorem exec_revert_no_prev (h : s.wax.st = .idle) (hp : (s.rec?.map (·.prevValid)).getD false = false) :
    exec .revert s = .next (updWax (fun w => { w with err := 5 }) s) := by
  change execRevert s = _
  simp only [execRevert, h, hp, bne_self_eq_false, Bool.false_eq_true, if_false]

theorem exec_revert_checks (h : s.wax.st = .idle) (hp : (s.rec?.map (·.prevValid)).getD false = true) :
    exec .revert s = .next (waxEnd 0 .checking (updWax (fun w => { w with chkRevert := true }) s)) := by
  change execRevert s = _
  simp only [execRevert, h, hp, bne_self_eq_false, Bool.false_eq_true, if_false, if_true]

theorem exec_waxStageCheckDone (h : s.wax.st = .checking) : exec .waxStageCheckDone s =
    .next (if s.wax.chkRevert then revertChecked s else stageChecked s) := by
  change execWaxStageCheckDone s = _
  simp only [execWaxStageCheckDone, h, bne_self_eq_false, Bool.false_eq_true, if_false]

/-- What REVERT stages: the previous image of a record, in its slot. -/
def CommitRec.revertStaged (r : CommitRec) (bs : List Byte) : Staged :=
  { partialImg := false, pid := 0, img := { parseWax bs with signed := r.prevSigned }, bytes := bs, slotB := !r.curB, revert := true }

theorem revertChecked_passes {r : CommitRec} (hr : s.rec? = some r)
    (hc : slotCheck s (s.wax.slot (!r.curB)) r.prevLen r.prevHash r.prevSigned = none) :
    revertChecked s = enterStaged (r.revertStaged (s.wax.slot (!r.curB))) (waxReport none s) := by
  simp only [revertChecked, hr, hc, CommitRec.revertStaged]

end

end Sys2Proof.Machine

section

open Sys2Proof Sys2Proof.Machine

/-- Settles O21: outside the states of Table 8.2 a command comes to `waxBusy`, and in them ABORT, REVERT and the end of the
checks of REVERT are one update of the wax state each. -/
theorem waxCommandsKeepToTheirStates : Obligations.WaxCommandsKeepToTheirStates := by
  refine ⟨fun s => ⟨fun h => ⟨exec_stage_busy h, exec_revert_busy h⟩, fun h => ⟨exec_trial_busy h, exec_abort_busy h⟩,
    fun h => ⟨exec_commit_busy h, exec_rollback_busy h⟩⟩, fun s => ⟨exec_abort, exec_revert_no_prev, ?_, ?_⟩⟩
  case refine_1 =>
    intro hst hprev
    rw [exec_revert_checks hst hprev, waxEnd_checking]
    rfl
  case refine_2 =>
    intro r hst hrev hrec hcheck
    have hunits := sameUnits_trans (sameUnits_waxReport none s) (sameUnits_enterStaged (r.revertStaged (s.wax.slot (!r.curB))) _)
    refine ⟨enterStaged (r.revertStaged (s.wax.slot (!r.curB))) (waxReport none s), r.revertStaged (s.wax.slot (!r.curB)), ?_⟩
    rw [exec_waxStageCheckDone hst, if_pos hrev, revertChecked_passes hrec hcheck, enterStaged_wax, waxReport_none_wax]
    exact ⟨rfl, rfl, rfl, rfl, rfl, rfl, rfl, hunits.hives, hunits.jobs⟩

end

end

section
/-! STAGE (R163 to R165): its checks of the held source, the copy to the staging slot and the commit record that it invalidates. -/

namespace Sys2Proof.Machine

-- commit records (R160, R161)

/-- The sector that a commit record takes: Y while X holds the one in force, else X (R161). -/
def WaxSt.putRec (inForce : Option Bool) (r : CommitRec) (w : WaxSt) : WaxSt :=
  if inForce = some false then { w with secY := some r } else { w with secX := some r }

theorem putRec_sectors (inForce : Option Bool) (r : CommitRec) (w : WaxSt) :
    if inForce = some false then (w.putRec inForce r).secY = some r ∧ (w.putRec inForce r).secX = w.secX
    else (w.putRec inForce r).secX = some r ∧ (w.putRec inForce r).secY = w.secY := by
  unfold WaxSt.putRec
  split
  · exact ⟨rfl, rfl⟩
  · exact ⟨rfl, rfl⟩

/-- A commit record moves the two sectors only. -/
theorem putRec_frame (inForce : Option Bool) (r : CommitRec) (w : WaxSt) :
    w.putRec inForce r = { w with secX := (w.putRec inForce r).secX, secY := (w.putRec inForce r).secY } := by
  unfold WaxSt.putRec
  split <;> rfl

@[simp] theorem putRec_evt (inForce : Option Bool) (r : CommitRec) (w : WaxSt) : (w.putRec inForce r).evt = w.evt := by
  rw [putRec_frame]

@[simp] theorem putRec_img (inForce : Option Bool) (r : CommitRec) (w : WaxSt) : (w.putRec inForce r).img = w.img := by
  rw [putRec_frame]

/-- A record as it is written: complete, with the generation after that in force (R161). -/
def State.nextRec (s : State) (r : CommitRec) : CommitRec := { r with gen := (s.rec?.map (·.gen)).getD 0 + 1, complete := true }

/-- A record goes to its sector as `nextRec` makes it; only its CMAC rests on the key. -/
theorem putCommit_says (q : CommitRec) (s : State) :
    ∃ r mac, r = { s.nextRec q with cmac := mac } ∧ putCommit q s = updWax (WaxSt.putRec s.recY r) s := by
  have hput : ∀ r : CommitRec, (if s.recY == some false then updWax (fun w => { w with secY := some r }) s
      else updWax (fun w => { w with secX := some r }) s) = updWax (WaxSt.putRec s.recY r) s := by
    intro r
    by_cases hy : s.recY = some false <;> simp only [updWax, WaxSt.putRec, hy, beq_iff_eq, if_true, if_false]
  cases hkey : s.guard.key with
  | none =>
    refine ⟨_, 0, rfl, Eq.trans ?_ (hput _)⟩
    simp only [putCommit, hkey, State.nextRec]
  | some d =>
    refine ⟨_, commitMac d (s.nextRec q).body, rfl, Eq.trans ?_ (hput _)⟩
    simp only [putCommit, hkey, State.nextRec, CommitRec.sign]

/-- The record in force rests on the key and the sectors. -/
theorem rec?_congr {s t : State} (hk : t.guard.key = s.guard.key) (hx : t.wax.secX = s.wax.secX) (hy : t.wax.secY = s.wax.secY) :
    t.rec? = s.rec? := by
  simp only [State.rec?, State.recY, hk, hx, hy]

theorem stagingB_congr {s t : State} (h : t.rec? = s.rec?) : t.stagingB = s.stagingB := by
  simp only [State.stagingB, h]

theorem invalidate_says (s : State) : ∃ x y, invalidate s = updWax (fun w => { w with secX := x, secY := y }) s := by
  unfold invalidate
  split
  · exact ⟨s.wax.secX, s.wax.secY, rfl⟩
  · next r _ =>
    obtain ⟨_, -, -, heq⟩ := putCommit_says { r with
      prevValid := false, prevSigned := false, prevVer := 0, prevLen := 0, prevHash := List.replicate 48 0 } s
    exact ⟨_, _, heq.trans (congrArg (fun w => ({ s with wax := w } : State)) (putRec_frame _ _ _))⟩

-- slots

theorem putSlot_same (b : Bool) (bs : List Byte) (w : WaxSt) : (putSlot b bs w).slot b = bs := by
  cases b <;> rfl

theorem putSlot_other (b : Bool) (bs : List Byte) (w : WaxSt) : (putSlot b bs w).slot (!b) = w.slot (!b) := by
  cases b <;> rfl

@[simp] theorem putSlot_img (b : Bool) (bs : List Byte) (w : WaxSt) : (putSlot b bs w).img = w.img := by
  cases b <;> rfl

/-- A write of a slot moves the bytes of the two slots only. -/
theorem putSlot_frame (b : Bool) (bs : List Byte) (w : WaxSt) :
    putSlot b bs w = { w with slotA := (putSlot b bs w).slotA, slotB := (putSlot b bs w).slotB } := by
  cases b <;> rfl

-- uncorrectable words that the reads meet (R236)

theorem noteUe_says (ws : List Nat) (s : State) :
    ∃ sup, OnlyGlass { s with sup := sup } (noteUe ws s) ∧ (noteUe ws s).hives = s.hives := by
  cases ws with
  | nil => exact ⟨s.sup, rfl, rfl⟩
  | cons w r => exact ⟨_, postEvent_says .sup 1 _⟩

theorem sameUnits_noteUe (ws : List Nat) (s : State) : SameUnits s (noteUe ws s) := by
  obtain ⟨sup, honly, hhives⟩ := noteUe_says ws s
  exact sameUnits_trans (t := { s with sup := sup }) ⟨rfl, rfl, rfl, rfl⟩ (sameUnits_of_onlyGlass honly hhives)

@[simp] theorem noteUe_wax (ws : List Nat) (s : State) : (noteUe ws s).wax = s.wax := by
  obtain ⟨sup, honly, -⟩ := noteUe_says ws s
  obtain ⟨-, -, -, -, -, -, -, hwax⟩ := onlyGlass_keeps honly
  exact hwax

@[simp] theorem noteUe_guard (ws : List Nat) (s : State) : (noteUe ws s).guard = s.guard := by
  obtain ⟨sup, honly, -⟩ := noteUe_says ws s
  obtain ⟨-, -, -, -, hguard, -, -, -⟩ := onlyGlass_keeps honly
  exact hguard

/-- What the checks compare with does not move with the uncorrectable words. -/
theorem noteUe_ckEnv (ws : List Nat) (s : State) (b : Bool) : (noteUe ws s).ckEnv b = s.ckEnv b := by
  simp only [State.ckEnv, State.curImg, State.hv, noteUe_wax, noteUe_guard, (sameUnits_noteUe ws s).hives]

-- the command STAGE (R163)

/-- The supers address that WAX_SRC names. -/
def State.srcAddr (s : State) : Nat := s.wax.src.toNat % 2 ^ 35

theorem exec_stage_align {s : State} (h : s.wax.st = .idle) (ha : s.srcAddr % 4096 ≠ 0) :
    exec .stage s = .next (updWax (fun w => { w with err := 2 }) s) := by
  have hbad : (s.srcAddr % 4096 != 0) = true := bne_iff_ne.2 ha
  change execStage s = _
  simp only [State.srcAddr] at hbad
  simp only [execStage, h, hbad, bne_self_eq_false, Bool.false_eq_true, if_false, Bool.true_or, if_true]

theorem exec_stage_checks {s : State} (h : s.wax.st = .idle) (ha : s.srcAddr % 4096 = 0)
    (hfit : s.srcAddr + max 16 (memReadLE s.sup.mem (s.srcAddr + 12) 4) ≤ 2 ^ 35) : exec .stage s =
      .next (waxEnd 0 .checking (updWax (fun w => { w with chkRevert := false, hold := some (s.srcAddr, s.srcLen s.srcAddr) }) s)) := by
  have hheader : ¬2 ^ 35 < s.srcAddr + 16 := Nat.not_lt.2 (Nat.le_trans (Nat.add_le_add_left (Nat.le_max_left _ _) _) hfit)
  have himage : ¬2 ^ 35 < s.srcAddr + memReadLE s.sup.mem (s.srcAddr + 12) 4 :=
    Nat.not_lt.2 (Nat.le_trans (Nat.add_le_add_left (Nat.le_max_right _ _) _) hfit)
  change execStage s = _
  simp only [State.srcAddr] at ha hheader himage
  simp only [execStage, State.srcAddr, h, ha, hheader, himage, bne_self_eq_false, Bool.false_eq_true, if_false, decide_false, Bool.or_self]

-- the end of the checks (R164, R165)

/-- The partial image that STAGE has checked. -/
def stagedPartial (bs : List Byte) : Staged :=
  { partialImg := true, pid := u8 bs 20, img := parseWax bs, bytes := bs, slotB := false, revert := false }

/-- The full image that STAGE has checked, for a slot. -/
def stagedFull (bs : List Byte) (slotB : Bool) : Staged :=
  { partialImg := false, pid := 0, img := parseWax bs, bytes := bs, slotB := slotB, revert := false }

section
variable {s : State} {a n : Nat} (hhold : s.wax.hold = some (a, n))
include hhold

theorem stageChecked_fails {f : WaxFail} (hc : checkWax (s.ckEnv false) (memReadN s.sup.mem a n) = some f) :
    stageChecked s = checkFailed f (noteUe (s.ueIn a n) s) := by
  simp only [stageChecked, hhold, noteUe_ckEnv, hc]

variable (hc : checkWax (s.ckEnv false) (memReadN s.sup.mem a n) = none)
include hc

theorem stageChecked_partial (hp : (uN (memReadN s.sup.mem a n) 6 2).testBit 0 = true) :
    stageChecked s = enterStaged (stagedPartial (memReadN s.sup.mem a n)) (waxReport none (noteUe (s.ueIn a n) s)) := by
  simp only [stageChecked, hhold, noteUe_ckEnv, hc, hp, if_true, stagedPartial]

/-- A full image that passes is written to the staging slot, whose contents are lost first (R165). -/
theorem stageChecked_full (hp : (uN (memReadN s.sup.mem a n) 6 2).testBit 0 = false) :
    stageChecked s = ceFollow (updWax (fun w => { putSlot s.stagingB [] w with
      st := .writing, staged := some (stagedFull (memReadN s.sup.mem a n) s.stagingB) })
      (invalidate (waxReport none (noteUe (s.ueIn a n) s)))) := by
  have hslot : (waxReport none (noteUe (s.ueIn a n) s)).stagingB = s.stagingB :=
    stagingB_congr (rec?_congr (congrArg GuardSt.key (noteUe_guard _ s)) (by rw [waxReport_none_wax, noteUe_wax])
      (by rw [waxReport_none_wax, noteUe_wax]))
  simp only [stageChecked, hhold, noteUe_ckEnv, hc, hp, Bool.false_eq_true, if_false, hslot, stagedFull]

theorem stageChecked_full_says (hp : (uN (memReadN s.sup.mem a n) 6 2).testBit 0 = false) :
    ∃ x y, (stageChecked s).wax = { putSlot s.stagingB [] s.wax with
        secX := x, secY := y, chkCode := 0, chkSection := 0, chkRecord := 0, chkOffs := 0
        st := .writing, staged := some (stagedFull (memReadN s.sup.mem a n) s.stagingB) } ∧
      SameUnits s (stageChecked s) := by
  obtain ⟨x, y, hinv⟩ := invalidate_says (waxReport none (noteUe (s.ueIn a n) s))
  have hpassed : SameUnits s (waxReport none (noteUe (s.ueIn a n) s)) :=
    sameUnits_trans (sameUnits_noteUe _ s) (sameUnits_waxReport none _)
  rw [stageChecked_full hhold hc hp, hinv]
  refine ⟨x, y, ?_, sameUnits_trans hpassed (sameUnits_trans (sameUnits_updWax _ _)
    (sameUnits_trans (sameUnits_updWax _ _) (sameUnits_ceFollow _)))⟩
  rw [ceFollow_wax, updWax_wax, updWax_wax, waxReport_none_wax, noteUe_wax]
  cases s.stagingB <;> rfl

end

-- the end of the copy (R165)

section
variable {s : State} {x : Staged} (hst : s.wax.st = .writing) (hx : s.wax.staged = some x)
include hst hx

theorem exec_waxStageCopyDone_ok : exec (.waxStageCopyDone true) s =
    .next (enterStaged x (updWax (putSlot x.slotB x.bytes) (updWax (fun w => { w with hold := none }) s))) := by
  change execWaxStageCopyDone true s = _
  simp only [execWaxStageCopyDone, hst, hx, bne_self_eq_false, Bool.false_eq_true, if_false, if_true]

theorem exec_waxStageCopyDone_flashErr : exec (.waxStageCopyDone false) s =
    .next (waxEvent 128 (waxEnd 7 .idle (updWax (fun w => { w with staged := none }) (updWax (fun w => { w with hold := none }) s)))) := by
  change execWaxStageCopyDone false s = _
  simp only [execWaxStageCopyDone, hst, hx, bne_self_eq_false, Bool.false_eq_true, if_false]

end

end Sys2Proof.Machine

section

open Sys2Proof Sys2Proof.Machine

/-- Settles O22, by the outcomes of the checks (`stageChecked_fails`, `stageChecked_partial`, `stageChecked_full`) and of the
copy. -/
theorem stageChecksAndCopies : Obligations.StageChecksAndCopies := by
  intro s
  have hnoted (a n : Nat) : SameUnits s (noteUe (s.ueIn a n) s) := sameUnits_noteUe _ s
  have hpassed (a n : Nat) : SameUnits s (waxReport none (noteUe (s.ueIn a n) s)) :=
    sameUnits_trans (hnoted a n) (sameUnits_waxReport none _)
  have hdone (hst : s.wax.st = .checking) (hrev : s.wax.chkRevert = false) :
      exec .waxStageCheckDone s = .next (stageChecked s) := by
    rw [exec_waxStageCheckDone hst, hrev]
    rfl
  refine ⟨?checks, exec_stage_align, ?fails, ?partialPasses, ?fullPasses, ?copy⟩
  case checks =>
    intro hst halign hfit
    rw [exec_stage_checks hst halign hfit, waxEnd_checking]
    rfl
  case fails =>
    intro a n f hst hrev hhold hcheck
    have hunits := sameUnits_trans (hnoted a n) (sameUnits_checkFailed f _)
    refine ⟨checkFailed f (noteUe (s.ueIn a n) s), ?_⟩
    rw [hdone hst hrev, stageChecked_fails hhold hcheck, checkFailed_wax, waxReport_some_wax, noteUe_wax]
    exact ⟨rfl, rfl, rfl, rfl, rfl, rfl, rfl, rfl, rfl, hunits.hives, hunits.jobs⟩
  case partialPasses =>
    intro a n hst hrev hhold hcheck hpartial
    have hunits := sameUnits_trans (hpassed a n) (sameUnits_enterStaged (stagedPartial (memReadN s.sup.mem a n)) _)
    refine ⟨enterStaged (stagedPartial (memReadN s.sup.mem a n)) (waxReport none (noteUe (s.ueIn a n) s)), ?_⟩
    rw [hdone hst hrev, stageChecked_partial hhold hcheck hpartial, enterStaged_wax, waxReport_none_wax, noteUe_wax]
    exact ⟨rfl, rfl, rfl, hhold, rfl, rfl, rfl, hunits.hives, hunits.jobs⟩
  case fullPasses =>
    intro a n hst hrev hhold hcheck hfull
    obtain ⟨x, y, hwax, hunits⟩ := stageChecked_full_says hhold hcheck hfull
    refine ⟨stageChecked s, stagedFull (memReadN s.sup.mem a n) s.stagingB, hdone hst hrev, ?_⟩
    rw [hwax]
    exact ⟨rfl, rfl, rfl, rfl, putSlot_other _ _ _, putSlot_img s.stagingB [] s.wax, hunits.hives, hunits.jobs⟩
  case copy =>
    intro x hst hx
    refine ⟨⟨_, exec_waxStageCopyDone_ok hst hx, ?_⟩, ⟨_, exec_waxStageCopyDone_flashErr hst hx, ?_⟩⟩
    · have hunits := sameUnits_enterStaged x (updWax (putSlot x.slotB x.bytes) (updWax (fun w => { w with hold := none }) s))
      rw [enterStaged_wax, updWax_wax, putSlot_frame]
      exact ⟨rfl, rfl, rfl, putSlot_same _ _ _, putSlot_other _ _ _, rfl, rfl, hunits.hives, hunits.jobs⟩
    · have hunits := sameUnits_trans (sameUnits_waxEnd 7 .idle
        (updWax (fun w => { w with staged := none }) (updWax (fun w => { w with hold := none }) s))) (sameUnits_waxEvent 128 _)
      rw [waxEvent_wax, waxEnd_wax]
      exact ⟨rfl, rfl, rfl, rfl, rfl, hunits.hives, hunits.jobs⟩

end

end

section
/-! What an apply moves beside the wax state: the seals that end (R388), the banks that it enables (R115), rails and HALT bits as
an image takes force (R128, R178). -/

namespace Sys2Proof.Machine

-- the copies and releases of a colony whose sealing ends

/-- The wax state and the Guard stand. -/
structure SameWaxGuard (s t : State) : Prop where
  wax : t.wax = s.wax
  guard : t.guard = s.guard

theorem sameWaxGuard_refl (s : State) : SameWaxGuard s s := ⟨rfl, rfl⟩

theorem sameWaxGuard_trans {s t u : State} (h : SameWaxGuard s t) (k : SameWaxGuard t u) : SameWaxGuard s u :=
  ⟨k.wax.trans h.wax, k.guard.trans h.guard⟩

theorem sameWaxGuard_copyIn (h : HiveId) (dst src n : Nat) (s : State) : SameWaxGuard s (copyIn h dst src n s) :=
  ⟨noteUe_wax _ _, noteUe_guard _ _⟩

theorem sameWaxGuard_copyModel (m : Model) (home h : HiveId) (s : State) : SameWaxGuard s (copyModel m home h s) := by
  have hfold : ∀ (l : List MdlEnt) (f : State → MdlEnt → Nat × Nat × Nat) (u : State),
      SameWaxGuard u (l.foldl (fun t e => copyIn h (f t e).1 (f t e).2.1 (f t e).2.2 t) u) := by
    intro l f
    induction l with
    | nil => exact sameWaxGuard_refl
    | cons e r ih => exact fun u => sameWaxGuard_trans (sameWaxGuard_copyIn h _ _ _ u) (ih _)
  unfold copyModel
  split
  · exact sameWaxGuard_refl s
  · refine sameWaxGuard_trans ?_ (hfold _ (fun t e =>
      (s.winBase m.part.val + e.csOff, t.caAddr (t.wax.img.colonyOf m.part.val) + e.src, e.len)) _)
    split
    · exact sameWaxGuard_copyIn h _ _ _ s
    · exact sameWaxGuard_refl s

theorem sameWaxGuard_reloadHive (h : HiveId) (s : State) : SameWaxGuard s (reloadHive h s) := by
  unfold reloadHive loadRanges
  split
  · exact sameWaxGuard_refl s
  · split
    · exact sameWaxGuard_refl s
    · exact sameWaxGuard_copyModel _ h h s

theorem sameWaxGuard_scrubAll (l : List HiveId) (s : State) : SameWaxGuard s (scrubAll l s) := by
  induction l generalizing s with
  | nil => exact sameWaxGuard_refl s
  | cons h r ih => exact 
    sameWaxGuard_trans (sameWaxGuard_trans (t := scrubHive h s) ⟨rfl, rfl⟩ (sameWaxGuard_reloadHive h _)) (ih _)

theorem sameWaxGuard_unclaimAll (l : List HiveId) (s : State) : SameWaxGuard s (unclaimAll l s) := by
  have hone (h : HiveId) (u : State) : SameWaxGuard u (unclaim h u) := by
    unfold unclaim
    dsimp only
    split <;> exact ⟨rfl, rfl⟩
  induction l generalizing s with
  | nil => exact sameWaxGuard_refl s
  | cons h r ih => exact sameWaxGuard_trans (hone h s) (ih _)

/-- The end of a sealing moves no wax state, and of the seal bits the colony's alone. -/
theorem unsealColony_says (c : ColId) (s : State) : (unsealColony c s).wax = s.wax ∧
    (unsealColony c s).guard.seals = s.guard.seals &&& ~~~(BitVec.ofNat 64 (2 ^ c.val)) := by
  have hsame := sameWaxGuard_trans (sameWaxGuard_scrubAll (s.hivesOwned c.val) (dropSeal c s))
    (sameWaxGuard_unclaimAll (s.hivesOwned c.val) _)
  obtain ⟨-, -, -, -, hguard, -, -, hwax⟩ := onlyGlass_keeps (postEvent_says .seal 8
    (unclaimAll (s.hivesOwned c.val) (scrubAll (s.hivesOwned c.val) (dropSeal c s)))).1
  exact ⟨hwax.trans hsame.wax, (congrArg GuardSt.seals hguard).trans (congrArg GuardSt.seals hsame.guard)⟩

theorem unsealColony_isSealed (c d : ColId) (s : State) :
    (unsealColony c s).isSealed d = (s.isSealed d && decide (d ≠ c)) := by
  obtain ⟨-, hseals⟩ := unsealColony_says c s
  simp only [State.isSealed, hseals, BitVec.getLsbD_and, BitVec.getLsbD_not, BitVec.getLsbD_ofNat, d.isLt, decide_true,
    Bool.true_and, Nat.testBit_two_pow, ne_eq, Fin.ext_iff, decide_not, eq_comm (a := d.val)]

theorem unsealAll_wax (l : List ColId) (s : State) : (unsealAll l s).wax = s.wax := by
  induction l generalizing s with
  | nil => rfl
  | cons c r ih =>
    rw [unsealAll, ih]
    split
    · exact (unsealColony_says c s).1
    · rfl

/-- After it only colonies beside the list are sealed, and they were so before. -/
theorem unsealAll_isSealed (l : List ColId) (d : ColId) (s : State) :
    (unsealAll l s).isSealed d = (s.isSealed d && decide (d ∉ l)) := by
  induction l generalizing s with
  | nil => simp [unsealAll]
  | cons c r ih =>
    rw [unsealAll, ih]
    by_cases hc : s.isSealed c = true
    · simp [hc, unsealColony_isSealed, Bool.and_assoc]
    · by_cases hdc : d = c
      · subst hdc
        simp [hc]
      · simp [hc, hdc]

theorem unsealChanged_wax (s : State) : (unsealChanged s).wax = s.wax := unsealAll_wax _ s

/-- A colony whose partition changes is no longer sealed (R388). -/
theorem unsealChanged_isSealed {c : ColId} {s : State} (hc : c.val ∈ s.wax.changed) : (unsealChanged s).isSealed c = false := by
  have hmem : c ∈ s.wax.changed.filterMap colOf? := List.mem_filterMap.2 ⟨c.val, hc, dif_pos c.isLt⟩
  simp [unsealChanged, unsealAll_isSealed, hmem]

-- banks that an image uses (R115)

/-- Only the extractor moved. -/
def OnlyBanks (s t : State) : Prop := t = { s with phx := t.phx }

theorem onlyBanks_trans {s t u : State} (h : OnlyBanks s t) (k : OnlyBanks t u) : OnlyBanks s u := by
  rw [OnlyBanks] at *
  rw [h] at k
  exact k

/-- A start of a calibration moves one bank, whose EN stands. -/
theorem startCal_says (b : BankId) (s : State) : OnlyBanks s (startCal b s) ∧
    ∀ c : BankId, ((startCal b s).phx.bank[c]).en = (s.phx.bank[c]).en := by
  have hupd : ∀ f : Bank → Bank, (∀ x, (f x).en = x.en) → ∀ c : BankId, ((updBank b f s).phx.bank[c]).en = (s.phx.bank[c]).en := by
    intro f hf c
    by_cases hc : c = b
    · subst hc
      rw [updBank_bank_same, hf]
    · rw [updBank_bank_other b c f s hc]
  unfold startCal
  split
  · exact ⟨rfl, fun _ => rfl⟩
  · split
    · exact ⟨rfl, hupd _ fun _ => rfl⟩
    · exact ⟨rfl, hupd _ fun _ => rfl⟩

theorem enableBanks_only (l : List BankId) (s : State) : OnlyBanks s (enableBanks l s) := by
  induction l generalizing s with
  | nil => rfl
  | cons b r ih =>
    refine onlyBanks_trans ?_ (ih _)
    split
    · rfl
    · exact onlyBanks_trans (t := updBank b (fun x => { x with en := true }) s) rfl (startCal_says b _).1

/-- Every bank of the list is enabled, and one that was stays so. -/
theorem enableBanks_en (l : List BankId) (s : State) (c : BankId) :
    ((enableBanks l s).phx.bank[c]).en = ((s.phx.bank[c]).en || decide (c ∈ l)) := by
  induction l generalizing s with
  | nil => simp [enableBanks]
  | cons b r ih =>
    rw [enableBanks, ih]
    split
    · next hen =>
      by_cases hc : c = b
      · subst hc
        simp only [hen, List.mem_cons, true_or, decide_true, Bool.true_or, Bool.or_true]
      · simp [hc]
    · rw [(startCal_says b _).2 c]
      by_cases hc : c = b
      · subst hc
        simp only [updBank_bank_same, List.mem_cons, true_or, decide_true, Bool.true_or, Bool.or_true]
      · simp [updBank_bank_other b c _ s hc, hc]

theorem enableBanks_wax (l : List BankId) (s : State) : (enableBanks l s).wax = s.wax := by
  rw [enableBanks_only l s]

theorem enableBanks_isSealed (l : List BankId) (c : ColId) (s : State) : (enableBanks l s).isSealed c = s.isSealed c := by
  rw [enableBanks_only l s]
  rfl

-- an image takes force (R128, R178)

theorem raiseRails_only (l : List RowId) (s : State) : raiseRails l s = { s with ovs := (raiseRails l s).ovs } := by
  induction l generalizing s with
  | nil => rfl
  | cons r t ih =>
    have hone : raiseRail r false s = { s with ovs := (raiseRail r false s).ovs } := by
      unfold raiseRail
      split <;> rfl
    have hrest := ih (raiseRail r false s)
    rw [hone] at hrest
    rw [raiseRails, hone]
    exact hrest

theorem clearHalts_only (l : List HiveId) (s : State) : clearHalts l s = { s with hives := (clearHalts l s).hives } := by
  induction l generalizing s with
  | nil => rfl
  | cons h r ih =>
    rw [clearHalts]
    split
    · exact ih _
    · exact ih s

theorem install_says (img : WaxImg) (pver : List (Nat × Word)) (slotB none_ : Bool) (s : State) :
    (install img pver slotB none_ s).wax = { s.wax with img := img, pver := pver, forceB := slotB, none_ := none_ } ∧
    (install img pver slotB none_ s).jobs = s.jobs := by
  unfold install
  rw [clearHalts_only, raiseRails_only]
  exact ⟨rfl, rfl⟩

-- lent hives that a change of partition 0x40 reclaims (R471)

theorem reclaimFor_of_not {l : List Nat} (h : l.contains 0x40 = false) (s : State) : reclaimFor l s = s := by
  rw [reclaimFor, h]
  rfl

theorem reclaimLent_only (l : List HiveId) (s : State) : reclaimLent l s = { s with hives := (reclaimLent l s).hives } := by
  induction l generalizing s with
  | nil => rfl
  | cons h r ih =>
    have hask : askStop h .reclaim s = { s with hives := (askStop h .reclaim s).hives } := by
      unfold askStop
      split <;> rfl
    rw [reclaimLent]
    split
    · split
      · have hrest := ih (askStop h .reclaim s)
        rw [hask] at hrest ⊢
        exact hrest
      · exact ih s
    · exact ih s

theorem reclaimFor_only (l : List Nat) (s : State) : reclaimFor l s = { s with hives := (reclaimFor l s).hives } := by
  unfold reclaimFor
  split
  · exact reclaimLent_only _ s
  · rfl

end Sys2Proof.Machine

end

section
/-! The start of a trial (R166 to R169): the drain, the apply and its end. -/

namespace Sys2Proof.Machine

-- the commands and events of a trial

section
variable {s : State} {x : Staged} (hx : s.wax.staged = some x)
include hx

/-- The wax state as a trial of an image begins to drain (R166, R167). -/
def WaxSt.drains (changed : List Nat) (w : WaxSt) : WaxSt :=
  { w with
    err := 0, st := .draining, hold := none, drainFor := some .trial, changed := changed
    wdog := some (if w.wdogMs = 0 then 1 else w.wdogMs) }

theorem exec_trial_drains (hst : s.wax.st = .staged) (hc : ckApply (s.ckEnv false) x.bytes = none) :
    exec .trial s = .next (reclaimFor (s.changedBy x) (updWax (WaxSt.drains (s.changedBy x)) (waxReport none s))) := by
  change execTrial s = _
  simp only [execTrial, hst, hx, hc]
  rfl

theorem exec_trial_refused {f : WaxFail} (hst : s.wax.st = .staged) (hc : ckApply (s.ckEnv false) x.bytes = some f) :
    exec .trial s = .next (updWax (fun w => { w with err := 3 }) (waxReport (some f) s)) := by
  change execTrial s = _
  simp only [execTrial, hst, hx, hc]

theorem exec_waxApply_waits (hst : s.wax.st = .draining) (hd : s.drained = false) : exec .waxApply s = .next s := by
  change execWaxApply s = _
  simp only [execWaxApply, hst, hx, hd, Bool.not_false, if_true]

/-- The wax state as the drained image is applied. -/
def WaxSt.applies (w : WaxSt) : WaxSt := { w with st := .applying, drainFor := none }

theorem exec_waxApply_applies (hst : s.wax.st = .draining) (hd : s.drained = true) (hc : ckApply (s.ckEnv false) x.bytes = none) :
    exec .waxApply s = .next (enableBanks (banksOf (s.stagedImg x)) (unsealChanged (updWax WaxSt.applies s))) := by
  change execWaxApply s = _
  simp only [execWaxApply, hst, hx, hd, hc, Bool.not_true, Bool.false_eq_true, if_false]
  rfl

/-- The wax state as a trial is abandoned before its image is applied. -/
def WaxSt.abandons (w : WaxSt) : WaxSt := { w with drainFor := none, changed := [], wdog := none }

theorem exec_waxApply_refused {f : WaxFail} (hst : s.wax.st = .draining) (hd : s.drained = true)
    (hc : ckApply (s.ckEnv false) x.bytes = some f) :
    exec .waxApply s = .next (waxEnd 3 .staged (updWax WaxSt.abandons (waxReport (some f) s))) := by
  change execWaxApply s = _
  simp only [execWaxApply, hst, hx, hd, hc, Bool.not_true, Bool.false_eq_true, if_false]
  rfl

/-- A bank that the image brings into use is not LOCKED yet (R115). -/
def State.locksAwaited (s : State) (x : Staged) : Prop :=
  ∃ b, b ∈ banksOf (s.stagedImg x) ∧ b ∉ banksOf s.curImg ∧ (s.phx.bank[b]).st ≠ .locked

omit hx in
theorem locksAwaited_iff : (((banksOf (s.stagedImg x)).filter fun b => !(banksOf s.curImg).contains b).any
    fun b => (s.phx.bank[b]).st != .locked) = true ↔ s.locksAwaited x := by
  simp only [State.locksAwaited, List.any_eq_true, List.mem_filter, Bool.not_eq_true', List.contains_eq_mem, decide_eq_false_iff_not,
    bne_iff_ne, ne_eq, and_assoc]

theorem exec_waxApplyDone_waits (hst : s.wax.st = .applying) (hl : s.locksAwaited x) : exec .waxApplyDone s = .next s := by
  change execWaxApplyDone s = _
  simp only [execWaxApplyDone, hst, hx]
  exact if_pos (locksAwaited_iff.2 hl)

/-- The state that a trial begins with: the staged image in force, and what it replaced kept (R169, R170). -/
def inTrial (x : Staged) (s : State) : State :=
  waxEvent 4 (waxEnd 0 .trial (install (s.stagedImg x) (newVers s.wax.pver (s.stagedImg x) s.wax.changed)
    (if x.partialImg then s.wax.forceB else x.slotB) false
    (updWax (fun w => { w with before := some (s.wax.img, s.wax.pver, s.wax.forceB, s.wax.none_) }) s)))

theorem exec_waxApplyDone_trial (hst : s.wax.st = .applying) (hl : ¬s.locksAwaited x) :
    exec .waxApplyDone s = .next (inTrial x s) := by
  change execWaxApplyDone s = _
  simp only [execWaxApplyDone, hst, hx]
  exact if_neg (mt locksAwaited_iff.1 hl)

omit hx in
theorem inTrial_says : (inTrial x s).jobs = s.jobs ∧ (inTrial x s).wax = { s.wax with
    before := some (s.wax.img, s.wax.pver, s.wax.forceB, s.wax.none_), img := s.stagedImg x
    pver := newVers s.wax.pver (s.stagedImg x) s.wax.changed, forceB := if x.partialImg then s.wax.forceB else x.slotB
    none_ := false, err := 0, st := .trial, evt := s.wax.evt ||| 4 } := by
  unfold inTrial
  refine ⟨?_, ?_⟩
  · rw [(sameUnits_waxEvent 4 _).jobs, (sameUnits_waxEnd 0 .trial _).jobs, (install_says _ _ _ _ _).2]
    rfl
  · rw [waxEvent_wax, waxEnd_wax, (install_says _ _ _ _ _).1]
    rfl

end

theorem exec_waxDrainTimeout_trial {s : State} (hst : s.wax.st = .draining) (hd : s.wax.drainFor = some .trial)
    (hms : s.wax.drainMs ≠ 0) : exec .waxDrainTimeout s = .next (waxEvent 64 (waxEnd 4 .staged (updWax WaxSt.abandons s))) := by
  change execWaxDrainTimeout s = _
  simp only [execWaxDrainTimeout, hst, hd, if_neg hms]
  rfl

-- the statement's clauses on a trial

section
variable {s : State} {x : Staged} (hx : s.wax.staged = some x)
include hx

theorem trial_drains (hst : s.wax.st = .staged) (hc : ckApply (s.ckEnv false) x.bytes = none)
    (hx40 : (s.changedBy x).contains 0x40 = false) : ∃ t, exec .trial s = .next t ∧ t = { s with wax := t.wax } ∧
      t.wax.st = .draining ∧ t.wax.err = 0 ∧ t.wax.hold = none ∧ t.wax.changed = s.changedBy x ∧
      t.wax.wdog = some (if s.wax.wdogMs = 0 then 1 else s.wax.wdogMs) ∧ t.wax.img = s.wax.img := by
  refine ⟨_, exec_trial_drains hx hst hc, ?_⟩
  rw [reclaimFor_of_not hx40]
  exact ⟨rfl, rfl, rfl, rfl, rfl, rfl, rfl⟩

theorem trial_refused {f : WaxFail} (hst : s.wax.st = .staged) (hc : ckApply (s.ckEnv false) x.bytes = some f) :
    ∃ t, exec .trial s = .next t ∧ t.wax.st = .staged ∧ t.wax.err = 3 ∧ t.wax.chkCode = f.1 ∧ t.wax.img = s.wax.img ∧
      t.hives = s.hives ∧ t.jobs = s.jobs := by
  have hunits := sameUnits_waxReport (some f) s
  refine ⟨_, exec_trial_refused hx hst hc, ?_⟩
  rw [updWax_wax, waxReport_some_wax]
  exact ⟨hst, rfl, rfl, rfl, hunits.hives, hunits.jobs⟩

theorem waxApply_applies (hst : s.wax.st = .draining) (hd : s.drained = true) (hc : ckApply (s.ckEnv false) x.bytes = none) :
    ∃ t, exec .waxApply s = .next t ∧ t.wax = { s.wax with st := .applying, drainFor := none } ∧
      (∀ b, b ∈ banksOf (s.stagedImg x) → (t.phx.bank[b]).en = true) ∧
      ∀ c : ColId, c.val ∈ s.wax.changed → t.isSealed c = false := by
  refine ⟨_, exec_waxApply_applies hx hst hd hc, ?wax, ?banks, ?seals⟩
  case wax =>
    rw [enableBanks_wax, unsealChanged_wax]
    rfl
  case banks =>
    intro b hb
    rw [enableBanks_en, decide_eq_true hb, Bool.or_true]
  case seals =>
    intro c hchanged
    rw [enableBanks_isSealed]
    exact unsealChanged_isSealed hchanged

theorem waxApply_refused {f : WaxFail} (hst : s.wax.st = .draining) (hd : s.drained = true)
    (hc : ckApply (s.ckEnv false) x.bytes = some f) : ∃ t, exec .waxApply s = .next t ∧ t.wax.st = .staged ∧ t.wax.err = 3 ∧
      t.wax.changed = [] ∧ t.wax.img = s.wax.img ∧ t.hives = s.hives ∧ t.jobs = s.jobs := by
  have hunits := sameUnits_trans (sameUnits_trans (sameUnits_waxReport (some f) s) (sameUnits_updWax WaxSt.abandons _))
    (sameUnits_waxEnd 3 .staged _)
  refine ⟨_, exec_waxApply_refused hx hst hd hc, ?_⟩
  rw [waxEnd_wax, updWax_wax, waxReport_some_wax]
  exact ⟨rfl, rfl, rfl, rfl, hunits.hives, hunits.jobs⟩

theorem waxApplyDone_trial (hst : s.wax.st = .applying)
    (hl : ∀ b, b ∈ banksOf (s.stagedImg x) → b ∉ banksOf s.curImg → (s.phx.bank[b]).st = .locked) :
    ∃ t, exec .waxApplyDone s = .next t ∧
      t.wax.st = .trial ∧ t.wax.img = s.stagedImg x ∧ t.wax.none_ = false ∧ t.wax.hold = s.wax.hold ∧
      t.wax.before = some (s.wax.img, s.wax.pver, s.wax.forceB, s.wax.none_) ∧
      t.wax.forceB = (if x.partialImg then s.wax.forceB else x.slotB) ∧ t.wax.evt = s.wax.evt ||| 4 ∧ t.wax.wdog = s.wax.wdog ∧
      t.wax.secX = s.wax.secX ∧ t.wax.secY = s.wax.secY ∧ t.jobs = s.jobs := by
  have hnone : ¬s.locksAwaited x := fun ⟨b, huse, hfresh, hst⟩ => hst (hl b huse hfresh)
  obtain ⟨hjobs, hwax⟩ := inTrial_says (s := s) (x := x)
  refine ⟨inTrial x s, exec_waxApplyDone_trial hx hst hnone, ?_⟩
  rw [hwax]
  exact ⟨rfl, rfl, rfl, rfl, rfl, rfl, rfl, rfl, rfl, rfl, hjobs⟩

end

theorem waxDrainTimeout_abandons {s : State} (hst : s.wax.st = .draining) (hd : s.wax.drainFor = some .trial)
    (hms : s.wax.drainMs ≠ 0) : ∃ t, exec .waxDrainTimeout s = .next t ∧ t.wax.st = .staged ∧ t.wax.err = 4 ∧
      t.wax.evt = s.wax.evt ||| 64 ∧ t.wax.img = s.wax.img ∧ t.wax.changed = [] ∧ t.hives = s.hives ∧ t.jobs = s.jobs := by
  have hunits := sameUnits_trans (sameUnits_trans (sameUnits_updWax WaxSt.abandons s) (sameUnits_waxEnd 4 .staged _))
    (sameUnits_waxEvent 64 _)
  refine ⟨_, exec_waxDrainTimeout_trial hst hd hms, ?_⟩
  rw [waxEvent_wax, waxEnd_wax]
  exact ⟨rfl, rfl, rfl, rfl, rfl, hunits.hives, hunits.jobs⟩

end Sys2Proof.Machine

end

section
/-! COMMIT and its record (R160, R173, R174): the barren hives that refuse it, the slot and the sector that it writes. -/

namespace Sys2Proof.Machine

-- COMMIT (R173, R174)

/-- A layer of the image in force uses a barren hive (R174). -/
def State.barrenUsed (s : State) : Bool :=
  s.curImg.layers.any fun l => (maskHives l.hmask).any fun h => (s.ckEnv false).barren.contains h

section
variable {s : State} {x : Staged} (hx : s.wax.staged = some x)
include hx

theorem exec_commit_barren (hst : s.wax.st = .trial) (hb : s.barrenUsed = true) :
    exec .commit s = .next (updWax (fun w => { w with err := 6 }) s) := by
  change execCommit s = _
  simp only [execCommit, hst, hx]
  exact if_pos hb

/-- A COMMIT that begins to write its record. -/
def committing (s : State) : State := waxEnd 0 .committing (updWax (fun w => { w with wdog := none }) s)

theorem exec_commit_full (hst : s.wax.st = .trial) (hp : x.partialImg = false) (hb : s.barrenUsed = false) :
    exec .commit s = .next (committing s) := by
  change execCommit s = _
  simp only [execCommit, hst, hx, hp]
  exact if_neg (Bool.eq_false_iff.1 hb)

theorem exec_commit_partial (hst : s.wax.st = .trial) (hp : x.partialImg = true) (hb : s.barrenUsed = false) :
    exec .commit s = .next (updWax (putSlot (committing s).stagingB []) (invalidate (committing s))) := by
  change execCommit s = _
  simp only [execCommit, hst, hx, hp]
  exact if_neg (Bool.eq_false_iff.1 hb)

/-- COMMIT of a partial image loses the contents of the staging slot, which the whole image is to take. -/
theorem commit_partial (hst : s.wax.st = .trial) (hp : x.partialImg = true) (hb : s.barrenUsed = false) :
    ∃ t, exec .commit s = .next t ∧ t = { s with wax := t.wax, guard := t.guard } ∧ t.guard.ceClaimed = true ∧
      t.wax.st = .committing ∧ t.wax.err = 0 ∧ t.wax.wdog = none ∧ t.wax.img = s.wax.img ∧
      t.wax.slot (!s.stagingB) = s.wax.slot (!s.stagingB) := by
  have hcom : committing s = { s with wax := { s.wax with wdog := none, err := 0, st := .committing }, guard := ceClaim s.guard } :=
    waxEnd_committing 0 _
  have hslot : (committing s).stagingB = s.stagingB := stagingB_congr (rec?_congr (by rw [hcom]; rfl) (by rw [hcom]) (by rw [hcom]))
  obtain ⟨secX, secY, hinv⟩ := invalidate_says (committing s)
  refine ⟨_, exec_commit_partial hx hst hp hb, ?_⟩
  rw [hslot, hinv, hcom]
  cases s.stagingB <;> exact ⟨rfl, rfl, rfl, rfl, rfl, rfl, rfl⟩

end

-- the commit record (R160, R173)

theorem commitOf_names (s : State) (slotB signed : Bool) (bs : List Byte) :
    (commitOf s slotB signed bs).curB = slotB ∧ (commitOf s slotB signed bs).curHash = imgHash bs := by
  unfold commitOf
  split <;> exact ⟨rfl, rfl⟩

/-- The committed image becomes the previous one. -/
theorem commitOf_keeps {s : State} {q : CommitRec} (h : s.rec? = some q) (slotB signed : Bool) (bs : List Byte) :
    (commitOf s slotB signed bs).prevValid = true ∧ (commitOf s slotB signed bs).prevHash = q.curHash ∧
      (commitOf s slotB signed bs).prevVer = q.curVer ∧ (commitOf s slotB signed bs).prevLen = q.curLen := by
  simp only [commitOf, h, and_self]

section
variable {s : State} {x : Staged} (hst : s.wax.st = .committing) (hx : s.wax.staged = some x)
include hst hx

theorem exec_waxCommitDone_flashErr :
    exec (.waxCommitDone false) s = .next (waxEvent 128 (waxEnd 7 .idle (updWax trialOver s))) := by
  change execWaxCommitDone false s = _
  simp only [execWaxCommitDone, hst, hx, Bool.not_false, if_true]

/-- The wax state as the end of a COMMIT leaves it beside its record: the committed image in its slot, and the trial over. -/
def Staged.commits (x : Staged) (w : WaxSt) : WaxSt := { trialOver (putSlot x.slotB x.bytes w) with forceB := x.slotB }

omit hst hx in
theorem commits_frame (w : WaxSt) : x.commits w = { trialOver w with
    forceB := x.slotB, slotA := (x.commits w).slotA, slotB := (x.commits w).slotB } := by
  unfold Staged.commits
  cases x.slotB <;> rfl

theorem exec_waxCommitDone_full (hp : x.partialImg = false) : exec (.waxCommitDone true) s =
    .next (waxEvent 8 (waxEnd 0 .idle (updWax x.commits (putCommit (commitOf s x.slotB x.img.signed x.bytes) s)))) := by
  change execWaxCommitDone true s = _
  simp only [execWaxCommitDone, hst, hx, hp, Bool.not_true, Bool.false_eq_true, if_false]
  rfl

theorem waxCommitDone_full (hp : x.partialImg = false) : ∃ t r, exec (.waxCommitDone true) s = .next t ∧ t.wax.st = .idle ∧
    t.wax.err = 0 ∧ t.wax.evt = s.wax.evt ||| 8 ∧ t.wax.staged = none ∧ t.wax.forceB = x.slotB ∧ t.wax.slot x.slotB = x.bytes ∧
    (if s.recY = some false then t.wax.secY = some r ∧ t.wax.secX = s.wax.secX else t.wax.secX = some r ∧ t.wax.secY = s.wax.secY) ∧
    r.curB = x.slotB ∧ r.curHash = imgHash x.bytes ∧ r.gen = (s.rec?.map (·.gen)).getD 0 + 1 ∧ r.complete = true ∧
    (∀ q, s.rec? = some q → r.prevValid = true ∧ r.prevHash = q.curHash ∧ r.prevVer = q.curVer ∧ r.prevLen = q.curLen) ∧
    t.wax.img = s.wax.img ∧ t.hives = s.hives ∧ t.jobs = s.jobs := by
  obtain ⟨r, mac, hr, hput⟩ := putCommit_says (commitOf s x.slotB x.img.signed x.bytes) s
  obtain ⟨hslot, hhash⟩ := commitOf_names s x.slotB x.img.signed x.bytes
  have hexec := exec_waxCommitDone_full hst hx hp
  rw [hput] at hexec
  have hunits := sameUnits_trans (sameUnits_trans (sameUnits_updWax x.commits (updWax (WaxSt.putRec s.recY r) s))
    (sameUnits_waxEnd 0 .idle _)) (sameUnits_waxEvent 8 _)
  have hsectors := putRec_sectors s.recY r s.wax
  have hbytes : (x.commits (s.wax.putRec s.recY r)).slot x.slotB = x.bytes := putSlot_same x.slotB x.bytes (s.wax.putRec s.recY r)
  refine ⟨_, r, hexec, ?_⟩
  rw [waxEvent_wax, waxEnd_wax, updWax_wax, updWax_wax]
  generalize hw : x.commits (s.wax.putRec s.recY r) = w at hbytes
  rw [commits_frame] at hw
  subst hw hr
  exact ⟨rfl, rfl, congrArg (· ||| 8) (putRec_evt _ _ _), rfl, rfl, hbytes, hsectors, hslot, hhash, rfl, rfl,
    fun q hq => commitOf_keeps hq _ _ _, putRec_img _ _ _, hunits.hives, hunits.jobs⟩

theorem waxCommitDone_flashErr : ∃ t, exec (.waxCommitDone false) s = .next t ∧ t.wax.st = .idle ∧ t.wax.err = 7 ∧
    t.wax.evt = s.wax.evt ||| 128 ∧ t.wax.secX = s.wax.secX ∧ t.wax.secY = s.wax.secY ∧ t.wax.img = s.wax.img ∧ t.jobs = s.jobs := by
  have hunits := sameUnits_trans (sameUnits_trans (sameUnits_updWax trialOver s) (sameUnits_waxEnd 7 .idle _)) (sameUnits_waxEvent 128 _)
  refine ⟨_, exec_waxCommitDone_flashErr hst hx, ?_⟩
  rw [waxEvent_wax, waxEnd_wax]
  exact ⟨rfl, rfl, rfl, rfl, rfl, rfl, hunits.jobs⟩

end

end Sys2Proof.Machine

end

section
/-! What ends a trial without a COMMIT (R170 to R172): ROLLBACK, the watchdog, and the records that are in force again. -/

namespace Sys2Proof.Machine

-- ROLLBACK and the watchdog (R171, R172)

/-- The wax state as a ROLLBACK begins to drain. -/
def WaxSt.rollsBack (w : WaxSt) : WaxSt := { w with err := 0, st := .rollingBack, wdog := none, drainFor := some .rollback }

theorem exec_rollback {s : State} (hst : s.wax.st = .trial) :
    exec .rollback s = .next (reclaimFor s.wax.changed (updWax WaxSt.rollsBack s)) := by
  change execRollback s = _
  simp only [execRollback, hst, bne_self_eq_false, Bool.false_eq_true, if_false]
  rfl

/-- A ROLLBACK stops lent work alone, and that only where it changes partition 0x40 (R471). -/
theorem rollback_drains {s : State} (hst : s.wax.st = .trial) : ∃ t, exec .rollback s = .next t ∧
    t = { s with hives := t.hives, wax := { s.wax with err := 0, st := .rollingBack, wdog := none, drainFor := some .rollback } } ∧
    (s.wax.changed.contains 0x40 = false → t.hives = s.hives) := by
  refine ⟨_, exec_rollback hst, reclaimFor_only _ _, fun hx40 => ?_⟩
  rw [reclaimFor_of_not hx40]
  rfl

theorem exec_waxWatchdogExpire_waits {s : State} (hp : s.shedPaused = true) : exec .waxWatchdogExpire s = .next s :=
  if_pos (by rw [hp, Bool.or_true])

/-- The wax state as the watchdog begins a rollback. -/
def WaxSt.expires (w : WaxSt) : WaxSt := { w with st := .rollingBack, wdog := none, wdogHit := true, drainFor := none }

theorem exec_waxWatchdogExpire {s : State} (hst : s.wax.st = .trial) (hw : s.wax.wdog.isSome = true) (hp : s.shedPaused = false) :
    exec .waxWatchdogExpire s =
      .next (reclaimFor s.wax.changed (onSlots trialJobEnds s.changedRuns (updWax WaxSt.expires s))) := by
  have hon : ¬(s.wax.st != .trial || s.wax.wdog.isNone || s.shedPaused) = true := by
    rw [hst, hp, Option.isNone_eq_false_iff.2 hw]
    decide
  exact if_neg hon

/-- With no job of a changed partition left, an expired watchdog only begins the rollback (R171). -/
theorem exec_waxWatchdogExpire_idle {s : State} (hst : s.wax.st = .trial) (hw : s.wax.wdog.isSome = true) (hp : s.shedPaused = false)
    (hr : s.changedRuns = []) (hx40 : s.wax.changed.contains 0x40 = false) :
    exec .waxWatchdogExpire s = .next (updWax WaxSt.expires s) := by
  rw [exec_waxWatchdogExpire hst hw hp, hr, onSlots, reclaimFor_of_not hx40]

-- what a rollback puts in force (R170, log entry 40)

section
variable {s : State} {old : WaxImg × List (Nat × Word) × Bool × Bool}

/-- After a partial trial, and where no committed slot loads, the records before the trial are in force again. -/
theorem rollbackTo_before (h : s.trialPartial = true ∨ s.committed? = none) : s.rollbackTo old = old := by
  unfold State.rollbackTo
  split
  · rfl
  · next hp => rw [h.resolve_left hp]

/-- After a full trial the committed image is in force, from its own slot where it differs from what was. -/
theorem rollbackTo_committed {im : WaxImg} {c : Bool} (hp : s.trialPartial = false) (hc : s.committed? = some (im, c)) :
    (s.rollbackTo old).1 = im ∧ (s.rollbackTo old).2.2.2 = false ∧ (im ≠ old.1 → (s.rollbackTo old).2.2.1 = c) := by
  unfold State.rollbackTo
  rw [hp, hc]
  simp only [Bool.false_eq_true, if_false]
  by_cases hsame : (decide (im = old.1) && !old.2.2.2) = true
  · rw [if_pos hsame]
    simp only [Bool.and_eq_true, decide_eq_true_eq, Bool.not_eq_true'] at hsame
    exact ⟨hsame.1.symm, hsame.2, fun hne => absurd hsame.1 hne⟩
  · rw [if_neg hsame]
    exact ⟨rfl, rfl, fun _ => rfl⟩

end

-- the end of a rollback

/-- The state in which records are in force again: no colony of a changed partition sealed, and after a full trial the banks of
the image enabled. -/
def restored (back : WaxImg × List (Nat × Word) × Bool × Bool) (full : Bool) (s : State) : State :=
  let u := install back.1 back.2.1 back.2.2.1 back.2.2.2 (unsealChanged s)
  if full then enableBanks (banksOf back.1) u else u

theorem restored_wax (back : WaxImg × List (Nat × Word) × Bool × Bool) (full : Bool) (s : State) : (restored back full s).wax =
    { s.wax with img := back.1, pver := back.2.1, forceB := back.2.2.1, none_ := back.2.2.2 } := by
  have hinstall := (install_says back.1 back.2.1 back.2.2.1 back.2.2.2 (unsealChanged s)).1
  rw [unsealChanged_wax] at hinstall
  unfold restored
  dsimp only
  split
  · rw [enableBanks_wax, hinstall]
  · exact hinstall

section
variable {s : State} {old : WaxImg × List (Nat × Word) × Bool × Bool} (hst : s.wax.st = .rollingBack)
  (hold : s.wax.before = some old) (hd : s.drained = true)
include hst hold hd

theorem exec_waxRollbackDone : exec .waxRollbackDone s = .next (waxEvent (if s.wax.wdogHit then 48 else 16)
    (updWax (fun w => { trialOver w with st := .idle, err := if s.wax.wdogHit then w.err else 0 })
      (restored (s.rollbackTo old) (!s.trialPartial) s))) := by
  change execWaxRollbackDone s = _
  simp only [execWaxRollbackDone, hst, hold, hd, Bool.not_true, Bool.false_eq_true, if_false]
  rfl

theorem exec_waxRollbackDone_says : ∃ t, exec .waxRollbackDone s = .next t ∧ t.wax = { trialOver s.wax with
    img := (s.rollbackTo old).1, pver := (s.rollbackTo old).2.1, forceB := (s.rollbackTo old).2.2.1
    none_ := (s.rollbackTo old).2.2.2, st := .idle, err := if s.wax.wdogHit then s.wax.err else 0
    evt := s.wax.evt ||| (if s.wax.wdogHit then 48 else 16) } := by
  refine ⟨_, exec_waxRollbackDone hst hold hd, ?_⟩
  rw [waxEvent_wax, updWax_wax, restored_wax]
  rfl

end

theorem waxRollbackDone_restores {s : State} {img : WaxImg} {pver : List (Nat × Word)} {b n : Bool} (hst : s.wax.st = .rollingBack)
    (hold : s.wax.before = some (img, pver, b, n)) (hd : s.drained = true) :
    ∃ t, exec .waxRollbackDone s = .next t ∧ t.wax.st = .idle ∧
      (s.trialPartial = true ∨ s.committed? = none → t.wax.img = img ∧ t.wax.pver = pver ∧ t.wax.forceB = b ∧ t.wax.none_ = n) ∧
      (∀ im c, s.trialPartial = false → s.committed? = some (im, c) →
        t.wax.img = im ∧ t.wax.none_ = false ∧ (im ≠ img → t.wax.forceB = c)) ∧
      t.wax.staged = none ∧ t.wax.evt = s.wax.evt ||| (if s.wax.wdogHit then 48 else 16) ∧
      t.wax.secX = s.wax.secX ∧ t.wax.secY = s.wax.secY := by
  obtain ⟨t, hexec, hwax⟩ := exec_waxRollbackDone_says hst hold hd
  refine ⟨t, hexec, ?_⟩
  rw [hwax]
  refine ⟨rfl, fun hbefore => ?_, fun im c hfull hcom => rollbackTo_committed hfull hcom, rfl, rfl, rfl, rfl⟩
  rw [rollbackTo_before hbefore]
  exact ⟨rfl, rfl, rfl, rfl⟩

end Sys2Proof.Machine

section

open Sys2Proof Sys2Proof.Machine

/-- Settles O23: each command and event of a trial has one `exec_` equation per outcome, and each clause is the lemma that reads
its equation off. -/
theorem trialsDrainApplyAndEnd : Obligations.TrialsDrainApplyAndEnd := by
  refine ⟨fun s x hx => ⟨trial_drains hx, fun f => trial_refused hx, exec_waxApply_waits hx, waxApply_applies hx,
    fun f => waxApply_refused hx, waxDrainTimeout_abandons, exec_waxApplyDone_waits hx, waxApplyDone_trial hx⟩,
    fun s x hx => ⟨exec_commit_barren hx, ?fullCommit, commit_partial hx, fun hst => waxCommitDone_full hst hx,
    fun hst => waxCommitDone_flashErr hst hx, rollback_drains, fun img pver b n => waxRollbackDone_restores,
    exec_waxWatchdogExpire_idle, fun _ => exec_waxWatchdogExpire_waits⟩⟩
  case fullCommit =>
    intro hst hfull hbarren
    rw [exec_commit_full hx hst hfull hbarren, committing, waxEnd_committing]
    rfl

end

end

section
/-! A model load (R227, R228): what its checks and copies move, the order of the checks of the descriptor, and what its end puts
in force. -/

namespace Sys2Proof.Machine

-- what reads of the supers and copies to hives move

/-- Only the supers' block, hives, and the glass and PF0's vectors of an event moved. -/
def OnlyNoted (s t : State) : Prop := OnlyGlass { s with sup := t.sup } t

theorem onlyNoted_refl (s : State) : OnlyNoted s s := rfl

theorem onlyNoted_trans {s t u : State} (h : OnlyNoted s t) (k : OnlyNoted t u) : OnlyNoted s u := by
  rw [OnlyNoted, OnlyGlass] at *
  rw [h] at k
  exact k

theorem onlyNoted_keeps {s t : State} (h : OnlyNoted s t) : t.models = s.models ∧ t.jobs = s.jobs := by
  rw [h]
  exact ⟨rfl, rfl⟩

theorem onlyNoted_noteUe (ws : List Nat) (s : State) : OnlyNoted s (noteUe ws s) := by
  obtain ⟨sup, honly, -⟩ := noteUe_says ws s
  obtain ⟨-, -, -, hsup, -⟩ := onlyGlass_keeps honly
  rw [OnlyNoted, hsup]
  exact honly

theorem onlyNoted_copyIn (h : HiveId) (dst src n : Nat) (s : State) : OnlyNoted s (copyIn h dst src n s) :=
  onlyNoted_trans (t := updHive h _ s) rfl (onlyNoted_noteUe _ _)

/-- What every copy of a range keeps, the copies of a model keep. -/
theorem copyModel_induction {P : State → Prop} (hcopy : ∀ k dst src n u, P u → P (copyIn k dst src n u)) (m : Model) (home h : HiveId)
    {s : State} (hs : P s) : P (copyModel m home h s) := by
  unfold copyModel
  split
  · exact hs
  · refine List.foldlRecOn _ _ ?_ fun u hu e _ => hcopy _ _ _ _ u hu
    split
    · exact hcopy _ _ _ _ s hs
    · exact hs

theorem onlyNoted_copyModel (m : Model) (home h : HiveId) (s : State) : OnlyNoted s (copyModel m home h s) :=
  copyModel_induction (P := OnlyNoted s) (fun k dst src n u hu => onlyNoted_trans hu (onlyNoted_copyIn k dst src n u)) m home h
    (onlyNoted_refl s)

theorem onlyNoted_copyAll (m : Model) (l : List HiveId) (s : State) : OnlyNoted s (copyAll m l s) := by
  induction l generalizing s with
  | nil => exact onlyNoted_refl s
  | cons h r ih =>
    refine onlyNoted_trans ?_ (ih _)
    split
    · exact onlyNoted_refl s
    · exact onlyNoted_copyModel m h h s

-- the checks and copies (R227)

/-- A load result beside the state that its checks leave: hives move only with a model that passed. -/
structure Loads (s : State) (x : LoadRes × State) : Prop where
  only : OnlyNoted s x.2
  hives : x.1.model = none → x.2.hives = s.hives

theorem loads_fails (r : LoadRes) (s : State) : Loads s (r, s) := ⟨onlyNoted_refl s, fun _ => rfl⟩

theorem loads_noteUe (r : LoadRes) (ws : List Nat) (s : State) : Loads s (r, noteUe ws s) :=
  ⟨onlyNoted_noteUe ws s, fun _ => (sameUnits_noteUe ws s).hives⟩

theorem loads_mediaFail (a n : Nat) (s : State) : Loads s (mediaFail a n s) := loads_noteUe _ _ s

theorem loads_loadEntries (pid : PartId) (nEnt image : Nat) (d : DanceImg) (exp : Option (Nat × Nat)) (s : State) :
    Loads s (loadEntries pid nEnt image d exp s) := by
  dsimp only [loadEntries]
  split
  · exact loads_fails _ s
  split
  · split
    · exact loads_noteUe _ _ s
    · exact loads_fails _ s
  split
  · exact loads_fails _ s
  split
  · exact loads_noteUe _ _ s
  · exact ⟨onlyNoted_copyAll _ _ s, fun hmodel => absurd hmodel (Option.some_ne_none _)⟩

theorem loads_loadImage (pid : PartId) (nEnt off : Nat) (s : State) : Loads s (loadImage pid nEnt off s) := by
  dsimp only [loadImage]
  split
  · exact loads_fails _ s
  split
  · exact loads_mediaFail _ _ s
  split
  · exact loads_fails _ s
  split
  · exact loads_fails _ s
  split
  · exact loads_fails _ s
  split
  · exact loads_mediaFail _ _ s
  split
  · exact loads_fails _ s
  generalize (if pid.val = 0x40 then ckDanceExpress s _ else (none, none)) = express
  split
  · exact loads_fails _ s
  · exact loads_loadEntries _ _ _ _ _ s

theorem loads_performLoad (s : State) : Loads s (performLoad s) := by
  dsimp only [performLoad]
  split
  · exact loads_mediaFail _ _ s
  split
  · exact loads_fails _ s
  split
  · exact loads_fails _ s
  split
  · exact loads_fails _ s
  split
  · exact loads_loadImage _ _ _ s
  · exact loads_fails _ s

section
variable {s : State} {b : List Byte} (hb : s.mediaRead s.mld.at_ 32 = some b)
include hb

theorem performLoad_badMagic (hm : b.take 4 ≠ [0x53, 0x4B, 0x4D, 0x44]) : performLoad s = ({ code := 2 }, s) := by
  simp only [performLoad, hb, bne_iff_ne.2 hm, if_true]

variable (hm : b.take 4 = [0x53, 0x4B, 0x4D, 0x44])
include hm

theorem performLoad_badReserved (hr : (nonZero b 5 3 || nonZero b 12 4 || nonZero b 24 8) = true) :
    performLoad s = ({ code := 3 }, s) := by
  simp only [performLoad, hb, hm, bne_self_eq_false, Bool.false_eq_true, if_false, hr, if_true]

theorem performLoad_badPartition (hr : (nonZero b 5 3 || nonZero b 12 4 || nonZero b 24 8) = false)
    (hp : ∀ pid, partOf? (u8 b 4) = some pid → s.loadable pid = false) : performLoad s = ({ code := 4 }, s) := by
  simp only [performLoad, hb, hm, bne_self_eq_false, Bool.false_eq_true, if_false, hr]
  cases hpid : partOf? (u8 b 4) with
  | none => rfl
  | some pid => simp only [hp pid hpid, Bool.false_eq_true, if_false]

end

-- the commands

theorem exec_modelLoadGo_busy {s : State} (hb : s.mld.busy = true) : exec .modelLoadGo s = .next s := by
  change execModelLoadGo s = _
  rw [execModelLoadGo, goLoad, if_pos hb]

/-- GO notes the descriptor's address and partition, and reclaims the lent hives for partition 0x40 (R227, R471). -/
theorem modelLoadGo_starts {s : State} (hb : s.mld.busy = false) : ∃ t, exec .modelLoadGo s = .next t ∧ t.mld.busy = true ∧
    t.mld.code = 1 ∧ t.mld.result = none ∧ t.mld.at_ = alignDown s.mld.src.toNat 6 % 2 ^ 35 ∧
    t = { s with mld := t.mld, hives := t.hives } ∧ t.models = s.models := by
  refine ⟨goLoad s, rfl, ?_⟩
  rw [goLoad, if_neg (Bool.eq_false_iff.1 hb)]
  dsimp only
  split
  · rw [reclaimLent_only]
    exact ⟨rfl, rfl, rfl, rfl, rfl, rfl⟩
  · exact ⟨rfl, rfl, rfl, rfl, rfl, rfl⟩

/-- The end of the checks and copies, before the load ends. -/
def withResult (x : LoadRes × State) : State := { x.2 with mld := { x.2.mld with result := some x.1 } }

theorem exec_modelLoadPerform {s : State} (hb : s.mld.busy = true) (hr : s.mld.result = none) (hf : s.loadFree = true) :
    exec .modelLoadPerform s = .next (withResult (performLoad s)) :=
  if_pos (by rw [hb, hr, hf]; rfl)

theorem exec_modelLoadPerform_idle {s : State} (hb : s.mld.busy = false) : exec .modelLoadPerform s = .next s :=
  if_neg (by rw [hb]; exact Bool.false_ne_true)

theorem withResult_says (s : State) : ∃ r, (withResult (performLoad s)).mld.result = some r ∧
    (withResult (performLoad s)).models = s.models ∧ (withResult (performLoad s)).jobs = s.jobs ∧
    (r.model = none → (withResult (performLoad s)).hives = s.hives) := by
  obtain ⟨honly, hhives⟩ := loads_performLoad s
  obtain ⟨hmodels, hjobs⟩ := onlyNoted_keeps honly
  exact ⟨_, rfl, hmodels, hjobs, hhives⟩

-- the end of a load (R228)

/-- What the report of a dance image leaves of the load's own fields (R215, R216). -/
theorem putDld_says (r : LoadRes) (m : MldSt) : (putDld r m).busy = m.busy ∧ (putDld r m).code = m.code ∧
    (putDld r m).hold = m.hold ∧
    ∀ c k i, r.dld = some (c, k, i) → (putDld r m).dldCode = c ∧ (putDld r m).dldPos = BitVec.ofNat 24 i := by
  unfold putDld
  cases hdld : r.dld with
  | none => exact ⟨rfl, rfl, rfl, fun c k i h => absurd h.symm (Option.some_ne_none _)⟩
  | some x =>
    refine ⟨rfl, rfl, rfl, fun c k i h => ?_⟩
    cases h
    exact ⟨rfl, rfl⟩

/-- The load registers as the load ends: GO reads 0 and CODE the result. -/
def MldSt.ends (r : LoadRes) (m : MldSt) : MldSt := putDld r { m with busy := false, hold := none, result := none, code := r.code }

theorem exec_modelLoadDone_nothing {s : State} (hr : s.mld.result = none) : exec .modelLoadDone s = .next s := by
  change execModelLoadDone s = _
  rw [execModelLoadDone, hr]

theorem exec_modelLoadDone_fails {s : State} {r : LoadRes} (hr : s.mld.result = some r) (hm : r.model = none) :
    exec .modelLoadDone s = .next { s with mld := s.mld.ends r } := by
  change execModelLoadDone s = _
  simp only [execModelLoadDone, hr, hm]
  rfl

/-- The models once one has been loaded: it takes the place of its partition's. -/
def replaceModel (m : Model) (l : List Model) : List Model := m :: l.filter fun y => y.part != m.part

theorem exec_modelLoadDone_loads {s : State} {r : LoadRes} {m : Model} (hr : s.mld.result = some r) (hm : r.model = some m) :
    exec .modelLoadDone s = .next { s with mld := putPlan m (s.mld.ends r), models := replaceModel m s.models } := by
  change execModelLoadDone s = _
  simp only [execModelLoadDone, hr, hm]
  rfl

theorem find?_replaceModel (m : Model) (l : List Model) (n : Nat) : (replaceModel m l).find? (fun x => x.part.val == n) =
    if n = m.part.val then some m else l.find? fun x => x.part.val == n := by
  rw [replaceModel, List.find?_cons, List.find?_filter]
  by_cases hn : n = m.part.val
  · rw [if_pos hn, hn, beq_self_eq_true]
  · have hother : (fun x : Model => decide ((x.part != m.part) = true ∧ (x.part.val == n) = true)) = fun x => x.part.val == n := by
      funext x
      grind
    rw [if_neg hn, beq_false_of_ne (Ne.symm hn), hother]

theorem modelLoadDone_loads {s : State} {r : LoadRes} {m : Model} (hr : s.mld.result = some r) (hm : r.model = some m) :
    ∃ t, exec .modelLoadDone s = .next t ∧ t = { s with mld := t.mld, models := t.models } ∧ t.mld.busy = false ∧
      t.mld.code = r.code ∧ t.model? m.part.val = some m ∧ (∀ n, n ≠ m.part.val → t.model? n = s.model? n) ∧
      t.mld.plan = m.plan.code := by
  obtain ⟨hbusy, hcode, -, -⟩ := putDld_says r { s.mld with busy := false, hold := none, result := none, code := r.code }
  exact ⟨_, exec_modelLoadDone_loads hr hm, rfl, hbusy, hcode, (find?_replaceModel m s.models _).trans (if_pos rfl),
    fun n hn => (find?_replaceModel m s.models n).trans (if_neg hn), rfl⟩

end Sys2Proof.Machine

section

open Sys2Proof Sys2Proof.Machine

/-- Settles O27: the checks of the descriptor are the `performLoad_bad` lemmas in their order, what a load moves is
`loads_performLoad`, and what its end puts in force `modelLoadDone_loads`. -/
theorem modelLoadsCheckThenReplace : Obligations.ModelLoadsCheckThenReplace := by
  intro s
  refine ⟨exec_modelLoadGo_busy, modelLoadGo_starts, fun hbusy hres hfree => ?perform, exec_modelLoadPerform_idle,
    exec_modelLoadDone_nothing, fun r hr hm => ⟨_, exec_modelLoadDone_fails hr hm, rfl, putDld_says r _⟩,
    fun r m => modelLoadDone_loads⟩
  rw [exec_modelLoadPerform hbusy hres hfree]
  obtain ⟨r, hsays⟩ := withResult_says s
  refine ⟨fun b hb hm => ?_, fun b hb hm hr => ?_, fun b hb hm hr hp => ?_, _, r, rfl, hsays⟩
  · rw [performLoad_badMagic hb hm]
    rfl
  · rw [performLoad_badReserved hb hm hr]
    rfl
  · rw [performLoad_badPartition hb hm hr hp]
    rfl

end

end

section
/-! Writes to the supers from outside (R163, R222, R386): which bytes a write with byte enables leaves where. -/

namespace Sys2Proof.Machine

-- bytes under enables

/-- One byte of a write: stored where it is enabled and its address takes it. -/
def putByte (ok : Nat → Bool) (a : Nat) (o : Option Byte) (m : Memory) : Memory :=
  match o with
  | some b => if ok a then memWrite m a b else m
  | none => m

/-- The bytes of a write from an address on. -/
def putTaken (ok : Nat → Bool) : Nat → List (Option Byte) → Memory → Memory
  | _, [], m => m
  | a, o :: l, m => putTaken ok (a + 1) l (putByte ok a o m)

theorem putTaken_append (ok : Nat → Bool) (a : Nat) (l k : List (Option Byte)) (m : Memory) :
    putTaken ok a (l ++ k) m = putTaken ok (a + l.length) k (putTaken ok a l m) := by
  induction l generalizing a m with
  | nil => rfl
  | cons o l ih =>
    rw [List.length_cons, Nat.add_comm l.length, ← Nat.add_assoc]
    exact ih (a + 1) _

/-- Where every address takes its byte, enabled bytes are written as they stand. -/
theorem putTaken_all {ok : Nat → Bool} {a : Nat} {bs : List Byte} (h : ∀ i, i < bs.length → ok (a + i) = true) (m : Memory) :
    putTaken ok a (bs.map some) m = memWriteN m a bs := by
  induction bs generalizing a m with
  | nil => rfl
  | cons b r ih =>
    have htail : ∀ i, i < r.length → ok (a + 1 + i) = true := fun i hi => by
      rw [Nat.add_assoc, Nat.add_comm 1]
      exact h (i + 1) (Nat.succ_lt_succ hi)
    have hhead : ok a = true := h 0 (Nat.succ_pos _)
    rw [List.map_cons, putTaken, ih htail, putByte, if_pos hhead, memWriteN]

theorem putByte_wf {m : Memory} (ok : Nat → Bool) (a : Nat) (o : Option Byte) (w : m.wf = true) : (putByte ok a o m).wf = true := by
  unfold putByte
  split
  · split
    · exact memWrite_wf _ _ w
    · exact w
  · exact w

theorem memRead_putByte {m : Memory} (ok : Nat → Bool) (a : Nat) (o : Option Byte) (x : Nat) (w : m.wf = true) :
    memRead (putByte ok a o m) x = if x = a then (o.filter fun _ => ok x).getD (memRead m x) else memRead m x := by
  by_cases hx : x = a
  · subst hx
    cases o with
    | none => simp [putByte]
    | some b => cases hok : ok x <;> simp [putByte, Option.filter, hok, memRead_memWrite x x b w]
  · rw [if_neg hx]
    unfold putByte
    split
    · split
      · rw [memRead_memWrite a x _ w, if_neg hx]
      · rfl
    · rfl

/-- The byte that a write enables at an address. -/
def enabledAt (a : Nat) (l : List (Option Byte)) (x : Nat) : Option Byte := if a ≤ x then l[x - a]?.join else none

theorem enabledAt_cons (a : Nat) (o : Option Byte) (l : List (Option Byte)) (x : Nat) :
    enabledAt a (o :: l) x = if x = a then o else enabledAt (a + 1) l x := by
  unfold enabledAt
  rcases Nat.lt_trichotomy x a with hlt | rfl | hgt
  · rw [if_neg (by omega), if_neg (by omega), if_neg (by omega)]
  · simp
  · rw [if_pos (by omega), if_neg (by omega), if_pos (by omega), show x - a = x - (a + 1) + 1 by omega, List.getElem?_cons_succ]

theorem enabledAt_of_getElem? {a i : Nat} {l : List (Option Byte)} {o : Option Byte} (h : l[i]? = some o) :
    enabledAt a l (a + i) = o := by
  rw [enabledAt, if_pos (Nat.le_add_right a i), Nat.add_sub_cancel_left, h, Option.join_some]

theorem enabledAt_outside {a x : Nat} {l : List (Option Byte)} (h : x < a ∨ a + l.length ≤ x) : enabledAt a l x = none := by
  unfold enabledAt
  split
  · rw [List.getElem?_eq_none (by omega), Option.join_none]
  · rfl

theorem exists_of_enabledAt {a x : Nat} {l : List (Option Byte)} (h : (enabledAt a l x).isSome = true) :
    ∃ i, i < l.length ∧ x = a + i := by
  by_cases hx : x < a ∨ a + l.length ≤ x
  · rw [enabledAt_outside hx] at h
    exact absurd h Bool.false_ne_true
  · exact ⟨x - a, by omega⟩

theorem enabledAt_append (a : Nat) (l k : List (Option Byte)) (x : Nat) :
    enabledAt a (l ++ k) x = if x < a + l.length then enabledAt a l x else enabledAt (a + l.length) k x := by
  unfold enabledAt
  by_cases ha : a ≤ x
  · by_cases hx : x < a + l.length
    · rw [if_pos ha, if_pos hx, if_pos ha, List.getElem?_append_left (by omega)]
    · rw [if_pos ha, if_neg hx, if_pos (by omega), List.getElem?_append_right (by omega), Nat.sub_sub]
  · rw [if_neg ha, if_pos (by omega), if_neg ha]

/-- After a write each address reads as its enabled byte where it takes one, else as before. -/
theorem memRead_putTaken {m : Memory} (ok : Nat → Bool) (a : Nat) (l : List (Option Byte)) (x : Nat) (w : m.wf = true) :
    memRead (putTaken ok a l m) x = ((enabledAt a l x).filter fun _ => ok x).getD (memRead m x) := by
  induction l generalizing a m with
  | nil => simp [putTaken, enabledAt]
  | cons o l ih =>
    rw [putTaken, ih (a + 1) (putByte_wf ok a o w), memRead_putByte ok a o x w, enabledAt_cons]
    split
    · next hx => rw [enabledAt_outside (Or.inl (by omega))]; rfl
    · rfl

-- a write of bytes

@[simp] theorem supEvent_wax (w : Word) (s : State) : (supEvent w s).wax = s.wax := by
  obtain ⟨-, -, -, -, -, -, -, hwax⟩ := onlyGlass_keeps (postEvent_says .sup w s).1
  exact hwax

@[simp] theorem supEvent_sup (w : Word) (s : State) : (supEvent w s).sup = { s.sup with evt := s.sup.evt ||| w } := by
  obtain ⟨-, -, -, hsup, -⟩ := onlyGlass_keeps (postEvent_says .sup w s).1
  exact hsup

theorem sameUnits_supEvent (w : Word) (s : State) : SameUnits s (supEvent w s) := by
  obtain ⟨honly, hhives⟩ := postEvent_says .sup w s
  exact sameUnits_trans (t := evSet .sup (evGet s .sup ||| w) s) ⟨rfl, rfl, rfl, rfl⟩ (sameUnits_of_onlyGlass honly hhives)

@[simp] theorem waxEvent_sup (w : Word) (s : State) : (waxEvent w s).sup = s.sup := by
  obtain ⟨-, -, -, hsup, -⟩ := onlyGlass_keeps (postEvent_says .wax w s).1
  exact hsup

/-- An address that takes a byte from outside (R163, R222, R386). -/
def State.takes (s : State) (x : Nat) : Bool := decide (sysBytes ≤ x) && !s.heldAt x && !s.sealedHit x 1

theorem takes_iff {s : State} {x : Nat} :
    s.takes x = true ↔ sysBytes ≤ x ∧ s.heldAt x = false ∧ s.sealedHit x 1 = false := by
  simp only [State.takes, Bool.and_eq_true, decide_eq_true_eq, Bool.not_eq_true', and_assoc]

theorem takes_eq_false {s : State} {x : Nat} (h : x < sysBytes ∨ s.heldAt x = true ∨ s.sealedHit x 1 = true) : s.takes x = false := by
  rw [← Bool.not_eq_true, takes_iff]
  rintro ⟨habove, hfree, hopen⟩
  rcases h with hlow | hheld | hseal
  · exact Nat.not_lt.2 habove hlow
  · exact Bool.false_ne_true (hfree.symm.trans hheld)
  · exact Bool.false_ne_true (hopen.symm.trans hseal)

/-- What decides over the bytes of a write from outside stands: the seals, the allocations, the held source. -/
structure SameTakes (s t : State) : Prop where
  guard : t.guard = s.guard
  cols : t.cols = s.cols
  hold : t.wax.hold = s.wax.hold

theorem sameTakes_trans {s t u : State} (h : SameTakes s t) (k : SameTakes t u) : SameTakes s u :=
  ⟨k.guard.trans h.guard, k.cols.trans h.cols, k.hold.trans h.hold⟩

theorem sameTakes_supEvent (w : Word) (s : State) : SameTakes s (supEvent w s) := by
  obtain ⟨-, -, hcols, -, hguard, -, -, hwax⟩ := onlyGlass_keeps (postEvent_says .sup w s).1
  exact ⟨hguard, hcols, (congrArg WaxSt.hold hwax).trans rfl⟩

theorem sameTakes_waxEvent (w : Word) (s : State) : SameTakes s (waxEvent w s) := by
  obtain ⟨-, -, hcols, -, hguard, -, -, hwax⟩ := onlyGlass_keeps (postEvent_says .wax w s).1
  exact ⟨hguard, hcols, (congrArg WaxSt.hold hwax).trans rfl⟩

theorem heldAt_congr {s t : State} (h : SameTakes s t) : t.heldAt = s.heldAt := by
  funext x
  rw [State.heldAt, h.hold, ← State.heldAt]

theorem takes_congr {s t : State} (h : SameTakes s t) : t.takes = s.takes := by
  funext x
  have hseals : t.sealedHit x 1 = s.sealedHit x 1 := by simp only [State.sealedHit, State.isSealed, State.co, h.guard, h.cols]
  rw [State.takes, hseals, heldAt_congr h, ← State.takes]

/-- What a write from outside of bytes with enables has done when `t` stands after `s`. -/
structure WroteOut (a : Nat) (l : List (Option Byte)) (s t : State) : Prop where
  mem : t.sup.mem = putTaken s.takes a l s.sup.mem
  held : s.wax.evt.getLsbD 8 = true ∨ (∃ x, (enabledAt a l x).isSome = true ∧ s.heldAt x = true) → t.wax.evt.getLsbD 8 = true
  takes : SameTakes s t
  units : SameUnits s t

theorem wroteOut_disabled (a : Nat) (s : State) : WroteOut a [none] s s := by
  refine ⟨rfl, fun h => ?_, ⟨rfl, rfl, rfl⟩, sameUnits_refl s⟩
  rcases h with hevt | ⟨x, hx, -⟩
  · exact hevt
  · rw [enabledAt_cons] at hx
    simp [enabledAt] at hx

theorem wroteOut_append {a : Nat} {l k : List (Option Byte)} {s t u : State} (h : WroteOut a l s t)
    (g : WroteOut (a + l.length) k t u) : WroteOut a (l ++ k) s u := by
  refine ⟨?_, fun hbit => g.held ?_, sameTakes_trans h.takes g.takes, sameUnits_trans h.units g.units⟩
  · rw [g.mem, h.mem, takes_congr h.takes, putTaken_append]
  · rcases hbit with hevt | ⟨x, hx, hheld⟩
    · exact Or.inl (h.held (Or.inl hevt))
    · rw [enabledAt_append] at hx
      split at hx
      · exact Or.inl (h.held (Or.inr ⟨x, hx, hheld⟩))
      · exact Or.inr ⟨x, hx, by rw [heldAt_congr h.takes]; exact hheld⟩

theorem supPutIf_eq (ok : Nat → Bool) (a : Nat) (bs : List Byte) (s : State) :
    supPutIf ok a bs s = { s with sup := { s.sup with mem := putTaken ok a (bs.map some) s.sup.mem } } := by
  induction bs generalizing a s with
  | nil => rfl
  | cons b r ih =>
    rw [supPutIf, ih]
    cases hok : ok a <;> simp [putTaken, putByte, hok]

theorem overlaps_of_byte {a n b m i : Nat} (hi : i < n) (h : overlaps (a + i) 1 b m = true) : overlaps a n b m = true := by
  simp only [overlaps, Bool.and_eq_true, decide_eq_true_eq] at h ⊢
  omega

theorem sysHit_eq_true {a n : Nat} (hn : 0 < n) (h : a < sysBytes) : sysHit a n = true := by
  simp only [sysHit, overlaps, Bool.and_eq_true, decide_eq_true_eq]
  omega

theorem sysHit_eq_false {a : Nat} (n : Nat) (h : sysBytes ≤ a) : sysHit a n = false := by
  have hlow : ¬a < 0 + sysBytes := by omega
  simp only [sysHit, overlaps, decide_eq_false hlow, Bool.and_false, Bool.false_and]

/-- An address that lies badly shows in what is asked of the whole range. -/
theorem takes_of_range {a n i : Nat} {s : State} (hi : i < n) (hsys : sysHit a n = false) (hseal : s.sealedHit a n = false)
    (hheld : ((List.range n).any fun i => s.heldAt (a + i)) = false) : s.takes (a + i) = true := by
  have habove : sysBytes ≤ a + i := Nat.le_of_not_lt fun hlow =>
    Bool.false_ne_true (hsys.symm.trans (overlaps_of_byte hi (sysHit_eq_true Nat.one_pos hlow)))
  have hbyte : s.sealedHit (a + i) 1 = false := by
    rw [← Bool.not_eq_true, State.sealedHit, List.any_eq_true]
    rintro ⟨c, hc, hhit⟩
    rw [Bool.and_eq_true] at hhit
    refine Bool.false_ne_true (hseal.symm.trans (List.any_eq_true.2 ⟨c, hc, ?_⟩))
    rw [hhit.1, overlaps_of_byte hi hhit.2]
    rfl
  have hfree : s.heldAt (a + i) = false := Bool.eq_false_iff.2 fun hon =>
    Bool.false_ne_true (hheld.symm.trans (List.any_eq_true.2 ⟨i, List.mem_range.2 hi, hon⟩))
  exact takes_iff.2 ⟨habove, hfree, hbyte⟩

/-- The bytes of one run, before its events. -/
def putRun (a : Nat) (bs : List Byte) (s : State) : State :=
  if (sysHit a bs.length || s.sealedHit a bs.length) || (List.range bs.length).any fun i => s.heldAt (a + i) then
    supPutIf s.takes a bs s
  else supPut a bs s

/-- One run with SUP_EVT: it takes SYS when the run meets the system region or a sealed allocation. -/
def putRunSys (a : Nat) (bs : List Byte) (s : State) : State :=
  if sysHit a bs.length || s.sealedHit a bs.length then supEvent 2 (putRun a bs s) else putRun a bs s

theorem supWriteOut_eq (a : Nat) (bs : List Byte) (s : State) : supWriteOut a bs s =
    if (List.range bs.length).any fun i => s.heldAt (a + i) then waxEvent 256 (putRunSys a bs s) else putRunSys a bs s := rfl

/-- Each address that takes its byte holds it, and the wax state stands. -/
structure PutOut (a : Nat) (bs : List Byte) (s t : State) : Prop where
  mem : t.sup.mem = putTaken s.takes a (bs.map some) s.sup.mem
  wax : t.wax = s.wax
  takes : SameTakes s t
  units : SameUnits s t

theorem putOut_putRun (a : Nat) (bs : List Byte) (s : State) : PutOut a bs s (putRun a bs s) := by
  unfold putRun
  split
  · rw [supPutIf_eq]
    exact ⟨rfl, rfl, ⟨rfl, rfl, rfl⟩, ⟨rfl, rfl, rfl, rfl⟩⟩
  · next hclean =>
    simp only [Bool.not_eq_true, Bool.or_eq_false_iff] at hclean
    obtain ⟨⟨hsys, hseal⟩, hheld⟩ := hclean
    refine ⟨?_, rfl, ⟨rfl, rfl, rfl⟩, ⟨rfl, rfl, rfl, rfl⟩⟩
    rw [putTaken_all fun i hi => takes_of_range hi hsys hseal hheld]
    rfl

theorem putOut_supEvent {a : Nat} {bs : List Byte} {s t : State} (h : PutOut a bs s t) (w : Word) : PutOut a bs s (supEvent w t) :=
  ⟨by rw [supEvent_sup]; exact h.mem, (supEvent_wax w t).trans h.wax, sameTakes_trans h.takes (sameTakes_supEvent w t),
    sameUnits_trans h.units (sameUnits_supEvent w t)⟩

/-- One run of bytes from outside: WAX_EVT takes bit 8 when the run meets the held source (R163). -/
theorem wroteOut_supWriteOut (a : Nat) (bs : List Byte) (s : State) : WroteOut a (bs.map some) s (supWriteOut a bs s) := by
  have hput : PutOut a bs s (putRunSys a bs s) := by
    unfold putRunSys
    split
    · exact putOut_supEvent (putOut_putRun a bs s) 2
    · exact putOut_putRun a bs s
  rw [supWriteOut_eq]
  split
  · refine ⟨(congrArg SupSt.mem (waxEvent_sup 256 _)).trans hput.mem, fun _ => ?_,
      sameTakes_trans hput.takes (sameTakes_waxEvent 256 _), sameUnits_trans hput.units (sameUnits_waxEvent 256 _)⟩
    rw [waxEvent_wax, BitVec.getLsbD_or, show (256 : Word).getLsbD 8 = true from rfl, Bool.or_true]
  · next hnone =>
    refine ⟨hput.mem, fun hbit => ?_, hput.takes, hput.units⟩
    rw [hput.wax]
    refine hbit.resolve_right ?_
    rintro ⟨x, hx, hheld⟩
    obtain ⟨i, hi, rfl⟩ := exists_of_enabledAt hx
    rw [List.length_map] at hi
    exact hnone (List.any_eq_true.2 ⟨i, List.mem_range.2 hi, hheld⟩)

-- a write with byte enables (R281)

/-- The open run, if it holds bytes, then what follows it. -/
theorem wroteOut_openRun (o : Nat) (r : List Byte) (s : State) : WroteOut o (r.map some) s
    ((if r.isEmpty then [] else [(o, r)]).foldl (fun t x => supWriteOut x.1 x.2 t) s) := by
  cases r with
  | nil => exact ⟨rfl, fun h => h.resolve_right (by simp [enabledAt]), ⟨rfl, rfl, rfl⟩, sameUnits_refl s⟩
  | cons b r => exact wroteOut_supWriteOut o (b :: r) s

/-- The runs of a list, each written, come to its enabled bytes; the open run ends where the list begins. -/
theorem wroteOut_enabledRuns {a o : Nat} (l : List (Option Byte)) {r : List Byte} (s : State) (h : o + r.length = a) :
    WroteOut o (r.map some ++ l) s ((enabledRuns a l (o, r)).foldl (fun t x => supWriteOut x.1 x.2 t) s) := by
  induction l generalizing a o r s with
  | nil =>
    rw [List.append_nil]
    exact wroteOut_openRun o r s
  | cons e l ih =>
    cases e with
    | none =>
      have hopen := wroteOut_openRun o r s
      have hgap := wroteOut_append hopen (wroteOut_disabled _ _)
      rw [enabledRuns, List.foldl_append, List.append_cons]
      refine wroteOut_append hgap ?_
      rw [List.length_append, List.length_map, ← Nat.add_assoc, h]
      exact ih (r := []) _ rfl
    | some b =>
      rw [enabledRuns, List.append_cons, ← List.map_singleton, ← List.map_append]
      exact ih s (by rw [List.length_append, ← Nat.add_assoc, h]; rfl)

theorem wroteOut_supWriteEn (a : Nat) (l : List (Option Byte)) (s : State) : WroteOut a l s (supWriteEn a l s) :=
  wroteOut_enabledRuns (r := []) l s rfl

section
variable {a : Nat} {l : List (Option Byte)} {s t : State} (h : WroteOut a l s t) (w : Memory.wf s.sup.mem = true)
include h w

theorem wroteOut_read (x : Nat) :
    memRead t.sup.mem x = ((enabledAt a l x).filter fun _ => s.takes x).getD (memRead s.sup.mem x) := by
  rw [h.mem, memRead_putTaken _ _ _ _ w]

theorem wroteOut_read_untaken {x : Nat} (hx : s.takes x = false) : memRead t.sup.mem x = memRead s.sup.mem x := by
  rw [wroteOut_read h w, hx]
  cases enabledAt a l x <;> rfl

theorem wroteOut_read_disabled {x : Nat} (hx : enabledAt a l x = none) : memRead t.sup.mem x = memRead s.sup.mem x := by
  rw [wroteOut_read h w, hx]
  rfl

theorem wroteOut_read_taken {x : Nat} {b : Byte} (hx : enabledAt a l x = some b) (htake : s.takes x = true) :
    memRead t.sup.mem x = b := by
  rw [wroteOut_read h w, hx, htake]
  rfl

end

end Sys2Proof.Machine
end

section
/-! Allocations of the supers (R224), uncorrectable words (R236), and what BAR2 reads (R222, R281). -/

namespace Sys2Proof.Machine

-- allocations (R224)

theorem updCol_congr {c : ColId} {f g : Colony → Colony} {s : State} (e : f (s.co c) = g (s.co c)) : updCol c f s = updCol c g s := by
  simp only [State.co] at e
  simp only [updCol, updAt, e]

section
variable {c : ColId} {s : State}

theorem exec_supAllocWrite_inUse (h : ((s.jobs.any fun j => j.col == c) || s.hasModel c) = true) (k : Fin 3) (v : Word) :
    exec (.supAllocWrite c k v) s = .next (supEvent 4 s) :=
  if_pos (by rw [h]; rfl)

variable (h : ((s.jobs.any fun j => j.col == c) || s.hasModel c) = false) (v : Word)
include h

theorem exec_supAllocWrite_base_bad (hbad : s.allocBad c (fld v 0 16) (s.co c).caSize.toNat = true) :
    exec (.supAllocWrite c 0 v) s = .next (supEvent 4 s) :=
  if_pos (by rw [h]; exact hbad)

theorem exec_supAllocWrite_size_bad (hbad : s.allocBad c (s.co c).caBase.toNat (fld v 0 16) = true) :
    exec (.supAllocWrite c 1 v) s = .next (supEvent 4 s) :=
  if_pos (by rw [h]; exact hbad)

theorem exec_supAllocWrite_base (hok : s.allocBad c (fld v 0 16) (s.co c).caSize.toNat = false) :
    exec (.supAllocWrite c 0 v) s = .next (updCol c (fun x => { x with caBase := BitVec.ofNat 16 (fld v 0 16) }) s) :=
  (if_neg (by rw [h]; exact Bool.eq_false_iff.1 hok)).trans (congrArg _ (updCol_congr (by simp)))

theorem exec_supAllocWrite_size (hok : s.allocBad c (s.co c).caBase.toNat (fld v 0 16) = false) :
    exec (.supAllocWrite c 1 v) s = .next (updCol c (fun x => { x with caSize := BitVec.ofNat 16 (fld v 0 16) }) s) :=
  (if_neg (by rw [h]; exact Bool.eq_false_iff.1 hok)).trans (congrArg _ (updCol_congr (by simp)))

theorem exec_supAllocWrite_quota :
    exec (.supAllocWrite c 2 v) s = .next (updCol c (fun x => { x with csQuota := BitVec.ofNat 11 (fld v 0 11) }) s) :=
  (if_neg (by rw [h]; exact Bool.false_ne_true)).trans (congrArg _ (updCol_congr (by simp)))

end

theorem allocBad_system (c : ColId) (s : State) {b n : Nat} (hn : n ≠ 0) (h : b * 2 ^ 20 < 0x4000000) : s.allocBad c b n = true := by
  have hsize : (n != 0) = true := bne_iff_ne.2 hn
  have hlow : decide (b * 2 ^ 20 < sysBytes) = true := decide_eq_true h
  simp only [State.allocBad, hsize, hlow, Bool.true_or, Bool.and_self]

theorem allocBad_beyond (c : ColId) (s : State) {b n : Nat} (hn : n ≠ 0) (h : 2 ^ 35 < b * 2 ^ 20 + n * 2 ^ 20) :
    s.allocBad c b n = true := by
  have hsize : (n != 0) = true := bne_iff_ne.2 hn
  have hhigh : decide (supBytes < b * 2 ^ 20 + n * 2 ^ 20) = true := decide_eq_true h
  simp only [State.allocBad, hsize, hhigh, Bool.or_true, Bool.true_or, Bool.and_self]

-- uncorrectable words (R236)

theorem alignDown_three (a : Nat) : alignDown a 3 = a / 8 * 8 := by
  rw [alignDown, Nat.shiftRight_eq_div_pow, Nat.shiftLeft_eq]

/-- One word that proves uncorrectable is recorded, and queued for repair. -/
theorem noteUe_single (a : Nat) (s : State) : (noteUe [a] s).sup = { s.sup with
    evt := s.sup.evt ||| 1, ueAddr := BitVec.ofNat 35 a, ppr := (s.sup.ppr ++ [a]).eraseDups, ue := (s.sup.ue ++ [a]).eraseDups } :=
  supEvent_sup 1 _

theorem exec_supersUe (addr : BitVec 35) (s : State) : exec (.supersUe addr none) s = .next (noteUe [addr.toNat / 8 * 8] s) := by
  change Host.Outcome.next (noteUe [alignDown addr.toNat 3] s) = _
  rw [alignDown_three]

theorem exec_supersUe_job (addr : BitVec 35) (slot : SlotId) (s : State) :
    exec (.supersUe addr (some slot)) s = .next (ueEnds slot.val (noteUe [addr.toNat / 8 * 8] s)) := by
  change Host.Outcome.next (ueEnds slot.val (noteUe [alignDown addr.toNat 3] s)) = _
  rw [alignDown_three]

section
variable {s : State} {slot : Nat} {j : Job} (hj : s.job? slot = some j) (hst : j.st ≠ .ended) (hr : s.jobRuns slot = true)
  (ho : s.others j = [])
include hj hst hr ho

/-- The end of a job of this station alone leaves the supers' block. -/
theorem endJob_alone_sup (e : Ending) (w : StopWhy) : (endJob slot e w s).sup = s.sup := by
  have halone : stopOthers j e.reason (updJob slot (Job.endWith e) s) = updJob slot (Job.endWith e) s := stopOthers_alone _ ho
  rw [endJob_runs hj hst hr, askStops_only, noteEnd, halone]
  rfl

/-- The job for which an uncorrectable word was read stops with INTERNAL, source 1. -/
theorem ueEnds_alone (hend : j.ending = none) : (ueEnds slot s).sup = s.sup ∧
    ((ueEnds slot s).job? slot).bind (·.ending) = some { code := .internal, detail := 1 } ∧
    ((ueEnds slot s).job? slot).map (·.st) = some .stopping := by
  obtain ⟨hjob, -⟩ := endJob_alone hj hst hr ho { code := .internal, detail := 1 } (.cancel 0)
  rw [ueEnds, hjob]
  exact ⟨endJob_alone_sup hj hst hr ho _ _, endWith_first hend, rfl⟩

end

theorem sameUnits_job? {s t : State} (h : SameUnits s t) (slot : Nat) : t.job? slot = s.job? slot := job?_congr h.jobs slot

theorem sameUnits_jobRuns {s t : State} (h : SameUnits s t) (slot : Nat) : t.jobRuns slot = s.jobRuns slot :=
  jobRuns_congr (fun k => by rw [State.hv, h.hives, ← State.hv]) slot

-- the parts of a read (R281)

/-- Parts that end at boundaries of m bytes come to the whole range, given a part for every boundary that it meets. -/
theorem splitReads_sum {m : Nat} (hm : 0 < m) (k a len : Nat) (h : len = 0 ∨ len + a % m ≤ k * m) :
    ((splitReads m k a len).map (·.2)).sum = len := by
  induction k generalizing a len with
  | zero =>
    have hnone : len = 0 := by omega
    rw [hnone]
    rfl
  | succ k ih =>
    unfold splitReads
    split
    · next hz => rw [hz]; rfl
    · next hz =>
      have hmod := Nat.mod_lt a hm
      have hrest : len - min len (m - a % m) = 0 ∨
          len - min len (m - a % m) + (a + min len (m - a % m)) % m ≤ k * m := by
        rcases Nat.le_total len (m - a % m) with hlast | hmore
        · exact Or.inl (by omega)
        · have hbound : (a + (m - a % m)) % m = 0 := by
            have hdiv := Nat.div_add_mod a m
            rw [show a + (m - a % m) = m * (a / m + 1) by rw [Nat.mul_add]; omega, Nat.mul_mod_right]
          have hall := h.resolve_left hz
          rw [Nat.succ_mul] at hall
          rw [Nat.min_eq_right hmore, hbound]
          exact Or.inr (by omega)
      rw [List.map_cons, List.sum_cons, ih _ _ hrest]
      omega

theorem splitReads_le (m k a len : Nat) : ∀ x, x ∈ (splitReads m k a len).map (·.2) → x ≤ m := by
  induction k generalizing a len with
  | zero => exact fun x hx => absurd hx List.not_mem_nil
  | succ k ih =>
    unfold splitReads
    split
    · exact fun x hx => absurd hx List.not_mem_nil
    · intro x hx
      rcases List.mem_cons.1 hx with rfl | hin
      · exact Nat.le_trans (Nat.min_le_right _ _) (Nat.sub_le _ _)
      · exact ih _ _ x hin

/-- Bytes of each completion of a read (R281, log entry 79). -/
def readParts (m a len : Nat) : List Nat := (splitReads m (len / m + 2) a len).map (·.2)

theorem readParts_sum {m : Nat} (hm : 0 < m) (a len : Nat) : (readParts m a len).sum = len := by
  have hdiv := Nat.div_add_mod len m
  have hlen := Nat.mod_lt len hm
  have ha := Nat.mod_lt a hm
  have hmul : (len / m + 2) * m = m * (len / m) + 2 * m := by rw [Nat.add_mul, Nat.mul_comm m]
  exact splitReads_sum hm _ _ _ (Or.inr (by omega))

theorem maxPayload_pos (s : State) : 0 < s.maxPayload := by
  have hpow := Nat.two_pow_pos s.host.pf0.mps.toNat
  unfold State.maxPayload
  omega

-- what the outside reads (R222)

theorem supReadOut_succ (s : State) (a n : Nat) :
    s.supReadOut a (n + 1) = (if a < sysBytes then 0 else memRead s.sup.mem a) :: s.supReadOut (a + 1) n := by
  simp only [State.supReadOut, List.range_succ_eq_map, List.map_cons, List.map_map, Nat.add_zero]
  congr 1
  refine List.map_congr_left fun i _ => ?_
  simp only [Function.comp, Nat.succ_eq_add_one, Nat.add_assoc, Nat.add_comm 1]

theorem supReadOut_supers {s : State} {a : Nat} (n : Nat) (h : sysBytes ≤ a) : s.supReadOut a n = memReadN s.sup.mem a n := by
  induction n generalizing a with
  | zero => rfl
  | succ n ih => rw [supReadOut_succ, if_neg (Nat.not_lt.2 h), ih (Nat.le_succ_of_le h), memReadN]

theorem supReadOut_system {s : State} {a n : Nat} (h : a + n ≤ sysBytes) : s.supReadOut a n = List.replicate n 0 := by
  induction n generalizing a with
  | zero => rfl
  | succ n ih => rw [supReadOut_succ, if_pos (by omega), ih (by omega), List.replicate_succ]

theorem chunksOf_replicate {α : Type} (k fuel n : Nat) (x : α) (hk : 0 < k) (h : n ≤ fuel) :
    chunksOf k fuel (List.replicate (k * n) x) = List.replicate n (List.replicate k x) := by
  induction fuel generalizing n with
  | zero =>
    rw [Nat.le_zero.1 h]
    rfl
  | succ fuel ih =>
    cases n with
    | zero => rfl
    | succ n =>
      have hsome : (List.replicate (k * (n + 1)) x).isEmpty = false := by
        rw [List.isEmpty_replicate, decide_eq_false (Nat.ne_of_gt (Nat.mul_pos hk (Nat.succ_pos n)))]
      have htake : min k (k * (n + 1)) = k := Nat.min_eq_left (Nat.le_mul_of_pos_right k (Nat.succ_pos n))
      rw [chunksOf, hsome, if_neg Bool.false_ne_true, List.take_replicate, List.drop_replicate, htake, Nat.mul_succ,
        Nat.add_sub_cancel, ih n (Nat.le_of_succ_le_succ h), List.replicate_succ]

/-- Zero bytes are zero words. -/
theorem bytesToWords_zeros (n : Nat) : bytesToWords (List.replicate (4 * n) 0) = List.replicate n 0 := by
  rw [bytesToWords, List.length_replicate, chunksOf_replicate 4 _ n 0 (by decide) (by omega), List.map_replicate]
  rfl

-- BAR2 (R222, R226, R281)

theorem exec_bar2Access_silent {s : State} (hb : s.bar2Base = none) (a : Bar2) : exec (.bar2Access a) s = .next (bar2Refuse a .ur s) := by
  change execBar2Access a s = _
  simp only [execBar2Access, hb]

section
variable {s : State} {base : Nat} (hb : s.bar2Base = some base)
include hb

theorem exec_bar2Access_refused {a : Bar2} (h : s.pwr.held = true ∨ 0x10000000 < (bar2Span a).1 + (bar2Span a).2 ∨
    s.bar2Limit a < (bar2Span a).2) : exec (.bar2Access a) s = .next (bar2Refuse a .ca s) := by
  change execBar2Access a s = _
  simp only [execBar2Access, hb]
  exact if_pos (by simpa only [Bool.or_eq_true, decide_eq_true_eq, or_assoc] using h)

variable (hp : s.pwr.held = false)
include hp

theorem exec_bar2Access_write {off : Nat} {bs : List (Option Byte)} (hspan : off + bs.length ≤ 0x10000000)
    (hlen : bs.length ≤ s.maxPayload) :
    exec (.bar2Access (.write off bs)) s = .next ((supWriteEn (base + off) bs s).cpl .sc) := by
  have htakes : ¬(s.pwr.held || decide (0x10000000 < off + bs.length) || decide (s.maxPayload < bs.length)) = true := by
    simp [hp, hspan, hlen]
  change execBar2Access _ s = _
  simp only [execBar2Access, hb]
  exact if_neg htakes

/-- A read that meets no uncorrectable word: its data and parts, and SUP_EVT takes SYS when it touches the system region. -/
theorem exec_bar2Access_read {off n : Nat} (hspan : off + 4 * n ≤ 0x10000000) (hlen : n ≤ 1024)
    (hue : s.ueIn (max (base + off) sysBytes) (base + off + 4 * n - max (base + off) sysBytes) = []) :
    exec (.bar2Access (.read off n)) s = .next { (if sysHit (base + off) (4 * n) then supEvent 2 s else s) with resp := {
      data := bytesToWords (s.supReadOut (base + off) (4 * n)), parts := readParts s.maxPayload off (4 * n) } } := by
  have htakes : ¬(s.pwr.held || decide (0x10000000 < off + 4 * n) || decide (4096 < 4 * n)) = true := by
    simp [hp, hspan, Nat.mul_le_mul_left 4 hlen]
  change execBar2Access _ s = _
  simp only [execBar2Access, hb]
  refine (if_neg htakes).trans ?_
  simp only [bar2Span, hue]
  rfl

/-- A read of the supers changes nothing but the completion. -/
theorem exec_bar2Access_read_supers {off n : Nat} (hspan : off + 4 * n ≤ 0x10000000) (hlen : n ≤ 1024)
    (habove : 0x4000000 ≤ base + off) (hue : s.ueIn (base + off) (4 * n) = []) :
    exec (.bar2Access (.read off n)) s = .next { s with resp := {
      data := bytesToWords (memReadN s.sup.mem (base + off) (4 * n)), parts := readParts s.maxPayload off (4 * n) } } := by
  have hmax : max (base + off) sysBytes = base + off := Nat.max_eq_left habove
  rw [exec_bar2Access_read hb hp hspan hlen (by rw [hmax, Nat.add_sub_cancel_left, hue]), sysHit_eq_false _ habove,
    supReadOut_supers _ habove]
  rfl

/-- The system region reads zeros, and SUP_EVT takes SYS. -/
theorem exec_bar2Access_read_system {off n : Nat} (hspan : off + 4 * n ≤ 0x10000000) (hlen : n ≤ 1024) (hn : 0 < n)
    (hbelow : base + off + 4 * n ≤ 0x4000000) (hue : s.sup.ue = []) :
    exec (.bar2Access (.read off n)) s = .next { supEvent 2 s with resp := {
      data := List.replicate n 0, parts := readParts s.maxPayload off (4 * n) } } := by
  have hhit : sysHit (base + off) (4 * n) = true := by
    refine sysHit_eq_true (by omega) ?_
    rw [sysBytes]
    omega
  have hnone : ∀ a k, s.ueIn a k = [] := fun a k => by rw [State.ueIn, hue, List.filter_nil]
  rw [exec_bar2Access_read hb hp hspan hlen (hnone _ _), hhit, if_pos rfl, supReadOut_system hbelow, bytesToWords_zeros]

end

end Sys2Proof.Machine

section

open Sys2Proof Sys2Proof.Machine

/-- Settles O26: each command has an `exec_` equation per outcome; what a write from outside leaves where is `WroteOut`. -/
theorem supersAllocationsAndErrors : Obligations.SupersAllocationsAndErrors := by
  refine ⟨fun c v s => ⟨fun hused k => exec_supAllocWrite_inUse hused k v, ?free, fun b n => allocBad_system c s,
      fun b n => allocBad_beyond c s⟩,
    fun addr s => ⟨?word, fun slot j hj hst hend _ ho hr => ?job⟩,
    fun s => ⟨fun hb => ⟨fun off n => exec_bar2Access_silent hb _, fun off bs => exec_bar2Access_silent hb _⟩,
      fun base hb => ⟨fun off n => exec_bar2Access_refused hb (a := .read off n),
        fun off bs => exec_bar2Access_refused hb (a := .write off bs), fun off n hp hspan hlen habove hue => ?supers,
        fun off n hp hspan hlen hn hbelow hue => ?system, fun off bs hp hspan hlen hwf => ?write⟩⟩⟩
  case free =>
    exact fun hfree => ⟨exec_supAllocWrite_base_bad hfree v, exec_supAllocWrite_base hfree v, exec_supAllocWrite_size_bad hfree v,
      exec_supAllocWrite_size hfree v, exec_supAllocWrite_quota hfree v⟩
  case word =>
    have hunits := sameUnits_noteUe [addr.toNat / 8 * 8] s
    refine ⟨_, exec_supersUe addr s, ?_⟩
    rw [noteUe_single]
    exact ⟨rfl, rfl, by simp, by simp, rfl, hunits.jobs, hunits.hives⟩
  case job =>
    have hunits := sameUnits_noteUe [addr.toNat / 8 * 8] s
    obtain ⟨hsup, hends⟩ := ueEnds_alone ((sameUnits_job? hunits slot.val).trans hj) (running_ne_ended hst)
      ((sameUnits_jobRuns hunits slot.val).trans hr) ((others_congr hunits.swarm j).trans ho) hend
    refine ⟨_, exec_supersUe_job addr slot s, ?_, hends⟩
    rw [hsup, noteUe_single]
  case supers =>
    exact ⟨_, exec_bar2Access_read_supers hb hp hspan hlen habove hue, rfl, rfl, rfl, rfl, readParts_sum (maxPayload_pos s) _ _,
      splitReads_le _ _ _ _⟩
  case system =>
    refine ⟨_, exec_bar2Access_read_system hb hp hspan hlen hn hbelow hue, rfl, ?_, ?_, (sameUnits_supEvent 2 s).hives⟩
    · exact congrArg SupSt.evt (supEvent_sup 2 s)
    · exact (congrArg SupSt.mem (supEvent_sup 2 s)).trans rfl
  case write =>
    have hwrote := wroteOut_supWriteEn (base + off) bs s
    refine ⟨_, exec_bar2Access_write hb hp hspan hlen, rfl, hwrote.units.hives, hwrote.units.jobs, fun a ha => ?_,
      fun i hi => wroteOut_read_disabled hwrote hwf (enabledAt_of_getElem? hi),
      fun i b hi habove hfree hopen => wroteOut_read_taken hwrote hwf (enabledAt_of_getElem? hi) (takes_iff.2 ⟨habove, hfree, hopen⟩),
      fun ⟨i, b, hi, hheld⟩ => hwrote.held (Or.inr ⟨_, Option.isSome_of_eq_some (enabledAt_of_getElem? hi), hheld⟩)⟩
    rcases ha with hlow | hheld | hseal | hbefore | hafter
    · exact wroteOut_read_untaken hwrote hwf (takes_eq_false (Or.inl hlow))
    · exact wroteOut_read_untaken hwrote hwf (takes_eq_false (Or.inr (Or.inl hheld)))
    · exact wroteOut_read_untaken hwrote hwf (takes_eq_false (Or.inr (Or.inr hseal)))
    · exact wroteOut_read_disabled hwrote hwf (enabledAt_outside (Or.inl hbefore))
    · exact wroteOut_read_disabled hwrote hwf (enabledAt_outside (Or.inr hafter))

end

end

section
/-! Queues, doorbells and the mailbox of a colony (R241, R242, R251, R267, R281, R518). -/

namespace Sys2Proof.Machine

-- updates of one colony

theorem updCol_eq_self {c : ColId} {f : Colony → Colony} {s : State} (e : f (s.co c) = s.co c) : updCol c f s = s := by
  have hset : s.cols.set c (f s.cols[c]) = s.cols := by
    rw [show f s.cols[c] = s.cols[c] from e]
    exact Vector.set_getElem_self _
  simp only [updCol, updAt, hset]

/-- Two updates of a colony's registers that agree on what it holds are one. -/
theorem updVf_congr {c : ColId} {f g : VfRegs → VfRegs} {s : State} (e : f (s.co c).r = g (s.co c).r) : updVf c f s = updVf c g s :=
  updCol_congr (f := fun x => { x with r := f x.r }) (g := fun x => { x with r := g x.r })
    (congrArg (fun r => ({ s.co c with r := r } : Colony)) e)

/-- An update that leaves a colony's registers as they are leaves the state. -/
theorem updVf_eq_self {c : ColId} {f : VfRegs → VfRegs} {s : State} (e : f (s.co c).r = (s.co c).r) : updVf c f s = s :=
  updCol_eq_self (f := fun x => { x with r := f x.r }) (congrArg (fun r => ({ s.co c with r := r } : Colony)) e)

@[simp] theorem updVf_co (c : ColId) (f : VfRegs → VfRegs) (s : State) : (updVf c f s).co c = { s.co c with r := f (s.co c).r } :=
  updCol_co c _ s

theorem updVf_r (c : ColId) (f : VfRegs → VfRegs) (s : State) : ((updVf c f s).co c).r = f (s.co c).r :=
  congrArg Colony.r (updVf_co c f s)

theorem updVf_co_other {c d : ColId} (f : VfRegs → VfRegs) (s : State) (hd : d ≠ c) : (updVf c f s).co d = s.co d :=
  updCol_co_other c d _ s hd

@[simp] theorem updSq_sq (c : ColId) (q : Fin 4) (f : Sq → Sq) (s : State) : (updSq c q f s).sq c q = f (s.sq c q) := by
  simp only [State.sq, updSq, updVf_co, updAt_same]

theorem updSq_sq_other {c : ColId} {q k : Fin 4} (f : Sq → Sq) (s : State) (hk : k ≠ q) : (updSq c q f s).sq c k = s.sq c k := by
  simp only [State.sq, updSq, updVf_co]
  exact updAt_other _ _ _ _ hk

/-- Two updates of a submission queue that agree on what it holds are one. -/
theorem updSq_congr {c : ColId} {q : Fin 4} {f g : Sq → Sq} {s : State} (e : f (s.sq c q) = g (s.sq c q)) :
    updSq c q f s = updSq c q g s :=
  updVf_congr (f := fun r => { r with sq := updAt r.sq q f }) (g := fun r => { r with sq := updAt r.sq q g })
    (congrArg (fun x => ({ (s.co c).r with sq := (s.co c).r.sq.set q x } : VfRegs)) e)

theorem updSq_eq_self {c : ColId} {q : Fin 4} {f : Sq → Sq} {s : State} (e : f (s.sq c q) = s.sq c q) : updSq c q f s = s := by
  refine updVf_eq_self (f := fun r => { r with sq := updAt r.sq q f }) ?_
  have hset : (s.co c).r.sq.set q (f (s.co c).r.sq[q]) = (s.co c).r.sq := by
    rw [show f (s.co c).r.sq[q] = (s.co c).r.sq[q] from e]
    exact Vector.set_getElem_self _
  simp only [updAt, hset]

-- fields of a register word

theorem natBits_eq (v lo len : Nat) : natBits v lo len = v / 2 ^ lo % 2 ^ len := by
  rw [natBits, Nat.shiftRight_eq_div_pow]

/-- Bits 3 to 0 of a queue configuration are LOG2. -/
theorem fld_log2 (v : Word) : fld v 0 4 = v.toNat % 16 := rfl

/-- Bit 4 of a queue configuration is EN. -/
theorem bit_four (v : Word) : bit v 4 = decide (v.toNat / 16 % 2 = 1) := by
  rw [bit, BitVec.getLsbD, Nat.testBit_eq_decide_div_mod_eq]

-- doorbells (R241, R242, R251)

/-- What a doorbell is refused for: its ring is disabled, its colony is in reset, or the index lies beyond the ring. -/
theorem doorbell_refused {en busy : Bool} {i n : Nat} :
    (!en || busy || decide (n ≤ i)) = true ↔ en = false ∨ busy = true ∨ n ≤ i := by
  simp [or_assoc]

theorem doorbell_taken {en busy : Bool} {i n : Nat} (he : en = true) (hb : busy = false) (hi : i < n) :
    ¬(!en || busy || decide (n ≤ i)) = true := by
  simp [he, hb, hi]

theorem exec_sqDoorbell {c : ColId} {q : Fin 4} {v : Word} {s : State} (he : (s.sq c q).en = true) (hb : (s.co c).resetBusy = false)
    (hv : v.toNat % 4096 < 2 ^ (s.sq c q).log2.toNat) :
    exec (.sqDoorbell c q v) s = .next (updSq c q (fun x => { x with tail := v.toNat % 4096 }) s) :=
  congrArg Host.Outcome.next (if_neg (doorbell_taken he hb hv))

theorem exec_sqDoorbell_bad {c : ColId} {q : Fin 4} {v : Word} {s : State} (h : (s.sq c q).en = false ∨ (s.co c).resetBusy = true ∨
    2 ^ (s.sq c q).log2.toNat ≤ v.toNat % 4096) : exec (.sqDoorbell c q v) s = .next (colErr c 1 s) :=
  congrArg Host.Outcome.next (if_pos (doorbell_refused.2 h))

theorem exec_cqDoorbell {c : ColId} {v : Word} {s : State} (he : (s.co c).r.cqEn = true) (hb : (s.co c).resetBusy = false)
    (hv : v.toNat % 4096 < 2 ^ (s.co c).r.cqLog2.toNat) :
    exec (.cqDoorbell c v) s = .next (updVf c (fun r => { r with cqHead := v.toNat % 4096 }) s) :=
  congrArg Host.Outcome.next (if_neg (doorbell_taken he hb hv))

theorem exec_cqDoorbell_bad {c : ColId} {v : Word} {s : State} (h : (s.co c).r.cqEn = false ∨ (s.co c).resetBusy = true ∨
    2 ^ (s.co c).r.cqLog2.toNat ≤ v.toNat % 4096) : exec (.cqDoorbell c v) s = .next (colErr c 1 s) :=
  congrArg Host.Outcome.next (if_pos (doorbell_refused.2 h))

/-- A colony error sets its bit of COL_ERR and stands to no other colony. -/
theorem colErr_co (c : ColId) (b : Nat) (s : State) :
    (colErr c b s).co = (updVf c (fun r => { r with err := setBit r.err b }) s).co := by
  obtain ⟨-, -, -, hcols, -⟩ := onlySent_keeps (colErr_says c b s)
  funext d
  simp only [State.co, hcols]

theorem colErr_keeps (c : ColId) (b : Nat) (s : State) : (colErr c b s).jobs = s.jobs ∧ (colErr c b s).hives = s.hives := by
  obtain ⟨-, hjobs, hhives, -⟩ := onlySent_keeps (colErr_says c b s)
  exact ⟨hjobs, hhives⟩

-- queue configuration (R267)

theorem exec_queueConfigWrite (c : ColId) (off : Nat) (v : Word) (s : State) :
    exec (.queueConfigWrite c off v) s = .next (queueWrite c off v s) := rfl

theorem queueWrite_cqBaseLo (c : ColId) (v : Word) (s : State) : queueWrite c 0x1000 v s =
    if (s.co c).r.cqEn then s else updVf c (fun r => { r with cqBase := setLo r.cqBase v }) s := rfl

theorem queueWrite_cqBaseHi (c : ColId) (v : Word) (s : State) : queueWrite c 0x1004 v s =
    if (s.co c).r.cqEn then s else updVf c (fun r => { r with cqBase := setHi r.cqBase v }) s := rfl

theorem queueWrite_cqCfg (c : ColId) (v : Word) (s : State) : queueWrite c 0x1008 v s = cqCfg c v s := rfl

theorem queueWrite_cqMod (c : ColId) (v : Word) (s : State) : queueWrite c 0x100C v s = updVf c (fun r => { r with
    modCnt := BitVec.ofNat 8 (v.toNat % 256), modUsec := BitVec.ofNat 16 (v.toNat / 256 % 65536) }) s := by
  have husec : v.toNat / 256 % 65536 = fld v 8 16 := (natBits_eq v.toNat 8 16).symm
  rw [husec]
  rfl

/-- The registers of submission queue q stand 16 bytes apart. -/
theorem queueWrite_sqBaseLo (c : ColId) (q : Fin 4) (v : Word) (s : State) : queueWrite c (0x1040 + 16 * q.val) v s =
    updSq c q (fun x => if x.en then x else { x with base := setLo x.base v }) s :=
  match q with | 0 | 1 | 2 | 3 => rfl

theorem queueWrite_sqBaseHi (c : ColId) (q : Fin 4) (v : Word) (s : State) : queueWrite c (0x1044 + 16 * q.val) v s =
    updSq c q (fun x => if x.en then x else { x with base := setHi x.base v }) s :=
  match q with | 0 | 1 | 2 | 3 => rfl

theorem queueWrite_sqCfg (c : ColId) (q : Fin 4) (v : Word) (s : State) : queueWrite c (0x1048 + 16 * q.val) v s = sqCfg c q v s :=
  match q with | 0 | 1 | 2 | 3 => rfl

section
variable {v : Word} (hlo : 4 ≤ v.toNat % 16) (hhi : v.toNat % 16 ≤ 12)
include hlo hhi

theorem goodLog2_of_range : goodLog2 (fld v 0 4) = true := by
  rw [goodLog2, fld_log2, decide_eq_true hlo, decide_eq_true hhi, Bool.and_self]

/-- Enabling the completion queue starts its indices at 0 and PHASE at 1. -/
theorem cqCfg_enables {c : ColId} {s : State} (hc : (s.co c).r.cqEn = false) (hv : v.toNat / 16 % 2 = 1) : cqCfg c v s = updVf c (fun r =>
    { r with cqLog2 := BitVec.ofNat 4 (v.toNat % 16), cqEn := true, cqTail := 0, cqHead := 0, cqPhase := true }) s := by
  simp only [cqCfg, bit_four, hv, hc, goodLog2_of_range hlo hhi, decide_true, Bool.not_false, Bool.and_self, if_true]
  refine updVf_congr ?_
  simp only [hc, Bool.not_false]
  rfl

/-- A submission queue is enabled while the completion queue is; its indices start at 0. -/
theorem sqCfg_enables {c : ColId} {q : Fin 4} {s : State} (hq : (s.sq c q).en = false) (hc : (s.co c).r.cqEn = true)
    (hv : v.toNat / 16 % 2 = 1) : sqCfg c q v s =
      updSq c q (fun x => { x with log2 := BitVec.ofNat 4 (v.toNat % 16), en := true, head := 0, tail := 0 }) s := by
  simp only [sqCfg, bit_four, hv, hc, hq, goodLog2_of_range hlo hhi, decide_true, Bool.not_false, Bool.and_self, Bool.or_true, if_true]
  refine updSq_congr ?_
  simp only [hq, Bool.not_false]
  rfl

end

/-- The completion queue stays enabled while a submission queue is. -/
theorem cqCfg_stays {c : ColId} {v : Word} {s : State} (hc : (s.co c).r.cqEn = true) (hv : v.toNat / 16 % 2 = 0)
    (hq : ∃ q : Fin 4, (s.sq c q).en = true) : cqCfg c v s = s := by
  have hany : (s.co c).r.sq.toList.any (·.en) = true := by
    obtain ⟨q, hq⟩ := hq
    exact List.any_eq_true.2 ⟨_, Vector.mem_toList_iff.2 (Vector.getElem_mem q.isLt), hq⟩
  have hbit : ¬v.toNat / 16 % 2 = 1 := by omega
  simp only [cqCfg, bit_four, hbit, hc, hany, decide_false, Bool.not_true, Bool.false_and, Bool.true_or, Bool.and_self,
    Bool.false_eq_true, if_false]
  refine updVf_eq_self ?_
  simp only [hc, Bool.not_true, Bool.and_false, Bool.false_eq_true, if_false]
  rw [← hc]

/-- With the completion queue disabled a submission queue stays disabled. -/
theorem sqCfg_needs_cq {c : ColId} {q : Fin 4} {s : State} (v : Word) (hq : (s.sq c q).en = false) (hc : (s.co c).r.cqEn = false) :
    ((sqCfg c q v s).sq c q).en = false := by
  simp [sqCfg, hq, hc]

theorem sqCfg_keeps (c : ColId) (q : Fin 4) (v : Word) (s : State) : (sqCfg c q v s).jobs = s.jobs ∧
    ∀ k, k ≠ q → (sqCfg c q v s).sq c k = s.sq c k :=
  ⟨rfl, fun _ hk => updSq_sq_other _ s hk⟩

-- the mailbox (R281, R518)

/-- Bytes written with their enables are bytes every one of which is taken. -/
theorem putEnabled_eq_putTaken (m : Memory) (a : Nat) (l : List (Option Byte)) : putEnabled m a l = putTaken (fun _ => true) a l m := by
  induction l generalizing m a with
  | nil => rfl
  | cons o l ih =>
    cases o with
    | none => exact ih m (a + 1)
    | some b => exact ih (memWrite m a b) (a + 1)

/-- The mailbox takes bytes with their enables. -/
def mailboxTakes (off : Nat) (bytes : List (Option Byte)) (r : VfRegs) : VfRegs :=
  { r with mailbox := putEnabled r.mailbox off bytes }

theorem mailboxTakes_read {r : VfRegs} {off : Nat} {bytes : List (Option Byte)} {x : Nat} (w : r.mailbox.wf = true) :
    memRead (mailboxTakes off bytes r).mailbox x = (enabledAt off bytes x).getD (memRead r.mailbox x) := by
  rw [mailboxTakes, putEnabled_eq_putTaken, memRead_putTaken _ off bytes x w]
  cases enabledAt off bytes x <;> rfl

theorem exec_mailboxWrite_crosses {c : ColId} {off : Nat} {bytes : List (Option Byte)} {s : State} (h : 512 < off + bytes.length) :
    exec (.mailboxWrite c off bytes) s = .next (aerUnc (.vf c) 15 s) := by
  change execMailboxWrite c off bytes s = _
  simp only [execMailboxWrite, mailboxPut, h, if_true]
  rfl

theorem exec_mailboxWrite_within {c : ColId} {off : Nat} {bytes : List (Option Byte)} {s : State} (h : off + bytes.length ≤ 512) :
    exec (.mailboxWrite c off bytes) s =
      .next ((updVf c (mailboxTakes off bytes) s).cpl .sc) := by
  change execMailboxWrite c off bytes s = _
  simp only [execMailboxWrite, mailboxPut, Nat.not_lt.2 h, if_false]
  rfl

end Sys2Proof.Machine

section

open Sys2Proof Sys2Proof.Machine

/-- Settles O28: a doorbell is one update of its ring or the error of its colony, a register write is what `queueWrite` gives for its
offset, and the mailbox takes the bytes whose enables are set (`mailboxTakes_read`). -/
theorem queuesDoorbellsAndMailboxes : Obligations.QueuesDoorbellsAndMailboxes := by
  refine ⟨fun c q v s => ⟨exec_sqDoorbell, exec_sqDoorbell_bad, exec_cqDoorbell, exec_cqDoorbell_bad, fun b => ?err⟩,
    fun c v s => ⟨fun hc => ?locked, fun hc => ?base, fun hc hv hlo hhi => ?cqOn, fun hc hv hq => ?cqStays, ?moderation,
      fun q hq hc hv hlo hhi => ?sqOn, fun q hq hc => ?sqOff, fun q hq => ?sqLocked⟩,
    fun c off bytes s => ⟨exec_mailboxWrite_crosses, fun hlen hwf => ?mailbox⟩⟩
  case err =>
    obtain ⟨hjobs, hhives⟩ := colErr_keeps c b s
    refine ⟨by rw [colErr_co, updVf_co], hjobs, hhives, fun d hd => ?_⟩
    rw [colErr_co, updVf_co_other _ s hd]
  case locked =>
    simp only [exec_queueConfigWrite, queueWrite_cqBaseLo, queueWrite_cqBaseHi, hc, if_true, and_self]
  case base =>
    simp only [exec_queueConfigWrite, queueWrite_cqBaseLo, queueWrite_cqBaseHi, hc, Bool.false_eq_true, if_false, and_self]
  case cqOn => rw [exec_queueConfigWrite, queueWrite_cqCfg, cqCfg_enables hlo hhi hc hv]
  case cqStays => rw [exec_queueConfigWrite, queueWrite_cqCfg, cqCfg_stays hc hv hq]
  case moderation => rw [exec_queueConfigWrite, queueWrite_cqMod]
  case sqOn => rw [exec_queueConfigWrite, queueWrite_sqCfg, sqCfg_enables hlo hhi hq hc hv]
  case sqOff =>
    obtain ⟨hjobs, hother⟩ := sqCfg_keeps c q v s
    exact ⟨_, by rw [exec_queueConfigWrite, queueWrite_sqCfg], sqCfg_needs_cq v hq hc, hjobs, hother⟩
  case sqLocked =>
    rw [exec_queueConfigWrite, exec_queueConfigWrite, queueWrite_sqBaseLo, queueWrite_sqBaseHi, updSq_eq_self (by rw [hq]; rfl),
      updSq_eq_self (by rw [hq]; rfl)]
    exact ⟨rfl, rfl⟩
  case mailbox =>
    refine ⟨_, exec_mailboxWrite_within hlen, rfl, rfl, fun d hd => updVf_co_other (mailboxTakes off bytes) s hd, ?_⟩
    have hr : (((updVf c (mailboxTakes off bytes) s).cpl .sc).co c).r = mailboxTakes off bytes (s.co c).r := updVf_r c _ s
    rw [hr]
    refine ⟨fun i b hi => ?_, fun i hi => ?_, fun a ha => ?_, rfl, rfl⟩
    · rw [mailboxTakes_read hwf, enabledAt_of_getElem? hi, Option.getD_some]
    · rw [mailboxTakes_read hwf, enabledAt_of_getElem? hi, Option.getD_none]
    · rw [mailboxTakes_read hwf, enabledAt_outside ha, Option.getD_none]

end

end

section
/-! A fetched descriptor becomes a job of the table, or is recorded as a bad one (R239 to R241, R243, R245). -/

namespace Sys2Proof.Machine

-- requests to the cellar (R290)

/-- Only what the part sends, what has left it, the completion it returned, its host interface and the free values taken moved. -/
def OnlyTraffic (s t : State) : Prop :=
  t = { s with tx := t.tx, wired := t.wired, resp := t.resp, freeCtr := t.freeCtr, host := t.host }

theorem onlyTraffic_refl (s : State) : OnlyTraffic s s := rfl

theorem onlyTraffic_trans {s t u : State} (h : OnlyTraffic s t) (k : OnlyTraffic t u) : OnlyTraffic s u := by
  rw [OnlyTraffic] at *
  rw [h] at k
  exact k

theorem onlyTraffic_of_onlySent {s t : State} (h : OnlySent s t) : OnlyTraffic s t := by
  rw [OnlyTraffic, h]

theorem onlyTraffic_readsEnd (key : RdKey) (s : State) : OnlyTraffic s (readsEnd key s) := rfl

theorem onlyTraffic_cellarRead (f : Fn) (key : RdKey) (addr len : Nat) (s : State) : OnlyTraffic s (cellarRead f key addr len s) := by
  unfold cellarRead
  generalize splitReads _ _ _ _ = l
  induction l generalizing s with
  | nil => exact onlyTraffic_refl s
  | cons x r ih => exact onlyTraffic_trans (onlyTraffic_of_onlySent (onlySent_cellarTx f _ s)) (ih _)

theorem onlyTraffic_readEntry (c : ColId) (q : Fin 4) (s : State) : OnlyTraffic s (readEntry c q s) :=
  onlyTraffic_trans (onlyTraffic_cellarRead _ _ _ _ s) (onlyTraffic_readsEnd _ _)

theorem onlyTraffic_tickFree (s : State) : OnlyTraffic s s.tickFree := rfl

/-- The colonies, the job table and the hives stand through the traffic with the cellar. -/
theorem onlyTraffic_keeps {s t : State} (h : OnlyTraffic s t) : t.cols = s.cols ∧ t.jobs = s.jobs ∧ t.gens = s.gens ∧
    t.order = s.order ∧ t.hives = s.hives := by
  rw [OnlyTraffic] at h
  rw [h]
  exact ⟨rfl, rfl, rfl, rfl, rfl⟩

theorem co_congr {s t : State} (h : t.cols = s.cols) (c : ColId) : t.co c = s.co c := by
  simp only [State.co, h]

theorem sq_congr {s t : State} (h : t.cols = s.cols) (c : ColId) (q : Fin 4) : t.sq c q = s.sq c q := by
  simp only [State.sq, co_congr h]

-- the slot that a fetch takes (R239, R243)

theorem mem_freeSlots {s : State} {n : Nat} : n ∈ s.freeSlots ↔ n < 960 ∧ s.job? n = none := by
  simp [State.freeSlots]

theorem freeSlots_congr {s t : State} (h : t.jobs = s.jobs) : t.freeSlots = s.freeSlots := by
  simp only [State.freeSlots, job?_congr h]

/-- Round-robin names a queue only while a slot is free. -/
theorem freeSlots_of_nextFetch {s : State} {c : ColId} {q : Fin 4} (h : s.nextFetch = some (c, q)) : s.freeSlots ≠ [] := by
  obtain ⟨d, -, hd⟩ := List.exists_of_findSome?_eq_some h
  obtain ⟨k, hk, -⟩ := Option.map_eq_some_iff.1 hd
  have hfetch : s.canFetch d k = true := List.find?_some hk
  rw [State.canFetch, Bool.and_eq_true] at hfetch
  simpa using hfetch.2

theorem getD_mod_mem {α : Type} {l : List α} (h : l ≠ []) (n : Nat) (d : α) : l.getD (n % l.length) d ∈ l := by
  rw [List.getD_eq_getElem?_getD, List.getElem?_eq_getElem (Nat.mod_lt n (List.length_pos_iff.2 h)), Option.getD_some]
  exact List.getElem_mem _

-- an entry is taken, a slot is filled

/-- The head of a ring moves on by one entry. -/
def Sq.passed (x : Sq) : Sq := { x with head := (x.head + 1) % ringLen x.log2 }

/-- The registers of a VF after the entry at the head of queue q is taken. -/
def VfRegs.passed (q : Fin 4) (r : VfRegs) : VfRegs := { r with sq := updAt r.sq q Sq.passed }

theorem passEntry_r (c : ColId) (q : Fin 4) (s : State) : ((passEntry c q s).co c).r = (s.co c).r.passed q := by
  have hr : ((updSq c q Sq.passed s).co c).r = (s.co c).r.passed q := updVf_r c _ s
  rw [← hr, passEntry, updCol_co]
  rfl

theorem passEntry_head (c : ColId) (q : Fin 4) (s : State) : ((passEntry c q s).sq c q).head =
    ((s.sq c q).head + 1) % 2 ^ (s.sq c q).log2.toNat := by
  rw [State.sq, passEntry_r, VfRegs.passed, updAt_same]
  rfl

theorem fillSlot_co (slot : Nat) (j : Job) (s : State) (c : ColId) : (fillSlot slot j s).co c = s.co c := rfl

-- JOB_FETCH

/-- A queue job as it is fetched, before its slot is known. -/
def fetchedJob (c : ColId) (q : Fin 4) (bytes : List Byte) (span : DWord) : Job :=
  { slot := 0, gen := 0, col := c, kind := .queue q, d := parseDesc bytes, part := colPart c, span := span }

section
variable {c : ColId} {q : Fin 4} {bytes : List Byte} {s : State} (hn : s.nextFetch = some (c, q)) (hlen : bytes.length = 64)
include hn hlen

/-- A descriptor without fault fills a free slot. -/
theorem exec_jobFetch (hd : descFail bytes (s.co c).highOk = none) : ∃ slot u, slot ∈ s.freeSlots ∧ OnlyTraffic s u ∧
    exec (.jobFetch c q bytes) s = .next (fillSlot slot (fetchedJob c q bytes (s.co c).span) (passEntry c q u)) := by
  obtain ⟨hcols, hjobs, -⟩ := onlyTraffic_keeps (onlyTraffic_readEntry c q s)
  have hslots := freeSlots_congr hjobs
  refine ⟨(readEntry c q s).freeSlots.getD (((readEntry c q s).free 16).toNat % (readEntry c q s).freeSlots.length) 0,
    (readEntry c q s).tickFree, by rw [hslots]; exact getD_mod_mem (freeSlots_of_nextFetch hn) _ 0,
    onlyTraffic_trans (onlyTraffic_readEntry c q s) (onlyTraffic_tickFree _), ?_⟩
  change execJobFetch c q bytes s = _
  simp only [execJobFetch, hn, hlen, hd, bne_self_eq_false, Bool.or_self, Bool.false_eq_true, if_false, fetchedJob, co_congr hcols]

theorem exec_jobFetch_bad {code : Byte} (hd : descFail bytes (s.co c).highOk = some code) :
    exec (.jobFetch c q bytes) s = .next (badDesc c q code (readEntry c q s)) := by
  change execJobFetch c q bytes s = _
  simp only [execJobFetch, hn, hlen, hd, bne_self_eq_false, Bool.or_self, Bool.false_eq_true, if_false]

end

/-- The first bad descriptor is recorded with its queue and index (R245). -/
def VfRegs.noteBad (q : Fin 4) (code : Byte) (r : VfRegs) : VfRegs :=
  if r.errCode = 0 then { r with errCode := code, errSq := BitVec.ofNat 2 q.val, errIdx := BitVec.ofNat 12 r.sq[q].head } else r

theorem noteBad_says (q : Fin 4) (code : Byte) (r : VfRegs) : (r.noteBad q code).sq = r.sq ∧ (r.noteBad q code).err = r.err ∧
    (r.errCode = 0 → (r.noteBad q code).errCode = code ∧ (r.noteBad q code).errSq = BitVec.ofNat 2 q.val ∧
      (r.noteBad q code).errIdx = BitVec.ofNat 12 r.sq[q].head) ∧
    (r.errCode ≠ 0 → r.noteBad q code = r) := by
  by_cases h : r.errCode = 0
  · rw [VfRegs.noteBad, if_pos h]
    exact ⟨rfl, rfl, fun _ => ⟨rfl, rfl, rfl⟩, fun hne => absurd h hne⟩
  · rw [VfRegs.noteBad, if_neg h]
    exact ⟨rfl, rfl, fun h0 => absurd h0 h, fun _ => rfl⟩

theorem badDesc_eq (c : ColId) (q : Fin 4) (code : Byte) (s : State) :
    badDesc c q code s = colErr c 0 (passEntry c q (updVf c (VfRegs.noteBad q code) s)) := by
  unfold badDesc
  exact congrArg (fun t => colErr c 0 (passEntry c q t)) (updVf_congr rfl)

/-- A bad descriptor is passed, recorded, and reported in COL_ERR. -/
theorem badDesc_r (c : ColId) (q : Fin 4) (code : Byte) (s : State) : ((badDesc c q code s).co c).r =
    { ((s.co c).r.noteBad q code).passed q with err := setBit (s.co c).r.err 0 } := by
  obtain ⟨-, herr, -⟩ := noteBad_says q code (s.co c).r
  rw [badDesc_eq, colErr_co, updVf_r, passEntry_r, updVf_r, ← herr]
  rfl

theorem badDesc_keeps (c : ColId) (q : Fin 4) (code : Byte) (s : State) :
    (badDesc c q code s).jobs = s.jobs ∧ (badDesc c q code s).hives = s.hives := by
  rw [badDesc_eq]
  exact colErr_keeps c 0 _

/-- Generations run from 1 to 63 and start again (R240). -/
theorem nextGen_says (g : Nat) : 1 ≤ nextGen g ∧ nextGen g ≤ 63 ∧ (g < 63 → nextGen g = g + 1) := by
  unfold nextGen
  split <;> omega

end Sys2Proof.Machine

section

open Sys2Proof Sys2Proof.Machine

/-- Settles O29: the read of the entry is traffic alone, so a good descriptor fills a slot that was free, and a bad one leaves its
record in the registers of the colony (`badDesc_r`). -/
theorem fetchedEntriesBecomeJobs : Obligations.FetchedEntriesBecomeJobs := by
  refine fun c q bytes s hn hlen => ⟨fun hd => ?job, fun code hd => ?bad, nextGen_says⟩
  case job =>
    obtain ⟨slot, u, hslot, hu, hexec⟩ := exec_jobFetch hn hlen hd
    obtain ⟨hlt, hfree⟩ := mem_freeSlots.1 hslot
    obtain ⟨hcols, hjobs, hgens, horder, hhives⟩ := onlyTraffic_keeps hu
    have hco : u.co c = s.co c := co_congr hcols c
    refine ⟨_, _, hexec, congrArg (· ++ _) hjobs, hlt, hfree, rfl, rfl, rfl, rfl, horder, ?_, congrArg (· + 1) horder, ?_, rfl, hhives, ?_⟩
    · exact congrArg (fun g => nextGen (tabGet 0 g slot)) hgens
    · rw [← sq_congr hcols c q]
      exact passEntry_head c q u
    · rw [fillSlot_co, passEntry_r, hco]
      rfl
  case bad =>
    obtain ⟨hcols, hjobs, -, -, hhives⟩ := onlyTraffic_keeps (onlyTraffic_readEntry c q s)
    have hco : (readEntry c q s).co c = s.co c := co_congr hcols c
    obtain ⟨hkeepJobs, hkeepHives⟩ := badDesc_keeps c q code (readEntry c q s)
    obtain ⟨hsq, -, hfirst, hlater⟩ := noteBad_says q code (s.co c).r
    have hr := badDesc_r c q code (readEntry c q s)
    rw [hco] at hr
    refine ⟨_, exec_jobFetch_bad hn hlen hd, hkeepJobs.trans hjobs, ?_, congrArg VfRegs.err hr, fun h0 => ?_, fun h0 => ?_,
      hkeepHives.trans hhives⟩
    · rw [State.sq, hr]
      simp only [VfRegs.passed, hsq, updAt_same]
      rfl
    · rw [hr]
      exact hfirst h0
    · rw [hr, hlater h0]
      exact ⟨rfl, rfl⟩

end

end

section
/-! Colony resets and Function Level Resets of a colony with no queue job and no record that waits (R266). -/

namespace Sys2Proof.Machine

-- the configuration state of one function

theorem updFn_fn (f : Fn) (g : FnSt → FnSt) (s : State) : (updFn f g s).fn f = g (s.fn f) := by
  cases f with
  | pf0 => rfl
  | vf c => exact updAt_same _ _ _

theorem updFn_vf_other {c d : ColId} (g : FnSt → FnSt) (s : State) (hd : d ≠ c) : (updFn (.vf c) g s).fn (.vf d) = s.fn (.vf d) :=
  updAt_other _ _ _ _ hd

-- the start of a reset

/-- A colony in reset: its submission queues are disabled. -/
def Colony.resetting (flr : Bool) (x : Colony) : Colony :=
  { x with resetBusy := true, flr := flr, r := { x.r with sq := x.r.sq.map fun q => { q with en := false } } }

/-- A colony after its reset. -/
def Colony.afterReset (x : Colony) : Colony := { x with r := {}, resetBusy := false, flr := false }

/-- The configuration state of a VF after a reset of its colony, and after a Function Level Reset. -/
def FnSt.afterReset (flr : Bool) (f : FnSt) : FnSt :=
  if flr then { FnSt.vfReset with held := f.held } else { f with msix := FnSt.vfReset.msix, pba := 0 }

/-- The end of a reset: the registers and shadows of the VF are at reset. -/
def resetEnds (c : ColId) (flr : Bool) (s : State) : State :=
  let t := updFn (.vf c) (FnSt.afterReset flr) (updCol c Colony.afterReset s)
  { t with shadows := tabSet none t.shadows (c.val + 1) none }

theorem endReset_waits {c : ColId} {s : State} (hj : s.inFlight c = true) : endReset c s = s :=
  if_neg (by rw [show (s.jobs.any fun j => j.isHome && j.col == c) = true from hj, Bool.not_true, Bool.and_false]; decide)

theorem endReset_idle {c : ColId} {s : State} (hb : (s.co c).resetBusy = false) : endReset c s = s :=
  if_neg (by rw [hb, Bool.false_and]; decide)

theorem endReset_ends {c : ColId} {s : State} (hb : (s.co c).resetBusy = true) (hj : s.inFlight c = false) :
    endReset c s = resetEnds c (s.co c).flr s :=
  if_pos (by rw [show (s.jobs.any fun j => j.isHome && j.col == c) = false from hj, hb]; rfl)

theorem cancelQueue_of_none {c : ColId} {s : State} (reason : Nat) (hq : s.queueJobs c = []) : cancelQueue c reason s = s := by
  rw [cancelQueue, hq]
  rfl

section
variable {c : ColId} {s : State} (hb : (s.co c).resetBusy = false) (hq : s.queueJobs c = []) (hw : (s.co c).r.waiting = [])
  (hx : (s.co c).r.xpHeld = none)
include hb hq hw hx

/-- With nothing to cancel and no record that waits a reset disables the queues, and ends once no job is in flight. -/
theorem colonyReset_quiet (flr : Bool) : colonyReset c flr s = endReset c (updCol c (Colony.resetting flr) s) := by
  have hr : ((updCol c (Colony.resetting flr) s).co c).r = ((s.co c).resetting flr).r := congrArg Colony.r (updCol_co c _ s)
  have hwait : ((updCol c (Colony.resetting flr) s).co c).r.waiting = [] := (congrArg VfRegs.waiting hr).trans hw
  have hheld : ((updCol c (Colony.resetting flr) s).co c).r.xpHeld = none := (congrArg VfRegs.xpHeld hr).trans hx
  have hcancel : (updCol c (Colony.resetting flr) s).queueJobs c = [] := hq
  have hself : updVf c (fun r => { r with waiting := [] }) (updCol c (Colony.resetting flr) s) = updCol c (Colony.resetting flr) s :=
    updVf_eq_self (by rw [← hwait])
  have hxp : releaseXp c (updCol c (Colony.resetting flr) s) = updCol c (Colony.resetting flr) s := by
    simp only [releaseXp, hheld]
  unfold colonyReset
  rw [if_neg (by rw [hb]; decide)]
  change endReset c (cancelQueue c 2 (releaseXp c (writeWaiting c ((updCol c (Colony.resetting flr) s).co c).r.waiting
    (updVf c (fun r => { r with waiting := [] }) (updCol c (Colony.resetting flr) s))))) = _
  rw [hwait, writeWaiting, hself, hxp, cancelQueue_of_none 2 hcancel]

theorem colonyReset_ends (flr : Bool) (hj : s.inFlight c = false) :
    colonyReset c flr s = resetEnds c flr (updCol c (Colony.resetting flr) s) := by
  have hco : (updCol c (Colony.resetting flr) s).co c = (s.co c).resetting flr := updCol_co c _ s
  rw [colonyReset_quiet hb hq hw hx, endReset_ends (s := updCol c (Colony.resetting flr) s) (by rw [hco]; rfl) hj, hco]
  rfl

theorem colonyReset_waits (flr : Bool) (hj : s.inFlight c = true) : colonyReset c flr s = updCol c (Colony.resetting flr) s := by
  rw [colonyReset_quiet hb hq hw hx, endReset_waits (s := updCol c (Colony.resetting flr) s) hj]

end

theorem resetEnds_co (c : ColId) (flr : Bool) (s : State) : (resetEnds c flr s).co c = (s.co c).afterReset := updCol_co c _ s

theorem resetEnds_co_other {c d : ColId} (flr : Bool) (s : State) (hd : d ≠ c) : (resetEnds c flr s).co d = s.co d :=
  updCol_co_other c d _ s hd

theorem resetEnds_fn (c : ColId) (flr : Bool) (s : State) : (resetEnds c flr s).fn (.vf c) = (s.fn (.vf c)).afterReset flr :=
  updFn_fn (.vf c) (FnSt.afterReset flr) (updCol c Colony.afterReset s)

theorem resetEnds_fn_other {c d : ColId} (flr : Bool) (s : State) (hd : d ≠ c) :
    (resetEnds c flr s).fn (.vf d) = s.fn (.vf d) :=
  updFn_vf_other (FnSt.afterReset flr) (updCol c Colony.afterReset s) hd

/-- The queues of a colony in reset are disabled, and keep their tails. -/
theorem resetting_sq (c : ColId) (flr : Bool) (s : State) (q : Fin 4) :
    (updCol c (Colony.resetting flr) s).sq c q = { s.sq c q with en := false } := by
  simp only [State.sq, updCol_co]
  exact Vector.getElem_map _ _

theorem exec_colonyReset (c : ColId) (s : State) : exec (.colonyReset c) s = .next (colonyReset c false s) := rfl

theorem exec_vfFlr {c : ColId} {s : State} (hv : s.vfExists c = true) : exec (.vfFlr c) s = .next (colonyReset c true s) :=
  congrArg Host.Outcome.next (if_pos hv)

theorem exec_vfFlr_missing {c : ColId} {s : State} (hv : s.vfExists c = false) : exec (.vfFlr c) s = .next s :=
  congrArg Host.Outcome.next (if_neg (Bool.eq_false_iff.1 hv))

end Sys2Proof.Machine

section

open Sys2Proof Sys2Proof.Machine

/-- Settles O35: with no queue job and no record that waits a reset comes to `Colony.resetting`, and to `resetEnds` after it once no
job of the colony is in flight. -/
theorem colonyResets : Obligations.ColonyResets := by
  refine fun c s hb hq hw hx => ⟨fun hj => ?ends, fun hj => ?waits, fun hv hj => ?flr, exec_vfFlr_missing⟩
  case ends =>
    refine ⟨_, (exec_colonyReset c s).trans (congrArg _ (colonyReset_ends hb hq hw hx false hj)), ?_, fun d hd => ?_, rfl, rfl, ?_, ?_, rfl⟩
    · rw [resetEnds_co, updCol_co]
      rfl
    · rw [resetEnds_co_other _ _ hd, updCol_co_other _ _ _ _ hd]
    · rw [resetEnds_fn]
      rfl
    · rw [resetEnds_fn]
      rfl
  case waits =>
    refine ⟨_, (exec_colonyReset c s).trans (congrArg _ (colonyReset_waits hb hq hw hx false hj)), ?_, fun q => ?_, rfl, rfl,
      fun d hd => updCol_co_other _ _ _ _ hd⟩
    · rw [updCol_co]
      rfl
    · rw [resetting_sq]
      exact ⟨rfl, rfl⟩
  case flr =>
    refine ⟨_, (exec_vfFlr hv).trans (congrArg _ (colonyReset_ends hb hq hw hx true hj)), ?_, ?_, fun d hd => ⟨?_, ?_⟩, rfl, rfl⟩
    · rw [resetEnds_co, updCol_co]
      rfl
    · rw [resetEnds_fn]
      rfl
    · rw [resetEnds_co_other _ _ hd, updCol_co_other _ _ _ _ hd]
    · rw [resetEnds_fn_other _ _ hd]
      rfl

end

end

section
/-! What the order of programs on a hive can do to it (R253, R254): a start of one program that waits, or a stop asked of the one
that runs. -/

namespace Sys2Proof.Machine

theorem firstProg_mem {ok : Prog → Bool} {l : List Prog} {p : Prog} (h : firstProg ok l = some p) : p ∈ l := by
  induction l with
  | nil => exact absurd h (by simp [firstProg])
  | cons q r ih =>
    unfold firstProg at h
    split at h
    · split at h
      · exact List.mem_cons.2 (Or.inl (Option.some.inj h).symm)
      · exact absurd h (by simp)
    · next hr =>
      split at h
      · exact List.mem_cons.2 (Or.inl (Option.some.inj h).symm)
      · exact List.mem_cons_of_mem q (ih (hr.trans h))

/-- All that `schedule` can do to its hive: nothing but its programs and its stops moves, and of its programs no more than that one
of those that wait starts. -/
structure Scheduled (x y : Hive) : Prop where
  frame : y = { x with run := y.run, wait := y.wait, stops := y.stops }
  progs : (y.run = x.run ∧ y.wait = x.wait) ∨
    ∃ p o, p ∈ x.wait ∧ x.run = none ∧ y.run = some { p with ovs := o } ∧ y.wait = dropProg x.wait p.slot p.home

theorem scheduled_refl (x : Hive) : Scheduled x x := ⟨rfl, Or.inl ⟨rfl, rfl⟩⟩

theorem scheduled_askStop (h : HiveId) (w : StopWhy) (s : State) : Scheduled (s.hv h) ((askStop h w s).hv h) := by
  rw [(askStop_hv h h w s).1]
  exact ⟨rfl, Or.inl ⟨rfl, rfl⟩⟩

theorem askStop_hv_other {h k : HiveId} (w : StopWhy) (s : State) (hk : k ≠ h) : (askStop h w s).hv k = s.hv k := by
  unfold askStop
  split
  · exact updHive_hv_other h k _ s hk
  · rfl

theorem abandonInsp_hives (h : HiveId) (s : State) : (abandonInsp h s).hives = s.hives := by
  unfold abandonInsp
  dsimp only
  split <;> rfl

theorem run_of_freeHive {s : State} {h : HiveId} (hf : s.freeHive h = true) : (s.hv h).run = none := by
  simp only [State.freeHive, Bool.and_eq_true] at hf
  exact Option.isNone_iff_eq_none.1 hf.1.1.1.1.1.1

theorem hv_congr {s t : State} (h : t.hives = s.hives) (k : HiveId) : t.hv k = s.hv k := by
  simp only [State.hv, h]

theorem schedule_says (h : HiveId) (s : State) :
    Scheduled (s.hv h) ((schedule h s).hv h) ∧ ∀ k, k ≠ h → (schedule h s).hv k = s.hv k := by
  have hready : (if (firstProg s.mayRun (s.hv h).wait).isSome then abandonInsp h s else s).hives = s.hives := by
    split
    · exact abandonInsp_hives h s
    · rfl
  unfold schedule
  dsimp only
  generalize (if (firstProg s.mayRun (s.hv h).wait).isSome then abandonInsp h s else s) = t at hready ⊢
  rw [← hv_congr hready h]
  have hother : ∀ k, t.hv k = s.hv k := hv_congr hready
  have hsame : Scheduled (t.hv h) (t.hv h) ∧ ∀ k, k ≠ h → t.hv k = s.hv k := ⟨scheduled_refl _, fun k _ => hother k⟩
  split
  · exact hsame
  · next p hfirst =>
    split
    · next hfree =>
      split
      · refine ⟨?_, fun k hk => (updHive_hv_other h k _ t hk).trans (hother k)⟩
        rw [updHive_hv]
        exact ⟨rfl, Or.inr ⟨p, _, firstProg_mem hfirst, run_of_freeHive hfree, rfl, rfl⟩⟩
      · exact hsame
    · split
      · next q _ =>
        generalize (if q.lent = true then StopWhy.reclaim else StopWhy.preempt) = w
        split
        · exact ⟨scheduled_askStop h w t, fun k hk => (askStop_hv_other w t hk).trans (hother k)⟩
        · exact hsame
      · exact hsame

/-- What `dropProg` keeps: every program but that of the slot and home. -/
theorem keeps_other {slot : Nat} {home : HiveId} {p : Prog} :
    (!(p.slot == slot && p.home == home)) = true ↔ ¬(p.slot = slot ∧ p.home = home) := by
  rw [Bool.not_eq_true', Bool.eq_false_iff, Ne, Bool.and_eq_true, beq_iff_eq, beq_iff_eq]

/-- A program that waits still waits, or runs, when no other one of its job and home waits beside it. -/
theorem Scheduled.keeps {x y : Hive} (hs : Scheduled x y) {p : Prog} (hp : p ∈ x.wait)
    (hone : ∀ q, q ∈ x.wait → q.slot = p.slot → q.home = p.home → q = p) :
    p ∈ y.wait ∨ ∃ o, y.run = some { p with ovs := o } := by
  rcases hs.progs with ⟨-, hw⟩ | ⟨q, o, hq, -, hrun, hw⟩
  · exact Or.inl (hw ▸ hp)
  · by_cases hsame : p.slot = q.slot ∧ p.home = q.home
    · exact Or.inr ⟨o, hone q hq hsame.1.symm hsame.2.symm ▸ hrun⟩
    · refine Or.inl (hw ▸ List.mem_filter.2 ⟨hp, ?_⟩)
      exact keeps_other.2 hsame

theorem Scheduled.wait_subset {x y : Hive} (hs : Scheduled x y) : y.wait ⊆ x.wait := by
  rcases hs.progs with ⟨-, hw⟩ | ⟨q, o, -, -, -, hw⟩
  · exact hw ▸ List.Subset.refl _
  · exact hw ▸ List.filter_sublist.subset

end Sys2Proof.Machine

end

section
/-! Lending: a program moves to an express hive, and goes on there or at home (R255 to R257). -/

namespace Sys2Proof.Machine

-- tables in two parts

theorem tabGet_append_left {α : Type} {d : α} (t u : List (Nat × α)) {k : Nat} (h : ∀ e ∈ u, e.1 ≠ k) :
    tabGet d (t ++ u) k = tabGet d t k := by
  induction t with
  | nil =>
    induction u with
    | nil => rfl
    | cons e u ih =>
      have hne : ¬k = e.1 := fun he => h e List.mem_cons_self he.symm
      exact (if_neg hne).trans (ih fun x hx => h x (List.mem_cons_of_mem e hx))
  | cons e t ih =>
    simp only [List.cons_append, tabGet]
    rw [ih]

theorem tabGet_append_right {α : Type} {d : α} (t u : List (Nat × α)) {k : Nat} (h : ∀ e ∈ t, e.1 ≠ k) :
    tabGet d (t ++ u) k = tabGet d u k := by
  induction t with
  | nil => rfl
  | cons e t ih =>
    have hne : ¬k = e.1 := fun he => h e List.mem_cons_self he.symm
    exact (if_neg hne).trans (ih fun x hx => h x (List.mem_cons_of_mem e hx))

theorem tabGet_filter {α : Type} {d : α} (p : Nat → Bool) (t : List (Nat × α)) {k : Nat} (h : p k = true) :
    tabGet d (t.filter fun e => p e.1) k = tabGet d t k := by
  induction t with
  | nil => rfl
  | cons e t ih =>
    by_cases hk : k = e.1
    · have hp : p e.1 = true := hk ▸ h
      rw [List.filter_cons, if_pos hp]
      exact (if_pos hk).trans (if_pos hk).symm
    · have htail : tabGet d (e :: t) k = tabGet d t k := if_neg hk
      rw [htail, ← ih, List.filter_cons]
      split
      · exact if_neg hk
      · rfl

/-- A write between the keys of two parts stands between them. -/
theorem memWrite_between {t u : Memory} {a : Nat} {b : Byte} (hb : b ≠ 0) (ht : ∀ e ∈ t, e.1 < a) (hu : ∀ e ∈ u, a < e.1) :
    memWrite (t ++ u) a b = t ++ (a, b) :: u := by
  induction t with
  | nil =>
    cases u with
    | nil => exact if_neg hb
    | cons e u => exact (if_pos (hu e List.mem_cons_self)).trans (if_neg hb)
  | cons e t ih =>
    have hlt := ht e List.mem_cons_self
    have hne : ¬a = e.1 := by omega
    have hge : ¬a < e.1 := by omega
    exact ((if_neg hge).trans (if_neg hne)).trans (congrArg (e :: ·) (ih fun x hx => ht x (List.mem_cons_of_mem e hx)))

/-- The entries of a canonical memory, written in their order below the keys of another, stand before it. -/
theorem foldl_memWrite {m t u : Memory} {lo : Nat} (hm : tabWfFrom 0 lo m = true) (ht : ∀ e ∈ t, e.1 < lo)
    (hu : ∀ e ∈ m, ∀ x ∈ u, e.1 < x.1) : m.foldl (fun v e => memWrite v e.1 e.2) (t ++ u) = t ++ m ++ u := by
  induction m generalizing t lo with
  | nil => simp
  | cons e m ih =>
    obtain ⟨a, b⟩ := e
    simp only [tabWfFrom, Bool.and_eq_true, decide_eq_true_eq] at hm
    obtain ⟨⟨hlo, hb⟩, hrest⟩ := hm
    have hwrite : memWrite (t ++ u) a b = (t ++ [(a, b)]) ++ u := by
      rw [memWrite_between hb (fun x hx => Nat.lt_of_lt_of_le (ht x hx) hlo) fun x hx => hu _ List.mem_cons_self x hx]
      simp
    have hbelow : ∀ x ∈ t ++ [(a, b)], x.1 < a + 1 := by
      intro x hx
      rcases List.mem_append.1 hx with hin | hin
      · have := ht x hin
        omega
      · rw [List.mem_singleton.1 hin]
        exact Nat.lt_succ_self a
    rw [List.foldl_cons, hwrite, ih hrest hbelow fun x hx => hu x (List.mem_cons_of_mem _ hx)]
    simp

/-- What `copyWindow` makes of a comb store: below n bytes that of the other hive, from there on its own. -/
theorem memRead_copyBelow {m u : Memory} (n : Nat) (hm : m.wf = true) (a : Nat) :
    memRead ((m.filter fun e => decide (e.1 < n)).foldl (fun v e => memWrite v e.1 e.2) (memZero u 0 n)) a =
      if a < n then memRead m a else memRead u a := by
  have hlow : ∀ e ∈ m.filter fun e => decide (e.1 < n), e.1 < n := fun e he => by simpa using (List.mem_filter.1 he).2
  have hhigh : ∀ e ∈ memZero u 0 n, n ≤ e.1 := fun e he => by simpa [memZero, tabClear] using (List.mem_filter.1 he).2
  have hfold := foldl_memWrite (t := []) (tabFilter_wfFrom (fun e => decide (e.1 < n)) hm) (fun e he => absurd he List.not_mem_nil)
    fun e he x hx => Nat.lt_of_lt_of_le (hlow e he) (hhigh x hx)
  rw [List.nil_append, List.nil_append] at hfold
  rw [hfold, memRead]
  split
  · next ha =>
    have hne : ∀ e ∈ memZero u 0 n, e.1 ≠ a := fun e he => by have := hhigh e he; omega
    rw [tabGet_append_left _ _ hne]
    exact tabGet_filter (fun k => decide (k < n)) m (decide_eq_true ha)
  · next ha =>
    have hne : ∀ e ∈ m.filter fun e => decide (e.1 < n), e.1 ≠ a := fun e he => by have := hlow e he; omega
    rw [tabGet_append_right _ _ hne]
    exact (tabGet_tabClear u 0 n a).trans (if_neg (by omega))

-- a stopped program that runs again (R211, R257)

/-- A stopped program as it runs again, but for the LDW engines that its copies take. -/
def Prog.resumed (h : HiveId) (p : Prog) : Prog :=
  startCopies { p with ctx := .fresh, ps0 := [], act0 := [], win := none, stopAt := none, paused := none, ovs := p.ovs.restored h }

/-- A hive on which a stopped program runs again. -/
def Hive.resumes (h : HiveId) (p : Prog) (x : Hive) : Hive :=
  { x with
    run := some (p.resumed h), wait := dropProg x.wait p.slot p.home, stops := [], halted := false
    hny := x.hny.set 0 { ps := p.ps0, act := p.act0 } }

theorem resumes_hny_zero (h : HiveId) (p : Prog) (x : Hive) : (x.resumes h p).hny[(0 : Fin 2)] = { ps := p.ps0, act := p.act0 } :=
  Vector.getElem_set_self _

theorem resumes_hny_one (h : HiveId) (p : Prog) (x : Hive) : (x.resumes h p).hny[(1 : Fin 2)] = x.hny[(1 : Fin 2)] :=
  Vector.getElem_set_ne (by decide) (by decide) (by decide)

theorem onlyGlass_resumeRecord (h : HiveId) (p : Prog) (s : State) : OnlyGlass s (resumeRecord h p s) := by
  unfold resumeRecord
  split
  · rfl
  · exact onlyGlass_glassHive _ _ _ _ _ _

theorem resumeRecord_hives (h : HiveId) (p : Prog) (s : State) : (resumeRecord h p s).hives = s.hives := by
  unfold resumeRecord
  split
  · rfl
  · exact glassHive_hives _ _ _ _ _ _

/-- Outside a STREAM there is no latch set to load again. -/
theorem reloadLatch_of_no_stream {h : HiveId} {q : Prog} {s : State} (hr : (s.hv h).run = some q) (hin : q.inStream = none) :
    reloadLatch h s = s := by
  unfold reloadLatch
  split
  · rfl
  · next p j hd =>
    have hp : p = q := Option.some.inj ((dancing_run hd).symm.trans hr)
    rw [hp, hin]

section
variable {h : HiveId} {p : Prog} (hwin : p.win = none) (hin : p.inStream = none) (s : State)
include hwin hin

/-- A stopped program with its window on the hive and no STREAM under way runs again; only its record moves beside the hive. -/
theorem restoreProg_eq : restoreProg h p s = resumeRecord h p (updHive h (Hive.resumes h p) s) := by
  have hrun : ((resumeRecord h p (updHive h (Hive.resumes h p) s)).hv h).run = some (p.resumed h) := by
    rw [hv_congr (resumeRecord_hives h p _), updHive_hv]
    rfl
  have hput : ∀ part, putWindow part h p s = s := fun part => by simp only [putWindow, hwin]
  simp only [restoreProg, hput]
  exact reloadLatch_of_no_stream hrun hin

theorem restoreProg_hv : (restoreProg h p s).hv h = (s.hv h).resumes h p := by
  rw [restoreProg_eq hwin hin, hv_congr (resumeRecord_hives h p _), updHive_hv]

theorem restoreProg_jobs : (restoreProg h p s).jobs = s.jobs := by
  obtain ⟨-, hjobs, -⟩ := onlyGlass_keeps (onlyGlass_resumeRecord h p (updHive h (Hive.resumes h p) s))
  rw [restoreProg_eq hwin hin]
  exact hjobs

end

-- LENT_JOB_RETURN (R257)

section
variable {slot : SlotId} {s : State} {j : Job} {h : HiveId} {p : Prog} (hj : s.job? slot.val = some j)
  (hl : s.lentProg slot.val = some (h, p))
include hj hl

theorem exec_lentJobReturn_there (hr : s.resumable h = some p) :
    exec (.lentJobReturn slot false) s = .next (restoreProg h p s) := by
  change execLentJobReturn slot false s = _
  simp only [execLentJobReturn, hj, hl, hr, beq_self_eq_true, Bool.false_eq_true, if_false, if_true]

/-- A lent program that its home hive takes first: its window goes with it, and it is lent no more. -/
theorem exec_lentJobReturn_home (hf : s.freeHive p.home = true) (hm : s.mayRun p = true) (hc : s.chargeAdmits = true)
    (hw : (s.hv p.home).wait = []) : exec (.lentJobReturn slot true) s = .next (restoreProg p.home { p with lent := false }
      (updJob slot.val (fun j => { j with lentAt := none })
        (updHive h (fun hv => { hv with wait := dropProg hv.wait p.slot p.home }) (copyWindow j.part.val h p.home s)))) := by
  change execLentJobReturn slot true s = _
  simp only [execLentJobReturn, hj, hl, hf, hm, hc, hw, firstProg, Option.map_none, Option.getD_none, Bool.not_true, Bool.or_self,
    Bool.false_eq_true, if_false, if_true]

end

-- LEND_START (R255, R256)

/-- What lending takes waits at a hive that another program keeps busy. -/
theorem lendProg_busy {s : State} {slot : Nat} {home : HiveId} {p : Prog} (h : s.lendProg slot = some (home, p)) :
    (s.hv home).run.isSome = true := by
  obtain ⟨k, -, hk⟩ := List.exists_of_findSome?_eq_some h
  split at hk
  · next hrun =>
    obtain ⟨q, -, heq⟩ := Option.map_eq_some_iff.1 hk
    exact (Prod.mk.inj heq).1 ▸ hrun
  · exact absurd hk (by simp)

theorem lendHive_says {s : State} {h : HiveId} (hl : s.lendHive h = true) : (s.hv h).run = none ∧ (s.hv h).wait = [] := by
  simp only [State.lendHive, Bool.and_eq_true] at hl
  exact ⟨run_of_freeHive hl.1.1.1.1.2, List.isEmpty_iff.1 hl.1.1.1.2⟩

theorem lend_home_ne {s : State} {slot : Nat} {home h : HiveId} {p : Prog} (hl : s.lendProg slot = some (home, p))
    (hh : s.lendHive h = true) : home ≠ h := by
  rintro rfl
  have hbusy := lendProg_busy hl
  obtain ⟨hidle, -⟩ := lendHive_says hh
  simp [hidle] at hbusy

/-- A copy from the supers moves the supers' block and a hive's comb store, and no program. -/
structure Copied (s t : State) : Prop where
  only : OnlyNoted s t
  hv : ∀ k, t.hv k = { s.hv k with cs := (t.hv k).cs, csUe := (t.hv k).csUe }

theorem copied_copyIn (h : HiveId) (dst src n : Nat) {s t : State} (hc : Copied s t) : Copied s (copyIn h dst src n t) := by
  refine ⟨onlyNoted_trans hc.only (onlyNoted_copyIn h dst src n t), fun k => ?_⟩
  have hhives : ∀ f, (noteUe (t.ueIn src n) (updHive h f t)).hv k = (updHive h f t).hv k :=
    fun f => hv_congr (sameUnits_noteUe _ _).hives k
  unfold copyIn
  rw [hhives]
  by_cases hk : k = h
  · subst hk
    rw [updHive_hv, hc.hv k]
  · rw [updHive_hv_other h k _ t hk]
    exact hc.hv k

theorem copied_loadRanges (part : Nat) (home h : HiveId) (s : State) : Copied s (loadRanges part home h s) := by
  have hself : Copied s s := ⟨onlyNoted_refl s, fun _ => rfl⟩
  unfold loadRanges
  split
  · exact hself
  · exact copyModel_induction (P := Copied s) (fun k dst src n u hu => copied_copyIn k dst src n hu) _ home h hself

theorem onlyTraffic_readInput (j : Job) (s : State) : OnlyTraffic s (readInput j s) := by
  unfold readInput
  split
  · exact onlyTraffic_cellarRead _ _ _ _ s
  · exact onlyTraffic_refl s

theorem exec_lendStart_nothing {h : HiveId} {slot : SlotId} {s : State} {j : Job} {home : HiveId} {p : Prog}
    (hj : s.job? slot.val = some j) (hl : s.lendProg slot.val = some (home, p)) (hno : s.lendHive h = false ∨ s.mayLend j = false) :
    exec (.lendStart h slot) s = .next s := by
  change execLendStart h slot s = _
  rcases hno with hh | hm
  · simp only [execLendStart, hj, hl, hh, Bool.not_false, Bool.true_or, if_true]
  · simp only [execLendStart, hj, hl, hm, Bool.not_false, Bool.true_or, Bool.or_true, if_true]

/-- What lending puts on the express hive: the program, which waits for the input there when its home hive takes it. -/
def Prog.lentFor (j : Job) (home : HiveId) (p : Prog) : Prog :=
  { p with lent := true, needInput := j.d.inLen != 0 && home.val == j.d.inHive }

/-- Lending moves the program from the waiting list of its home to that of the express hive, and names both in the job. -/
theorem exec_lendStart {h : HiveId} {slot : SlotId} {s : State} {j : Job} {home : HiveId} {p : Prog} (hj : s.job? slot.val = some j)
    (hl : s.lendProg slot.val = some (home, p)) (hh : s.lendHive h = true) (hm : s.mayLend j = true) (hf : s.lendFirst j = true)
    (hue : s.rangesUe j.part.val home = false) : ∃ u, exec (.lendStart h slot) s = .next (schedule h u) ∧
      (u.hv h).wait = [p.lentFor j home] ∧ (u.hv home).wait = dropProg (s.hv home).wait p.slot p.home ∧
      (u.job? slot.val).map (·.lentAt) = some (some (h, home)) := by
  obtain ⟨-, hnone⟩ := lendHive_says hh
  have hne := lend_home_ne hl hh
  have hcopied := copied_loadRanges j.part.val home h s
  obtain ⟨-, hjobs⟩ := onlyNoted_keeps hcopied.only
  have hwait : ∀ k, ((loadRanges j.part.val home h s).hv k).wait = (s.hv k).wait := fun k => by rw [hcopied.hv k]
  change ∃ u, execLendStart h slot s = _ ∧ _
  simp only [execLendStart, hj, hl, hh, hm, hf, hue, endOnUe, Bool.not_true, Bool.or_self, Bool.false_eq_true, if_false]
  refine ⟨_, rfl, ?_⟩
  generalize hmoved : updHive h _ (updHive home _ (loadRanges j.part.val home h s)) = moved
  have htraffic : ∀ b i, OnlyTraffic moved (if b = true then readInput i moved else moved) := fun b i => by
    split
    · exact onlyTraffic_readInput i moved
    · exact onlyTraffic_refl moved
  obtain ⟨-, hread, -, -, hhives⟩ := onlyTraffic_keeps
    (htraffic (j.d.inLen != 0 && home.val == j.d.inHive && !j.inputPend) { j with inputPend := true })
  have hfound : ∀ u : State, u.jobs = moved.jobs → u.job? slot.val = some j := fun u hu =>
    (job?_congr (by rw [hu, ← hmoved]; exact hjobs) slot.val).trans hj
  have hv : ∀ (f : Job → Job) (u : State) k, u.hives = moved.hives → (updJob slot.val f u).hv k = moved.hv k :=
    fun f u k hu => hv_congr (s := moved) hu k
  refine ⟨?_, ?_, ?_⟩
  · rw [hv _ _ h hhives, ← hmoved, updHive_hv, updHive_hv_other home h _ _ (Ne.symm hne), hwait, hnone]
    rfl
  · rw [hv _ _ home hhives, ← hmoved, updHive_hv_other h home _ _ hne, updHive_hv, hwait]
  · rw [job?_updJob slot.val (by exact fun _ => rfl), hfound _ hread]
    rfl

/-- What `copyWindow` leaves: the window of the lent program at home, and nothing else of the hive or of another hive. -/
theorem copyWindow_hv {part : Nat} {src dst : HiveId} {s : State} : ∃ ue, (copyWindow part src dst s).hv dst = { s.hv dst with
    cs := ((s.hv src).cs.filter fun e => decide (e.1 < s.winSize part)).foldl (fun t e => memWrite t e.1 e.2)
      (memZero (s.hv dst).cs 0 (s.winSize part))
    csUe := ue } :=
  ⟨_, updHive_hv dst _ s⟩

end Sys2Proof.Machine

section

open Sys2Proof Sys2Proof.Machine

/-- Settles O33: `exec_lendStart` and `exec_lentJobReturn_there` and `_home` say where the program goes, `restoreProg_hv` what the hive
holds on which it goes on, and `memRead_copyBelow` what its window is at home. -/
theorem lentProgramsMove : Obligations.LentProgramsMove := by
  refine fun h slot s j home p hj => ⟨fun hl hh hm hf hue => ?start, exec_lendStart_nothing hj, fun hl hr hin hwin => ?there,
    fun hl hne hf hm hc hw hin hwin hwf => ?home⟩
  case start =>
    have hne := lend_home_ne hl hh
    obtain ⟨u, hexec, hthere, hleft, hjob⟩ := exec_lendStart hj hl hh hm hf hue
    obtain ⟨hsched, hother⟩ := schedule_says h u
    have hjobs : (schedule h u).jobs = u.jobs := by rw [onlyWork_schedule h u]
    have hplaced : ∃ q, (((schedule h u).hv h).run = some q ∨ q ∈ ((schedule h u).hv h).wait) ∧
        ∃ o, q = { p.lentFor j home with ovs := o } := by
      rcases hsched.keeps (p := p.lentFor j home) (by simp [hthere]) (by simp [hthere]) with hw | ⟨o, hr⟩
      · exact ⟨_, Or.inr hw, _, rfl⟩
      · exact ⟨_, Or.inl hr, o, rfl⟩
    obtain ⟨q, hq, o, rfl⟩ := hplaced
    refine ⟨_, _, hexec, hq, rfl, rfl, rfl, rfl, rfl, (congrArg _ (job?_congr hjobs slot.val)).trans hjob, fun x hx => ?_⟩
    rw [hother home hne, hleft] at hx
    exact keeps_other.1 (List.mem_filter.1 hx).2
  case there =>
    refine ⟨_, p.resumed h, exec_lentJobReturn_there hj hl hr, ?_⟩
    rw [restoreProg_hv hwin hin]
    exact ⟨rfl, rfl, rfl, rfl, rfl, congrArg HnyCtx.ps (resumes_hny_zero h p _), resumes_hny_one h p _⟩
  case home =>
    refine ⟨_, ({ p with lent := false } : Prog).resumed p.home, exec_lentJobReturn_home hj hl hf hm hc hw, ?_⟩
    generalize hu : updHive h _ (copyWindow j.part.val h p.home s) = u
    have hjobs : u.jobs = s.jobs := by rw [← hu]; rfl
    obtain ⟨ue, hcopy⟩ := copyWindow_hv (part := j.part.val) (src := h) (dst := p.home) (s := s)
    have hhome : u.hv p.home = (copyWindow j.part.val h p.home s).hv p.home := by
      rw [← hu]
      exact updHive_hv_other h p.home _ _ hne
    have hcs : (((updJob slot.val (fun j => { j with lentAt := none }) u).hv p.home).resumes p.home { p with lent := false }).cs =
        (u.hv p.home).cs := rfl
    rw [restoreProg_hv (p := { p with lent := false }) hwin hin, hcs, hhome, hcopy]
    refine ⟨rfl, rfl, rfl, rfl, ?_, fun a ha => ?_, fun a ha => ?_⟩
    · rw [job?_congr (restoreProg_jobs (p := { p with lent := false }) hwin hin _), job?_updJob slot.val (by exact fun _ => rfl),
        job?_congr hjobs, hj]
      rfl
    · exact (memRead_copyBelow _ hwf a).trans (if_pos ha)
    · exact (memRead_copyBelow _ hwf a).trans (if_neg (Nat.not_lt.2 ha))

end

end

section
/-! What the end of a drain leaves alone (R328, R330, R331): it moves the swarm, its ports and what the part sends, and no job,
colony or hive. -/

namespace Sys2Proof.Machine

/-- Jobs, colonies and hives stand, and what the part has sent stays sent. -/
structure SendsMore (s t : State) : Prop where
  jobs : t.jobs = s.jobs
  cols : t.cols = s.cols
  hives : t.hives = s.hives
  tx : s.tx ⊆ t.tx

theorem sendsMore_refl (s : State) : SendsMore s s := ⟨rfl, rfl, rfl, List.Subset.refl _⟩

theorem sendsMore_trans {s t u : State} (h : SendsMore s t) (k : SendsMore t u) : SendsMore s u :=
  ⟨k.jobs.trans h.jobs, k.cols.trans h.cols, k.hives.trans h.hives, List.Subset.trans h.tx k.tx⟩

theorem sendsMore_send (x : Tx) (s : State) : SendsMore s (s.send x) := ⟨rfl, rfl, rfl, List.subset_cons_self _ _⟩

theorem sendsMore_updFn (f : Fn) (g : FnSt → FnSt) (s : State) : SendsMore s (updFn f g s) := by
  cases f <;> exact ⟨rfl, rfl, rfl, List.Subset.refl _⟩

theorem sendsMore_updPort (p : PortId) (f : Port → Port) (s : State) : SendsMore s (updPort p f s) := ⟨rfl, rfl, rfl, List.Subset.refl _⟩

theorem sendsMore_updSw (f : SwarmSt → SwarmSt) (s : State) : SendsMore s (updSw f s) := ⟨rfl, rfl, rfl, List.Subset.refl _⟩

theorem sendsMore_ite {c : Prop} [Decidable c] {s t u : State} (h : SendsMore s t) (k : SendsMore s u) :
    SendsMore s (if c then t else u) := by
  split
  · exact h
  · exact k

-- vectors and records

theorem sendsMore_raise (f : Fn) (v : Nat) (s : State) : SendsMore s (raise f v s) :=
  sendsMore_ite (sendsMore_refl s) (sendsMore_ite (sendsMore_send _ s) (sendsMore_updFn f _ s))

theorem sendsMore_raiseAll (vs : List Nat) (s : State) : SendsMore s (raiseAll vs s) := by
  induction vs generalizing s with
  | nil => exact sendsMore_refl s
  | cons v r ih => exact sendsMore_trans (sendsMore_raise .pf0 v s) (ih _)

theorem sendsMore_obs (o : ObsSt) (s : State) : SendsMore s { s with obs := o } := ⟨rfl, rfl, rfl, List.Subset.refl _⟩

theorem sendsMore_glassPut (bs : List Byte) (s : State) : SendsMore s (glassPut bs s) :=
  sendsMore_ite (sendsMore_obs _ s) (sendsMore_trans (sendsMore_obs _ s) (sendsMore_trans (sendsMore_obs _ _) (sendsMore_raise .pf0 6 _)))

theorem sendsMore_glassJob (kind : Nat) (c : ColId) (tag : BitVec 16) (code : Nat) (tail : List Byte) (s : State) :
    SendsMore s (glassJob kind c tag code tail s) :=
  sendsMore_ite (sendsMore_glassPut _ s) (sendsMore_refl s)

theorem sendsMore_swEvent (w : Word) (s : State) : SendsMore s (swEvent w s) :=
  sendsMore_trans (sendsMore_trans (t := evSet .swarm (evGet s .swarm ||| w) s) ⟨rfl, rfl, rfl, List.Subset.refl _⟩
    (sendsMore_ite (sendsMore_glassPut _ _) (sendsMore_refl _))) (sendsMore_raiseAll _ _)

-- flits and messages

theorem sendsMore_emitOne (p : PortId) (bs : List Byte) (s : State) : SendsMore s (emitOne p bs s) :=
  sendsMore_trans (sendsMore_updPort p _ s) (sendsMore_ite (sendsMore_updPort p _ _) (sendsMore_send _ _))

theorem sendsMore_emitIdles (p : PortId) (n : Nat) (s : State) : SendsMore s (emitIdles p n s) := by
  induction n generalizing s with
  | zero => exact sendsMore_refl s
  | succ n ih => exact sendsMore_ite (sendsMore_trans (sendsMore_emitOne p idleFlit s) (ih _)) (sendsMore_refl s)

theorem sendsMore_sendFlit (p : PortId) (k : Nat) (som eom : Bool) (b : List Byte) (s : State) :
    SendsMore s (sendFlit p k som eom b s) :=
  sendsMore_trans (sendsMore_updPort p _ s) (sendsMore_trans (sendsMore_emitIdles p 2 _) (sendsMore_emitOne p _ _))

theorem sendsMore_leaveBuffer (m : OutMsg) (n : Nat) (s : State) : SendsMore s (leaveBuffer m n s) := by
  unfold leaveBuffer
  split
  · exact sendsMore_refl s
  · split
    · exact sendsMore_updPort _ _ s
    · exact sendsMore_refl s

theorem sendsMore_pumpN (p : PortId) (n : Nat) (s : State) : SendsMore s (pumpN p n s) := by
  induction n generalizing s with
  | zero => exact sendsMore_refl s
  | succ n ih =>
    unfold pumpN
    split
    · exact sendsMore_refl s
    · exact sendsMore_trans (sendsMore_trans (sendsMore_trans (sendsMore_updPort p _ s) (sendsMore_sendFlit p _ _ _ _ _))
        (sendsMore_leaveBuffer _ 1 _)) (ih _)

theorem sendsMore_enq (p : PortId) (m : OutMsg) (s : State) : SendsMore s (enq p m s) :=
  sendsMore_trans (sendsMore_updPort p _ s) (sendsMore_pumpN p _ _)

theorem sendsMore_sendMsg (dst home : StnId) (tag : BitVec 16) (m : SwMsg) (s : State) : SendsMore s (sendMsg dst home tag m s) := by
  unfold sendMsg
  split
  · split
    · exact sendsMore_refl s
    · exact sendsMore_trans (sendsMore_send _ s) (sendsMore_enq _ _ _)
  · exact sendsMore_refl s

theorem sendsMore_sendMgmt (m : SwMsg) (l : List StnId) (s : State) : SendsMore s (sendMgmt m l s) := by
  induction l generalizing s with
  | nil => exact sendsMore_refl s
  | cons a r ih => exact sendsMore_trans (sendsMore_sendMsg a s.stn 0 m s) (ih _)

theorem sendsMore_sendWalk (p : PortId) (src : StnId) (m : SwMsg) (s : State) : SendsMore s (sendWalk p src m s) :=
  sendsMore_trans (sendsMore_send _ s) (sendsMore_enq _ _ _)

-- the walk (R327, R328)

theorem sendsMore_walkFails (e : BitVec 4) (s : State) : SendsMore s (walkFails e s) :=
  sendsMore_trans (sendsMore_updSw _ s) (sendsMore_swEvent 2 _)

theorem sendsMore_mapInstall (m : SwarmMap) (s : State) : SendsMore s (mapInstall m s) := by
  unfold mapInstall
  refine sendsMore_trans ?_ (sendsMore_swEvent 1 _)
  exact ⟨rfl, rfl, rfl, List.Subset.refl _⟩

theorem sendsMore_sendMaps (m : SwarmMap) (l : List Nat) (s : State) : SendsMore s (sendMaps m l s) := by
  induction l generalizing s with
  | nil => exact sendsMore_refl s
  | cons k r ih => exact sendsMore_trans (sendsMore_sendMgmt (.map m) _ s) (ih _)

theorem sendsMore_walkEnds (w : Walk) (s : State) : SendsMore s (walkEnds w s) :=
  sendsMore_ite (sendsMore_walkFails 3 s)
    (sendsMore_trans (sendsMore_trans (sendsMore_updSw _ s) (sendsMore_mapInstall _ _)) (sendsMore_sendMaps _ _ _))

theorem sendsMore_tokenHome (w : Walk) (s : State) : SendsMore s (tokenHome w s) :=
  sendsMore_ite (sendsMore_walkFails 1 s) (sendsMore_ite (sendsMore_walkFails 5 s) (sendsMore_ite (sendsMore_walkFails 2 s)
    (sendsMore_trans (sendsMore_updSw _ s) (sendsMore_ite (sendsMore_walkEnds _ _) (sendsMore_refl _)))))

theorem sendsMore_visitNext (s : State) : SendsMore s (visitNext s) := by
  unfold visitNext
  split
  · exact sendsMore_refl s
  · split
    · exact sendsMore_trans (sendsMore_updSw _ s) (sendsMore_sendWalk _ _ _ _)
    · exact sendsMore_ite (sendsMore_tokenHome _ s) (sendsMore_trans (sendsMore_updSw _ s)
        (sendsMore_trans (sendsMore_sendWalk _ _ _ _) (sendsMore_sendWalk _ _ _ _)))

-- the end of a drain (R330, R331)

theorem sendsMore_leaveNow (s : State) : SendsMore s (leaveNow s) := by
  refine sendsMore_trans (sendsMore_sendMgmt .leave s.peers s) ?_
  exact ⟨rfl, rfl, rfl, List.Subset.refl _⟩

theorem sendsMore_drainStep (s : State) : SendsMore s (drainStep s) := by
  refine sendsMore_ite (sendsMore_refl s) (sendsMore_ite (sendsMore_leaveNow s)
    (sendsMore_ite (sendsMore_trans (sendsMore_updSw _ s) (sendsMore_sendMsg _ _ _ _ _)) ?_))
  split
  · exact sendsMore_ite (sendsMore_trans (sendsMore_updSw _ s) (sendsMore_visitNext _)) (sendsMore_refl s)
  · exact sendsMore_refl s

end Sys2Proof.Machine

end

section
/-! The window that takes a job's input (R186, R248). -/

namespace Sys2Proof.Machine

-- bytes written to a window and read back (R186)

theorem mod_add_ne {n off d : Nat} (hd : 0 < d) (hn : d < n) : (off + d) % n ≠ off % n := by
  intro h
  have hzero := Nat.sub_mod_eq_zero_of_mod_eq h
  rw [Nat.add_sub_cancel_left, Nat.mod_eq_of_lt hn] at hzero
  omega

theorem memRead_memWriteWrap_out {m : Memory} {base size off k : Nat} {bs : List Byte} (w : m.wf = true)
    (h : ∀ i, i < bs.length → k ≠ base + (off + i) % size) : memRead (memWriteWrap m base size off bs) k = memRead m k := by
  induction bs generalizing m off with
  | nil => rfl
  | cons b r ih =>
    have hfirst : k ≠ base + off % size := h 0 (Nat.succ_pos _)
    have hrest : ∀ i, i < r.length → k ≠ base + (off + 1 + i) % size := fun i hi => by
      rw [Nat.add_assoc, Nat.add_comm 1 i]
      exact h (i + 1) (Nat.succ_lt_succ hi)
    rw [memWriteWrap, ih (memWrite_wf _ b w) hrest, memRead_memWrite _ k b w, if_neg hfirst]

/-- Bytes that fit into a window read back from it. -/
theorem memReadWrap_memWriteWrap {m : Memory} {base size off : Nat} {bs : List Byte} (w : m.wf = true) (h : bs.length ≤ size) :
    memReadWrap (memWriteWrap m base size off bs) base size off bs.length = bs := by
  induction bs generalizing m off with
  | nil => rfl
  | cons b r ih =>
    simp only [List.length_cons] at h
    have hapart : ∀ i, i < r.length → base + off % size ≠ base + (off + 1 + i) % size := fun i hi => by
      have hne := mod_add_ne (n := size) (off := off) (d := 1 + i) (by omega) (by omega)
      rw [Nat.add_assoc]
      omega
    have hread : memRead (memWriteWrap m base size off (b :: r)) (base + off % size) = b := by
      rw [memWriteWrap, memRead_memWriteWrap_out (memWrite_wf _ b w) hapart, memRead_memWrite _ _ b w, if_pos rfl]
    rw [List.length_cons, memReadWrap, hread]
    exact congrArg (b :: ·) (ih (memWrite_wf _ b w) (by omega))

/-- With no program region in the way every byte lands, reduced by the window, and only the comb store moves. -/
theorem winWriteGo_open (s : State) (part : Nat) (x : Hive) (off : Nat) (bs : List Byte) : ∃ ue, winWriteGo s part none x off bs =
    { x with cs := memWriteWrap x.cs (s.winBase part) (s.winSize part) off bs, csUe := ue } := by
  induction bs generalizing x off with
  | nil => exact ⟨x.csUe, rfl⟩
  | cons b r ih =>
    obtain ⟨ue, h⟩ := ih { x with
      cs := memWrite x.cs (s.winAddr part off) b, csUe := x.csUe.filter fun w => w != s.winAddr part off / 8 } (off + 1)
    exact ⟨ue, h⟩

theorem winWrite_open {slot part : Nat} {h home : HiveId} {s : State} (hr : s.progRegion part home = none) (off : Nat) (bs : List Byte) :
    winWrite slot part h home off bs s = updHive h (fun x => winWriteGo s part none x off bs) s := by
  have hnone : ((List.range bs.length).any fun i => inRegion none ((off + i) % s.winSize part)) = false :=
    List.any_eq_false.2 fun _ _ => Bool.false_ne_true
  simp only [winWrite, hr, hnone, Bool.false_eq_true, if_false]

/-- Where a partition's windows start and how long they are rests on the wax in force and the quotas (R219, R220). -/
theorem window_congr {s t : State} (hwax : t.wax = s.wax) (hcols : t.cols = s.cols) (part : Nat) :
    t.winBase part = s.winBase part ∧ t.winSize part = s.winSize part := by
  have hx : t.expressX = s.expressX := by rw [State.expressX, hwax, ← State.expressX]
  have hq : ∀ c, t.quota c = s.quota c := fun c => by simp only [State.quota, State.co, hcols]
  simp only [State.winBase, State.winSize, hx, hq, hwax, and_self]

/-- Bytes that land in a window without a program region read back from it. -/
theorem winRead_winWrite {slot part : Nat} {h : HiveId} {off : Nat} {bs : List Byte} {s : State} (hr : s.progRegion part h = none)
    (hfit : bs.length ≤ s.winSize part) (hwf : Memory.wf (s.hv h).cs = true) :
    (winWrite slot part h h off bs s).winRead part h off bs.length = bs := by
  rw [winWrite_open hr]
  obtain ⟨ue, hland⟩ := winWriteGo_open s part (s.hv h) off bs
  obtain ⟨hbase, hsize⟩ := window_congr (s := s) (t := updHive h (fun x => winWriteGo s part none x off bs) s) rfl rfl part
  rw [State.winRead, hbase, hsize, updHive_hv, hland]
  exact memReadWrap_memWriteWrap hwf hfit

theorem winWrite_open_keeps {slot part : Nat} {h home : HiveId} {s : State} (hr : s.progRegion part home = none) (off : Nat)
    (bs : List Byte) : (winWrite slot part h home off bs s).jobs = s.jobs ∧ (winWrite slot part h home off bs s).cols = s.cols ∧
      ∀ k, k ≠ h → (winWrite slot part h home off bs s).hv k = s.hv k := by
  rw [winWrite_open hr]
  exact ⟨rfl, rfl, fun k hk => updHive_hv_other h k _ s hk⟩

-- the input is in place (R248)

theorem onlyWork_scheduleAll (l : List HiveId) (s : State) : OnlyWork s (scheduleAll l s) := by
  induction l generalizing s with
  | nil => rfl
  | cons h r ih => exact onlyWork_trans (onlyWork_schedule h s) (ih _)

theorem Scheduled.cs {x y : Hive} (hs : Scheduled x y) : y.cs = x.cs := by
  rw [hs.frame]

/-- Scheduling leaves of a hive all but its programs and stops, and no program comes to wait. -/
theorem scheduleAll_hv (l : List HiveId) (s : State) (k : HiveId) :
    ((scheduleAll l s).hv k).cs = (s.hv k).cs ∧ ((scheduleAll l s).hv k).wait ⊆ (s.hv k).wait := by
  induction l generalizing s with
  | nil => exact ⟨rfl, List.Subset.refl _⟩
  | cons h r ih =>
    obtain ⟨hcs, hwait⟩ := ih (schedule h s)
    obtain ⟨hsched, hother⟩ := schedule_says h s
    by_cases hk : k = h
    · subst hk
      exact ⟨hcs.trans hsched.cs, List.Subset.trans hwait hsched.wait_subset⟩
    · rw [hother k hk] at hcs hwait
      exact ⟨hcs, hwait⟩

/-- A program of a job waits for its input no more. -/
def Prog.inputIn (slot : Nat) (p : Prog) : Prog := if p.slot == slot then { p with needInput := false } else p

theorem inputIn_says (slot : Nat) (p : Prog) : (p.inputIn slot).slot = slot → (p.inputIn slot).needInput = false := by
  unfold Prog.inputIn
  split
  · exact fun _ => rfl
  · next h => exact fun hs => absurd (beq_iff_eq.2 hs) h

/-- The state in which the programs of a job are scheduled once its input is in place. -/
def inputIn (slot : Nat) (s : State) : State :=
  let t := updJob slot (fun j => { j with inputPend := false }) s
  { t with hives := t.hives.map fun x => { x with wait := x.wait.map (Prog.inputIn slot) } }

theorem inputReady_eq (slot : Nat) (s : State) : inputReady slot s = scheduleAll allHives (inputIn slot s) := rfl

theorem inputIn_hv (slot : Nat) (s : State) (k : HiveId) :
    (inputIn slot s).hv k = { s.hv k with wait := (s.hv k).wait.map (Prog.inputIn slot) } :=
  Vector.getElem_map _ _

theorem inputReady_job? (slot : Nat) (s : State) :
    ((inputReady slot s).job? slot).map (·.inputPend) = (s.job? slot).map fun _ => false := by
  have hjobs : (inputReady slot s).jobs = (updJob slot (fun j => { j with inputPend := false }) s).jobs := by
    rw [inputReady_eq, onlyWork_scheduleAll allHives (inputIn slot s)]
    rfl
  rw [job?_congr hjobs, job?_updJob slot (by exact fun _ => rfl), Option.map_map]
  rfl

theorem inputReady_cs (slot : Nat) (s : State) (k : HiveId) : ((inputReady slot s).hv k).cs = (s.hv k).cs := by
  rw [inputReady_eq, (scheduleAll_hv allHives (inputIn slot s) k).1, inputIn_hv]

/-- No program of the job still waits for its input. -/
theorem inputReady_wait {slot : Nat} {s : State} {k : HiveId} {p : Prog} (hp : p ∈ ((inputReady slot s).hv k).wait)
    (hs : p.slot = slot) : p.needInput = false := by
  have hin := (scheduleAll_hv allHives (inputIn slot s) k).2 hp
  rw [inputIn_hv] at hin
  obtain ⟨q, -, rfl⟩ := List.mem_map.1 hin
  exact inputIn_says slot q hs

theorem inputReady_keeps (slot : Nat) (s : State) : (inputReady slot s).cols = s.cols ∧ (inputReady slot s).wax = s.wax := by
  rw [inputReady_eq, onlyWork_scheduleAll allHives (inputIn slot s)]
  exact ⟨rfl, rfl⟩

theorem inputReady_winRead (slot part : Nat) (h : HiveId) (off n : Nat) (s : State) :
    (inputReady slot s).winRead part h off n = s.winRead part h off n := by
  obtain ⟨hcols, hwax⟩ := inputReady_keeps slot s
  obtain ⟨hbase, hsize⟩ := window_congr hwax hcols part
  rw [State.winRead, State.winRead, hbase, hsize, inputReady_cs]

theorem exec_inputCopyDone_waits {slot : SlotId} {s : State} {j : Job} (bytes : List Byte) (hj : s.job? slot.val = some j)
    (hb : (s.fn (.vf j.col)).bme = false) : exec (.inputCopyDone slot bytes) s = .next s := by
  change execInputCopyDone slot bytes s = _
  simp only [execInputCopyDone, hj, hb, Bool.not_false, Bool.or_true, if_true]

/-- The input goes to the window on the hive that holds it, which is here the hive of the descriptor. -/
theorem exec_inputCopyDone {slot : SlotId} {bytes : List Byte} {s : State} {j : Job} {h : HiveId} (hj : s.job? slot.val = some j)
    (hp : j.inputPend = true) (hst : j.st = .running) (hlen : bytes.length = j.d.inLen) (hb : (s.fn (.vf j.col)).bme = true)
    (hin : hiveOf? j.d.inHive = some h) (hwin : j.winHive h = h) : exec (.inputCopyDone slot bytes) s =
      .next (inputReady slot.val (winWrite slot.val j.part.val h h j.d.inOff bytes (readsEnd (.input j.slot j.gen) s))) := by
  have hat : j.inAt? = some h := by rw [Job.inAt?, hin, Option.map_some, hwin]
  change execInputCopyDone slot bytes s = _
  simp only [execInputCopyDone, hj, hp, hst, hlen, hb, hin, hat, bne_self_eq_false, Bool.not_true, Bool.or_self, Bool.false_eq_true,
    if_false]

end Sys2Proof.Machine

end

section
/-! The record of a completed job goes to its ring and frees its slot (R249 to R252). -/

namespace Sys2Proof.Machine

-- the write of a record (R251, R252)

/-- What the write of a record makes of a colony's registers: the tail advances, PHASE flips at the wrap, and `n` records have not
been signalled. -/
def VfRegs.recorded (n : Nat) (v : VfRegs) : VfRegs :=
  let wrap := v.cqTail + 1 == v.cqSize
  { v with cqTail := if wrap then 0 else v.cqTail + 1, cqPhase := if wrap then !v.cqPhase else v.cqPhase, modPend := n }

theorem recorded_tail (n : Nat) (v : VfRegs) :
    (v.recorded n).cqTail = if v.cqTail + 1 = 2 ^ v.cqLog2.toNat then 0 else v.cqTail + 1 := by
  simp only [VfRegs.recorded, VfRegs.cqSize, beq_iff_eq]

theorem recorded_phase (n : Nat) (v : VfRegs) :
    (v.recorded n).cqPhase = if v.cqTail + 1 = 2 ^ v.cqLog2.toNat then !v.cqPhase else v.cqPhase := by
  simp only [VfRegs.recorded, VfRegs.cqSize, beq_iff_eq]

/-- The posted write of a record at the tail of a colony's ring. -/
def recordTx (c : ColId) (r : CplRec) (v : VfRegs) : Tx :=
  .write (.vf c) .record (alignDown v.cqBase.toNat 12 + 32 * v.cqTail) (r.bytes v.cqPhase false)

/-- A record has gone to the tail of its ring, and its job is gone. -/
structure RecordWritten (c : ColId) (r : CplRec) (s t : State) : Prop where
  jobs : t.jobs = s.jobs.filter fun j => j.slot != r.slot
  co : ∃ n, t.co c = { s.co c with r := (s.co c).r.recorded n }
  tx : recordTx c r (s.co c).r ∈ t.tx

theorem SendsMore.co {s t : State} (h : SendsMore s t) (c : ColId) : t.co c = s.co c := co_congr h.cols c

theorem RecordWritten.more {c : ColId} {r : CplRec} {s t u : State} (h : RecordWritten c r s t) (k : SendsMore t u) :
    RecordWritten c r s u := by
  obtain ⟨n, hco⟩ := h.co
  exact ⟨k.jobs.trans h.jobs, ⟨n, (k.co c).trans hco⟩, k.tx h.tx⟩

theorem RecordWritten.job?_none {c : ColId} {r : CplRec} {s t : State} (h : RecordWritten c r s t) : t.job? r.slot = none := by
  rw [State.job?, h.jobs, List.find?_eq_none]
  intro j hj
  simpa [bne] using (List.mem_filter.1 hj).2

/-- A bus master sends a record at once, and no Relaxed Ordering stands on it. -/
theorem cellarWrite_record {c : ColId} {s : State} (addr : Nat) (bs : List Byte) (hb : (s.fn (.vf c)).bme = true) :
    cellarWrite (.vf c) .record addr bs s = s.send (.write (.vf c) .record addr bs) := by
  simp only [cellarWrite, cellarTx, hb, if_true, handOver, TxKind.isData, Bool.and_false]

/-- Moderation sets the count of records not signalled and may raise vector 0. -/
theorem moderate_says (c : ColId) (r : CplRec) (s : State) :
    ∃ n, SendsMore (updVf c (fun v => { v with modPend := n }) s) (moderate c r s) := by
  unfold moderate
  split
  · refine ⟨(s.co c).r.modPend, ?_⟩
    rw [updVf_eq_self rfl]
    exact sendsMore_refl s
  · dsimp only
    generalize (if (s.co c).r.modCnt = 0 then 1 else (s.co c).r.modCnt.toNat) = limit
    split
    · exact ⟨0, sendsMore_raise _ _ _⟩
    · exact ⟨_, sendsMore_refl _⟩

theorem sendsMore_cntCol (c : ColId) (ctr n : Nat) (s : State) : SendsMore s (cntCol c ctr n s) := sendsMore_obs _ s

/-- The counters and the glass record of a completion. -/
theorem sendsMore_noteRecord (c : ColId) (r : CplRec) (s : State) : SendsMore s (glassJob 5 c r.tag r.code.num (completeTail r)
    (if (r.code == .okDegraded) = true then cntCol c 9 1 (cntCol c 7 1 s) else cntCol c 7 1 s)) :=
  sendsMore_trans (sendsMore_trans (sendsMore_cntCol c 7 1 s) (sendsMore_ite (sendsMore_cntCol c 9 1 _) (sendsMore_refl _)))
    (sendsMore_glassJob 5 c r.tag r.code.num (completeTail r) _)

/-- A record that has been sent and noted leaves its job and stands to moderation. -/
theorem recordWritten_of_noted {c : ColId} {r : CplRec} {s u v : State} (hn : SendsMore u v) (hjobs : u.jobs = s.jobs)
    (hco : u.co c = { s.co c with r := (s.co c).r.recorded (s.co c).r.modPend }) (htx : recordTx c r (s.co c).r ∈ u.tx) :
    RecordWritten c r s (moderate c r (dropJob r.slot v)) := by
  obtain ⟨n, hmod⟩ := moderate_says c r (dropJob r.slot v)
  have hdrop : (dropJob r.slot v).co c = { s.co c with r := (s.co c).r.recorded (s.co c).r.modPend } := (hn.co c).trans hco
  refine RecordWritten.more ⟨?jobs, ⟨n, ?co⟩, ?tx⟩ hmod
  case jobs => exact congrArg (List.filter fun j => j.slot != r.slot) (hn.jobs.trans hjobs)
  case co =>
    rw [updVf_co, hdrop]
    rfl
  case tx => exact hn.tx htx

theorem writeRec_says {c : ColId} (r : CplRec) {s : State} (hb : (s.fn (.vf c)).bme = true) :
    RecordWritten c r s (writeRec c r s) ∧ (writeRec c r s).hives = s.hives := by
  unfold writeRec
  dsimp only
  rw [cellarWrite_record _ _ hb]
  have hnoted := sendsMore_noteRecord c r
  refine ⟨recordWritten_of_noted (hnoted _) rfl (updVf_co c _ _) (List.mem_cons_self ..), ?_⟩
  obtain ⟨n, hmod⟩ := moderate_says c r (dropJob r.slot (glassJob 5 c r.tag r.code.num (completeTail r) _))
  exact hmod.hives.trans (hnoted _).hives

-- a record that waited, and the delay limit

theorem exec_cqRecordWrite_waits {c : ColId} {s : State} {r : CplRec} {rest : List CplRec} (hw : (s.co c).r.waiting = r :: rest)
    (hno : (s.co c).r.cqFull = true ∨ (s.fn (.vf c)).bme = false) : exec (.cqRecordWrite c) s = .next s := by
  have hguard : ((s.co c).r.cqFull || !(s.fn (.vf c)).bme) = true := by simpa using hno
  change execCqRecordWrite c s = _
  simp only [execCqRecordWrite, hw, hguard, if_true]

theorem exec_cqRecordWrite {c : ColId} {s : State} {r : CplRec} {rest : List CplRec} (hw : (s.co c).r.waiting = r :: rest)
    (hf : (s.co c).r.cqFull = false) (hb : (s.fn (.vf c)).bme = true) : exec (.cqRecordWrite c) s =
      .next (drainStep (writeRec c r (updVf c (fun v => { v with waiting := rest }) s))) := by
  change execCqRecordWrite c s = _
  simp only [execCqRecordWrite, hw, hf, hb, Bool.not_true, Bool.or_self, Bool.false_eq_true, if_false]

theorem exec_cqModTimer {c : ColId} {s : State} (hu : (s.co c).r.modUsec ≠ 0) (hp : (s.co c).r.modPend ≠ 0) :
    exec (.cqModTimer c) s = .next (raise (.vf c) 0 (updVf c (fun v => { v with modPend := 0 }) s)) :=
  congrArg Host.Outcome.next (if_pos (Bool.and_eq_true_iff.2 ⟨bne_iff_ne.2 hu, bne_iff_ne.2 hp⟩))

theorem exec_cqModTimer_nothing {c : ColId} {s : State} (h : (s.co c).r.modUsec = 0 ∨ (s.co c).r.modPend = 0) :
    exec (.cqModTimer c) s = .next s :=
  congrArg Host.Outcome.next (if_neg (by rcases h with h | h <;> simp [h]))

-- the end of a job (R249)

theorem slot_of_job? {s : State} {slot : Nat} {j : Job} (h : s.job? slot = some j) : j.slot = slot := by
  rw [State.job?, List.find?_eq_some_iff_getElem] at h
  exact eq_of_beq h.1

theorem exec_jobEnd_over {slot : SlotId} {s : State} {j : Job} (hj : s.job? slot.val = some j) (hover : s.jobOver j = true) :
    exec (.jobEnd slot) s = .next (completeJob slot.val s) := by
  change execJobEnd slot s = _
  simp only [execJobEnd, hj, hover, if_true]

theorem exec_jobEnd_runs {slot : SlotId} {s : State} {j : Job} (hj : s.job? slot.val = some j) (hover : s.jobOver j = false) :
    exec (.jobEnd slot) s = .next s := by
  change execJobEnd slot s = _
  simp only [execJobEnd, hj, hover, Bool.false_eq_true, if_false]

theorem onlyWork_keeps {s t : State} (h : OnlyWork s t) : t.cols = s.cols ∧ t.jobs = s.jobs ∧ t.tx = s.tx := by
  rw [h]
  exact ⟨rfl, rfl, rfl⟩

/-- The state in which the record of a completed job is formed: its programs and the saved sets of its slot are gone. -/
def programsGone (slot : Nat) (s : State) : State :=
  { dropPrograms slot s with guard := { s.guard with saves := s.guard.saves.filter fun x => x.slot != slot } }

theorem programsGone_cs (slot : Nat) (s : State) (k : HiveId) : ((programsGone slot s).hv k).cs = (s.hv k).cs :=
  (congrArg Hive.cs (Vector.getElem_map (xs := s.hives) _ k.isLt)).trans rfl

/-- With space in the ring a record is written at once. -/
theorem putRec_writes {c : ColId} {r : CplRec} {s : State} (hf : (s.co c).r.cqFull = false) (hw : (s.co c).r.waiting = [])
    (hb : (s.fn (.vf c)).bme = true) : putRec c r s = writeRec c r s := by
  simp only [putRec, hf, hw, hb, List.isEmpty_nil, Bool.not_true, Bool.or_self, Bool.false_and, Bool.false_eq_true, if_false]

/-- The record of a job that ended with OK and has no result. -/
def okRecord (slot : Nat) (j : Job) (s : State) : CplRec := mkRec (programsGone slot s) j { code := .ok } none

/-- A queue job that ends with OK and without output comes to its record. -/
theorem completeJob_ok {slot : Nat} {s : State} {j : Job} {q : Fin 4} (hj : s.job? slot = some j) (hk : j.kind = .queue q)
    (hst : j.st = .running) (hend : j.ending = none) (hdeg : j.degr = 0) (hseal : j.sealed = false) (hout : j.d.outLen = 0)
    (hrep : j.repeats = 0) : completeJob slot s = drainStep (endReset j.col (scheduleAll allHives
      (putRec j.col (okRecord slot j s) (programsGone slot s)))) := by
  have hhome : j.isHome = true := by rw [Job.isHome, hk]
  have hexp : j.isExpress = false := by rw [Job.isExpress, hk]
  have hok : j.okEnding = { code := .ok } := if_pos hdeg
  have hgoes : (JobSt.running == JobSt.ended) = false := rfl
  have hread : ∀ part h off, s.winRead part h off 0 = [] := fun _ _ _ => rfl
  unfold completeJob
  simp only [hj, hst, hhome, hexp, hseal, hend, hout, hrep, hok, hread, putJobRec, hk, hgoes, bne_self_eq_false, beq_self_eq_true,
    Bool.not_true, Bool.and_false, Bool.true_or, Bool.false_eq_true, if_false, if_true]
  cases j.outAt? <;> rfl

/-- Programs that start after a record is written change nothing of it, and no reset ends where none is under way. -/
theorem RecordWritten.completes {c : ColId} {r : CplRec} {s t : State} (h : RecordWritten c r s t) (hbusy : (s.co c).resetBusy = false)
    (l : List HiveId) : RecordWritten c r s (drainStep (endReset c (scheduleAll l t))) := by
  obtain ⟨hcols, hjobs, htx⟩ := onlyWork_keeps (onlyWork_scheduleAll l t)
  obtain ⟨n, hco⟩ := h.co
  have hco' : (scheduleAll l t).co c = { s.co c with r := (s.co c).r.recorded n } := (co_congr hcols c).trans hco
  rw [endReset_idle (by rw [hco']; exact hbusy)]
  exact RecordWritten.more ⟨hjobs.trans h.jobs, ⟨n, hco'⟩, by rw [htx]; exact h.tx⟩ (sendsMore_drainStep _)

/-- After a record is written in a colony without a reset comb stores stand. -/
theorem RecordWritten.completes_cs {c : ColId} {r : CplRec} {s t : State} (h : RecordWritten c r s t) (hbusy : (s.co c).resetBusy = false)
    (l : List HiveId) (k : HiveId) : ((drainStep (endReset c (scheduleAll l t))).hv k).cs = (t.hv k).cs := by
  obtain ⟨hcols, -, -⟩ := onlyWork_keeps (onlyWork_scheduleAll l t)
  obtain ⟨n, hco⟩ := h.co
  rw [hv_congr (sendsMore_drainStep _).hives, endReset_idle (by rw [co_congr hcols, hco]; exact hbusy), (scheduleAll_hv l t k).1]

theorem jobOver_running {s : State} {j : Job} (h : s.jobOver j = true) : j.st = .running := by
  simp only [State.jobOver, Bool.and_eq_true, beq_iff_eq] at h
  exact h.1.1.1.1

end Sys2Proof.Machine

section

open Sys2Proof Sys2Proof.Machine

/-- Settles O31: the input lands by `memReadWrap_memWriteWrap`, and a record, of a job that ends or one that waited, leaves by
`writeRec` as `RecordWritten` says. -/
theorem inputsAndCompletionRecords : Obligations.InputsAndCompletionRecords := by
  refine ⟨fun slot bytes s j h hj hp hst hlen hb hin hwin hfit hr hwf => ?input, fun slot bytes s j => exec_inputCopyDone_waits bytes,
    fun c s => ⟨fun slot j q hj hk hcol hover hend hdeg hseal hout hrreg hrep hf hw hbusy hb => ?jobEnds, fun slot j => exec_jobEnd_runs,
      fun r rest => exec_cqRecordWrite_waits, fun r rest hw hf hb => ?waited, exec_cqModTimer, exec_cqModTimer_nothing⟩⟩
  case input =>
    have hread : (readsEnd (.input j.slot j.gen) s).progRegion j.part.val h = none := hr
    obtain ⟨hjobs, hcols, hother⟩ := winWrite_open_keeps (slot := slot.val) (h := h) hread j.d.inOff bytes
    refine ⟨_, exec_inputCopyDone hj hp hst hlen hb hin hwin, ?_, ?_, fun k p => inputReady_wait, fun k hk => ?_,
      (inputReady_keeps _ _).1.trans hcols⟩
    · rw [inputReady_winRead]
      exact winRead_winWrite hread hfit hwf
    · rw [inputReady_job?, job?_congr hjobs]
      exact congrArg (Option.map fun _ => false) hj
    · rw [inputReady_cs, hother k hk]
      rfl
  case jobEnds =>
    subst hcol
    obtain ⟨hwritten, hhives⟩ := writeRec_says (s := programsGone slot.val s) (okRecord slot.val j s) hb
    have hrec := hwritten.completes hbusy allHives
    obtain ⟨n, hco⟩ := hrec.co
    have hdone := completeJob_ok hj hk (jobOver_running hover) hend hdeg hseal hout hrep
    rw [putRec_writes (s := programsGone slot.val s) hf hw hb] at hdone
    refine ⟨_, okRecord slot.val j s, (exec_jobEnd_over hj hover).trans (congrArg _ hdone), ?_, rfl, rfl, rfl, rfl, rfl, rfl, hrec.tx, ?_,
      ?_, fun k => ?_⟩
    · have hslot : (okRecord slot.val j s).slot = slot.val := slot_of_job? hj
      have hnone := hrec.job?_none
      rw [hslot] at hnone
      exact hnone
    · rw [hco]
      exact recorded_tail n _
    · rw [hco]
      exact recorded_phase n _
    · rw [hwritten.completes_cs hbusy, hv_congr hhives, programsGone_cs]
  case waited =>
    obtain ⟨hwritten, hhives⟩ := writeRec_says (s := updVf c (fun v => { v with waiting := rest }) s) r hb
    have hmore := sendsMore_drainStep (writeRec c r (updVf c (fun v => { v with waiting := rest }) s))
    have hrec := hwritten.more hmore
    obtain ⟨n, hco⟩ := hrec.co
    have htx := hrec.tx
    rw [updVf_r] at hco htx
    refine ⟨_, exec_cqRecordWrite hw hf hb, hrec.job?_none, ?_, htx, ?_, hmore.hives.trans hhives⟩
    · rw [hco]
      rfl
    · rw [hco]
      exact recorded_tail n _

end

end

section
/-! A program of a slot that is left on a hive while the slot's next job is dispatched (R238, R253): of two programs of one slot
and home the first in the order starts, and both leave the list of those that wait. -/

namespace Sys2Proof.Machine

/-- Hive 13 in partition 0 and hive 95 in the express partition, which admits colony 0. -/
def leftoverWax : WaxImg := {
  hives := [{ hive := 13, pid := 0, combEn := 0xFF }, { hive := 95, pid := 0x40, combEn := 0xFF }]
  parts := [{ pid := 0, nHive := 1, csKib := 1024, supMib := 0 }, { pid := 0x40, nHive := 1, csKib := 64, supMib := 0 }]
  express := some { owner := 0, nHive := 1, maxSteps := 4, maxCyc := 4096, colmask := 1 } }

/-- A model of one program on one hive. -/
def leftoverModel (part : PartId) (h : HiveId) : Model := {
  part := part, waxVer := 0, targets := [], dir := [{ hive := h, nInstr := 1, imgOff := 0, csOff := 0 }], image := 0, seeds := []
  layers := [], usesSync := false, usesMov := false, ents := [], plans := [] }

/-- A part in READY with one queued job whose model is loaded; on the model's hive a program of the job's slot is left, which
stands at instruction 5. -/
def leftoverPart (j : Job) (h : HiveId) : State :=
  updHive h (fun x => { x with wait := [{ slot := j.slot, home := h, pc := 5, cls := 3 }] }) {
    boot := { stage := 6 }, wax := { img := leftoverWax }, rpr := { pcol := hostCols [] }, models := [leftoverModel j.part h], jobs := [j] }

/-- A queue job of colony 0. -/
def leftoverJob : Job := {
  slot := 0, gen := 1, col := 0, kind := .queue 0, part := 0, st := .queued, d := { inHive := 13, outHive := 13 } }

/-- An express request of colony 0 without a payload. -/
def leftoverRequest : Job := {
  slot := 960, gen := 1, col := 0, kind := .express [] false 0, part := 0x40, st := .queued, d := { cls := 3, inHive := 95, outHive := 95 } }

/-- The hive runs the program that was left at instruction 5, and none waits. -/
def runsLeftover (h : HiveId) (s : State) : Prop := (s.hv h).run.map (·.pc) = some 5 ∧ (s.hv h).wait = []

/-- On a hive that runs what was left no program stands at instruction 0. -/
theorem runsLeftover_pc {h : HiveId} {s : State} (hl : runsLeftover h s) {p : Prog}
    (hp : (s.hv h).run = some p ∨ p ∈ (s.hv h).wait) : p.pc ≠ 0 := by
  obtain ⟨hrun, hwait⟩ := hl
  rcases hp with hp | hp
  · rw [hp] at hrun
    have hpc : p.pc = 5 := Option.some.inj hrun
    rw [hpc]
    decide
  · rw [hwait] at hp
    exact absurd hp List.not_mem_nil

theorem leftoverJob_ready : let s := leftoverPart leftoverJob 13
    s.job? 0 = some leftoverJob ∧ s.mayDispatch leftoverJob = true ∧ s.checkFail 0 leftoverJob.d true = none ∧
    s.unreached leftoverJob = none ∧ s.others leftoverJob = [] ∧ s.model? 0 = some (leftoverModel 0 13) := by
  decide +kernel

theorem leftoverJob_dispatched : ∃ t, exec (.jobDispatch 0) (leftoverPart leftoverJob 13) = .next t ∧ runsLeftover 13 t :=
  ⟨tryDispatch 0 leftoverJob (leftoverPart leftoverJob 13), rfl, by unfold runsLeftover; decide +kernel⟩

theorem leftoverRequest_ready : let s := leftoverPart leftoverRequest 95
    s.job? 960 = some leftoverRequest ∧ s.xpNext leftoverRequest = true ∧ s.holds 0x40 = false ∧ s.pwr.stage < 5 ∧ s.isReady = true ∧
    s.xpFail 0 leftoverRequest.d = none ∧ s.model? 0x40 = some (leftoverModel 0x40 95) := by
  decide +kernel

theorem leftoverRequest_started : ∃ t, exec (.expressStart 0) (leftoverPart leftoverRequest 95) = .next t ∧ runsLeftover 95 t :=
  ⟨startJob 960 (placePayload leftoverRequest (glassDispatch leftoverRequest
    (updJob 960 (fun j => { j with st := .running }) (leftoverPart leftoverRequest 95)))), rfl, by unfold runsLeftover; decide +kernel⟩

end Sys2Proof.Machine

section

open Sys2Proof Sys2Proof.Machine

/-- Refutes O30: its clause on a dispatch that passes its checks does not ask that no program of the slot is left on a hive of the
directory. One that stands at instruction 5 goes first, and the program of the job leaves the list with it. -/
theorem not_dispatchPlacesThePrograms : ¬ Obligations.DispatchPlacesThePrograms := by
  intro h
  obtain ⟨hjob, hmay, hcheck, hreach, hothers, hmodel⟩ := leftoverJob_ready
  obtain ⟨-, hplaces, -⟩ := h 0 (leftoverPart leftoverJob 13) leftoverJob 0 hjob rfl
  obtain ⟨t, i, hexec, -, -, -, -, -, hprogs⟩ := hplaces _ hmay hcheck rfl hreach hothers hmodel
  obtain ⟨u, hu, hleft⟩ := leftoverJob_dispatched
  obtain rfl : u = t := Host.Outcome.next.inj (hu.symm.trans hexec)
  obtain ⟨p, hp, -, -, hpc, -⟩ := hprogs _ (List.mem_singleton.2 rfl)
  exact runsLeftover_pc hleft hp hpc

/-- Refutes O34: its clause on the start of the request that is next does not ask that no program of the slot is left on an express
hive. One that stands at instruction 5 goes first, and the program of the request leaves the list with it. -/
theorem not_expressRequests : ¬ Obligations.ExpressRequests := by
  intro h
  obtain ⟨hjob, hnext, hholds, hstage, hready, hfail, hmodel⟩ := leftoverRequest_ready
  obtain ⟨-, -, -, -, hstarts, -⟩ := h 0 0 (leftoverPart leftoverRequest 95)
  obtain ⟨t, i, hexec, -, -, -, hprogs⟩ := hstarts _ _ hjob rfl ⟨_, _, _, rfl⟩ rfl hnext hholds hstage hready hfail hmodel
  obtain ⟨u, hu, hleft⟩ := leftoverRequest_started
  obtain rfl : u = t := Host.Outcome.next.inj (hu.symm.trans hexec)
  obtain ⟨p, hp, -, -, -, hpc, -⟩ := hprogs _ (List.mem_singleton.2 rfl)
  exact runsLeftover_pc hleft hp hpc

end

end

section
/-! Register writes through a BAR (R7 to R9, R276, R280, R460): which requests are refused, which words reach a register, and what a
write of 1 clears. -/

namespace Sys2Proof.Machine

-- bits set in the cycle of the write (R9)

theorem length_keepSet (who : Req) (off : Nat) (same : DWord) (ws : List (Word × BitVec 4)) :
    (keepSet who off same ws).length = ws.length := List.length_mapIdx

/-- With no bit set in its cycle a write keeps its words. -/
theorem keepSet_zero (who : Req) (off : Nat) (ws : List (Word × BitVec 4)) : keepSet who off 0 ws = ws := by
  have hword : ∀ (n : Nat) (w : Word), w &&& ~~~(((0 : DWord) >>> n).setWidth 32) = w := fun n w => by
    rw [show (0 : DWord) >>> n = 0 from BitVec.zero_ushiftRight]
    exact BitVec.and_allOnes
  refine List.ext_getElem (length_keepSet who off 0 ws) fun i _ _ => ?_
  simp only [keepSet, List.getElem_mapIdx, hword, ite_self]

theorem keepSet_single {who : Req} {a : Nat} {r : Reg} (hn : regNamed who a = some r) (same : DWord) (v : Word) (be : BitVec 4) :
    keepSet who a same [(v, be)] = [(if r.hasW1c then v &&& ~~~(same.setWidth 32) else v, be)] := by
  simp only [keepSet, List.mapIdx_cons, List.mapIdx_nil, Nat.mul_zero, Nat.add_zero, hn, Option.map_some, Option.getD_some]
  split <;> simp

-- requests that are refused

section
variable {who : Req} {a : Nat} {ws : List (Word × BitVec 4)} {s : State}

theorem exec_barWrite_same (same : DWord) :
    exec (.registerWrite (.bar who a ws same)) s = .next (barWrite who a (keepSet who a same ws) s) := rfl

theorem exec_barWrite : exec (.registerWrite (.bar who a ws)) s = .next (barWrite who a ws s) := by
  rw [exec_barWrite_same, keepSet_zero]

theorem barWrite_unanswered (ha : s.answers who = false) : barWrite who a ws s = aerUnc (reqFn who) 20 s :=
  if_pos (by rw [ha]; rfl)

theorem barRead_unanswered (n : Nat) (ha : s.answers who = false) : barRead who a n s = (aerUnc (reqFn who) 20 s).cpl .ur :=
  if_pos (by rw [ha]; rfl)

theorem goodSpan_iff {n : Nat} : goodSpan a n = true ↔ n = 1 ∧ a % 4 = 0 ∨ n = 2 ∧ a % 8 = 0 := by
  simp [goodSpan]

variable (ha : s.answers who = true) (hfit : a + 4 * ws.length ≤ barSize who) (hm : mailOff who a = none)
include ha hfit hm

theorem barWrite_misaligned (h1 : ¬(ws.length = 1 ∧ a % 4 = 0)) (h2 : ¬(ws.length = 2 ∧ a % 8 = 0)) :
    barWrite who a ws s = aerUnc (reqFn who) 15 s := by
  have hfits : ¬ barSize who < a + 4 * ws.length := Nat.not_lt.2 hfit
  have hbad : goodSpan a ws.length = false := by
    rw [← Bool.not_eq_true, goodSpan_iff]
    exact not_or.2 ⟨h1, h2⟩
  simp only [barWrite, ha, hfits, hm, hbad, Bool.not_true, decide_false, Bool.or_self, Bool.false_eq_true, if_false, Bool.not_false,
    if_true]
  rfl

end

-- words that reach a register (R280)

section
variable {who : Req} {a : Nat} {s : State}

theorem writeWord_whole {r : Reg} (hn : regNamed who a = some r) (hs : s.boot.stage ≠ 7) (v : Word) :
    writeWord who a (v, 0xF) s = regWrite r v s := by
  simp only [writeWord, bne_self_eq_false, hn, beq_false_of_ne hs, Bool.false_and, Bool.false_eq_true, if_false]

theorem writeWord_partial {be : BitVec 4} (hbe : be ≠ 0xF) (v : Word) : writeWord who a (v, be) s = s :=
  if_pos (bne_iff_ne.2 hbe)

variable (ha : s.answers who = true) (hfit : a + 8 ≤ barSize who) (h8 : a % 8 = 0) (hm : mailOff who a = none)
include ha hfit h8 hm

theorem barWrite_one (w : Word × BitVec 4) : barWrite who a [w] s = writeWord who a w (s.cpl .sc) := by
  have hfits : ¬ barSize who < a + 4 * 1 := by omega
  have hgood : goodSpan a 1 = true := goodSpan_iff.2 (Or.inl ⟨rfl, by omega⟩)
  simp only [barWrite, List.length_singleton, ha, hfits, hm, hgood, Bool.not_true, decide_false, Bool.or_self, Bool.false_eq_true,
    if_false]

theorem barWrite_two (w x : Word × BitVec 4) :
    barWrite who a [w, x] s = writeWord who (a + 4) x (writeWord who a w (s.cpl .sc)) := by
  have hfits : ¬ barSize who < a + 4 * 2 := by omega
  have hgood : goodSpan a 2 = true := goodSpan_iff.2 (Or.inr ⟨rfl, h8⟩)
  simp only [barWrite, show [w, x].length = 2 from rfl, ha, hfits, hm, hgood, Bool.not_true, decide_false, Bool.or_self,
    Bool.false_eq_true, if_false]

end

/-- A write of 1 to bits of an event register clears exactly these (R7). -/
theorem evGet_evClear (e : EvSrc) (v : Word) (s : State) : evGet (evClear e v s) e = evGet s e &&& ~~~v := evGet_evSet e _ s

end Sys2Proof.Machine

section

open Sys2Proof Sys2Proof.Machine

/-- Settles O4: a request is refused or reaches `writeWord`; a write to a register of fields RO falls through `regWrite`. -/
theorem registerWritesReachTheirRegisters : Obligations.RegisterWritesReachTheirRegisters := by
  refine ⟨fun who a ws s => ⟨fun ha => ?unanswered, fun ha hfit hm h1 h2 => ?misaligned, fun n => barRead_unanswered n⟩,
    fun who a r q v x be s ha hs hfit h8 hm hr hq => ⟨?whole, fun same => ?same, fun hbe => ?disabled, fun hs' => ?two⟩,
    fun s v p b o h who => ?events, fun s v c p b k o h q hi g f => ?readOnly⟩
  case unanswered => rw [exec_barWrite, barWrite_unanswered ha]
  case misaligned => rw [exec_barWrite, barWrite_misaligned ha hfit hm h1 h2]
  case whole =>
    rw [exec_barWrite, barWrite_one ha hfit h8 hm, writeWord_whole (s := s.cpl .sc) hr hs]
    rfl
  case same =>
    rw [exec_barWrite_same, keepSet_single hr, barWrite_one ha hfit h8 hm, writeWord_whole (s := s.cpl .sc) hr hs]
    rfl
  case disabled =>
    rw [exec_barWrite, barWrite_one ha hfit h8 hm, writeWord_partial hbe]
    rfl
  case two =>
    rw [exec_barWrite, barWrite_two ha hfit h8 hm, writeWord_whole (s := s.cpl .sc) hr hs]
    exact congrArg Host.Outcome.next (writeWord_whole hq hs' x)
  case events =>
    exact ⟨rfl, rfl, rfl, rfl, rfl, rfl, rfl, rfl, rfl, evGet_evClear (.exo p) v s, evGet_evClear (.phx b) v s,
      evGet_evClear (.ovs o) v s, evGet_evClear (.hive h) v s⟩
  case readOnly =>
    simp only [List.forall_mem_cons, List.not_mem_nil, false_implies, implies_true, and_true]
    and_intros <;> rfl

end

end

section
/-! The link and the functions (R269, R274, R275, R277): the VFs that exist go through a Function Level Reset one after the other. -/

namespace Sys2Proof.Machine

-- the link and VF Enable

section
variable {w sp : Nat} {s : State}

theorem exec_linkUp (hp : s.boot.pcie = true) (hl : s.boot.perstLow = false) (hw : w ∈ [16, 8, 4]) (h1 : 1 ≤ sp) (h5 : sp ≤ 5) :
    exec (.linkUp w sp) s =
      .next { s with host := { s.host with link := { up := true, width := w, speed := sp, adv := FcCredits.part } } } := by
  have hwidth : (w == 16 || w == 8 || w == 4) = true := by simpa [or_assoc] using hw
  change Host.Outcome.next (if _ then _ else _) = _
  simp only [hp, hl, hwidth, h1, h5, Bool.not_false, decide_true, Bool.and_self, if_true]

theorem exec_linkUp_fails (h : w ∉ [16, 8, 4] ∨ s.boot.pcie = false) : exec (.linkUp w sp) s = .next s := by
  refine congrArg Host.Outcome.next (if_neg fun hup => ?_)
  simp only [Bool.and_eq_true, Bool.or_eq_true, beq_iff_eq] at hup
  obtain ⟨⟨⟨⟨hpcie, -⟩, hwidth⟩, -⟩, -⟩ := hup
  rcases h with hw | hp
  · simp only [List.mem_cons, List.not_mem_nil, or_false, not_or] at hw
    omega
  · exact absurd (hp.symm.trans hpcie) (by decide)

theorem exec_vfEnable (hr : s.isReady = true) (hp : s.host.sriov.pageSize = 1) :
    exec .vfEnable s = .next { s with host := { s.host with sriov := { s.host.sriov with vfEnable := true } } } :=
  congrArg Host.Outcome.next (if_pos (by rw [hr, hp]; rfl))

theorem exec_vfEnable_ignored (hp : s.host.sriov.pageSize ≠ 1) : exec .vfEnable s = .next s :=
  congrArg Host.Outcome.next (if_neg (by rw [beq_false_of_ne hp, Bool.and_false]; decide))

end

-- the resets of the VFs (R275)

/-- No colony has a record that waits, and none is in reset. -/
def State.colsQuiet (s : State) : Prop := ∀ c, (s.co c).r.waiting = [] ∧ (s.co c).r.xpHeld = none ∧ (s.co c).resetBusy = false

/-- Only the colonies, the configuration state of their VFs and the shadows moved. -/
def OnlyVfs (s t : State) : Prop := t = { s with host := { s.host with vf := t.host.vf }, cols := t.cols, shadows := t.shadows }

theorem onlyVfs_trans {s t u : State} (h : OnlyVfs s t) (k : OnlyVfs t u) : OnlyVfs s u := by
  rw [OnlyVfs] at *
  rw [h] at k
  exact k

/-- A reset of the colonies of a list is over: these and their VFs are at reset, and the others stand. -/
structure ColsReset (l : List ColId) (s t : State) : Prop where
  frame : OnlyVfs s t
  within : ∀ c, c ∈ l → (t.co c).r = {} ∧ t.host.vf[c] = { FnSt.vfReset with held := (s.host.vf[c]).held }
  outside : ∀ c, c ∉ l → t.co c = s.co c ∧ t.host.vf[c] = s.host.vf[c]

theorem colsReset_nil (s : State) : ColsReset [] s s := ⟨rfl, fun _ h => absurd h List.not_mem_nil, fun _ _ => ⟨rfl, rfl⟩⟩

/-- The Function Level Reset of one VF whose colony has no job. -/
def vfFlrDone (c : ColId) (s : State) : State := resetEnds c true (updCol c (Colony.resetting true) s)

theorem onlyVfs_vfFlrDone (c : ColId) (s : State) : OnlyVfs s (vfFlrDone c s) := rfl

theorem vfFlrDone_co (c : ColId) (s : State) : ((vfFlrDone c s).co c).r = {} :=
  congrArg Colony.r (resetEnds_co c true _)

theorem vfFlrDone_vf (c : ColId) (s : State) : (vfFlrDone c s).host.vf[c] = { FnSt.vfReset with held := (s.host.vf[c]).held } :=
  resetEnds_fn c true (updCol c (Colony.resetting true) s)

theorem vfFlrDone_co_other {c d : ColId} (s : State) (hd : d ≠ c) : (vfFlrDone c s).co d = s.co d :=
  (resetEnds_co_other true _ hd).trans (updCol_co_other c d _ s hd)

theorem vfFlrDone_vf_other {c d : ColId} (s : State) (hd : d ≠ c) : (vfFlrDone c s).host.vf[d] = s.host.vf[d] :=
  resetEnds_fn_other true (updCol c (Colony.resetting true) s) hd

theorem colsQuiet_vfFlrDone {s : State} (hq : s.colsQuiet) (c : ColId) : (vfFlrDone c s).colsQuiet := by
  intro d
  by_cases hd : d = c
  · subst hd
    rw [vfFlrDone_co]
    exact ⟨rfl, rfl, congrArg Colony.resetBusy (resetEnds_co d true _)⟩
  · rw [vfFlrDone_co_other s hd]
    exact hq d

/-- The reset of one more colony, before those of a list that does not name it. -/
theorem colsReset_cons {c : ColId} {l : List ColId} {s t : State} (hc : c ∉ l) (h : ColsReset l (vfFlrDone c s) t) :
    ColsReset (c :: l) s t := by
  refine ⟨?frame, fun d hd => ?within, fun d hd => ?outside⟩
  case frame => exact onlyVfs_trans (onlyVfs_vfFlrDone c s) h.frame
  case within =>
    rcases List.mem_cons.1 hd with rfl | hin
    · obtain ⟨hco, hvf⟩ := h.outside d hc
      rw [hco, hvf]
      exact ⟨vfFlrDone_co d s, vfFlrDone_vf d s⟩
    · have hne : d ≠ c := fun e => hc (e ▸ hin)
      have hin := h.within d hin
      rwa [vfFlrDone_vf_other s hne] at hin
  case outside =>
    rw [List.mem_cons, not_or] at hd
    have hout := h.outside d hd.2
    rwa [vfFlrDone_co_other s hd.1, vfFlrDone_vf_other s hd.1] at hout

theorem colsReset_resetCols {l : List ColId} (hl : l.Nodup) {s : State} (hj : s.jobs = []) (hq : s.colsQuiet) :
    ColsReset l s (resetCols l s) := by
  induction l generalizing s with
  | nil => exact colsReset_nil s
  | cons c r ih =>
    obtain ⟨hc, hr⟩ := List.nodup_cons.1 hl
    obtain ⟨hwait, hheld, hbusy⟩ := hq c
    have hqueue : s.queueJobs c = [] := by rw [State.queueJobs, hj]; rfl
    have hfree : s.inFlight c = false := by rw [State.inFlight, hj]; rfl
    have hone : colonyReset c true s = vfFlrDone c s := colonyReset_ends hbusy hqueue hwait hheld true hfree
    rw [resetCols, hone]
    exact colsReset_cons hc (ih hr hj (colsQuiet_vfFlrDone hq c))

/-- The colonies whose VFs exist. -/
def State.vfList (s : State) : List ColId := (List.finRange 64).filter s.vfExists

theorem mem_vfList {s : State} {c : ColId} : c ∈ s.vfList ↔ s.vfExists c = true := by
  simp [State.vfList]

theorem not_mem_vfList {s : State} {c : ColId} (h : s.vfExists c = false) : c ∉ s.vfList := by
  rw [mem_vfList, h]
  decide

theorem colsReset_vfList {s : State} (hj : s.jobs = []) (hq : s.colsQuiet) : ColsReset s.vfList s (resetCols s.vfList s) :=
  colsReset_resetCols ((List.nodup_finRange 64).filter _) hj hq

theorem vfsOff_eq (s : State) : vfsOff s = { resetCols s.vfList s with host := { (resetCols s.vfList s).host with
    sriov := { (resetCols s.vfList s).host.sriov with vfEnable := false } } } := rfl

theorem exec_vfDisable (s : State) : exec .vfDisable s = .next (vfsOff s) := rfl

end Sys2Proof.Machine

section

open Sys2Proof Sys2Proof.Machine

/-- Settles O36: VF disable, and the FLR of PF0 with it, is `ColsReset` on the VFs that exist. -/
theorem linkAndFunctions : Obligations.LinkAndFunctions := by
  refine fun s => ⟨fun w sp => exec_linkUp, fun w sp => exec_linkUp_fails, exec_vfEnable, exec_vfEnable_ignored,
    fun hj hq => ?disable, fun hj hq => ?flr⟩
  case disable =>
    obtain ⟨hframe, hwithin, houtside⟩ := colsReset_vfList hj hq
    refine ⟨_, exec_vfDisable s, ?_⟩
    rw [vfsOff_eq]
    refine ⟨?_, ?_, ?_, ?_, fun c hc => hwithin c (mem_vfList.2 hc), fun c hc => houtside c (not_mem_vfList hc)⟩
    all_goals rw [hframe]
  case flr =>
    obtain ⟨hframe, hwithin, -⟩ := colsReset_vfList hj hq
    refine ⟨_, rfl, ?_⟩
    rw [vfsOff_eq]
    refine ⟨?_, rfl, rfl, fun k => ?_, ?_, fun c hc => (hwithin c (mem_vfList.2 hc)).1⟩
    · rw [hframe]
    · rw [hframe]
      exact Vector.getElem_map _ _
    · rw [hframe]

end

end

section
/-! MSI-X messages and Bus Master Enable (R276, R278, R279): what a function sends, what it keeps, and what leaves later. -/

namespace Sys2Proof.Machine

-- the configuration state of one function beside that of another

theorem updFn_fn_other {f g : Fn} (k : FnSt → FnSt) (s : State) (hg : g ≠ f) : (updFn f k s).fn g = s.fn g := by
  cases f with
  | pf0 =>
    cases g with
    | pf0 => exact absurd rfl hg
    | vf d => rfl
  | vf c =>
    cases g with
    | pf0 => rfl
    | vf d => exact updFn_vf_other k s fun e => hg (congrArg Fn.vf e)

theorem fn_congr {s t : State} (h : t.host = s.host) (f : Fn) : t.fn f = s.fn f := by
  cases f <;> simp only [State.fn, h]

-- the Pending Bit Array

theorem getLsbD_or_vector (p : BitVec 64) {v : Nat} (hv : v < 64) (i : Nat) :
    (p ||| BitVec.ofNat 64 (2 ^ v)).getLsbD i = (p.getLsbD i || decide (i = v)) := by
  rw [BitVec.getLsbD_or, BitVec.getLsbD_ofNat, Nat.testBit_two_pow]
  by_cases hi : i = v
  · subst hi
    simp [hv]
  · simp [hi, Ne.symm hi]

theorem getLsbD_and_not_vector (p : BitVec 64) {v : Nat} (hv : v < 64) (i : Nat) :
    (p &&& ~~~(BitVec.ofNat 64 (2 ^ v))).getLsbD i = (p.getLsbD i && decide (i ≠ v)) := by
  rw [BitVec.getLsbD_and, BitVec.getLsbD_not, BitVec.getLsbD_ofNat, Nat.testBit_two_pow]
  by_cases hi : i < 64
  · by_cases hiv : i = v
    · subst hiv
      simp [hi]
    · simp [hi, hiv, Ne.symm hiv]
  · rw [BitVec.getLsbD_of_ge p i (Nat.le_of_not_lt hi)]
    rfl

/-- The message of a vector. -/
def FnSt.message (f : Fn) (v : Nat) (x : FnSt) : Tx := .msix f v (x.ent v).addr (x.ent v).data

theorem open_iff_unheld {x : FnSt} {v : Nat} :
    x.open_ v = true ↔ x.msixEn = true ∧ x.msixMask = false ∧ (x.ent v).masked = false ∧ x.bme = true := by
  simp [FnSt.open_, and_assoc]

-- an event of a function (R278, R279)

section
variable {f : Fn} {v : Nat} {s : State}

theorem raise_disabled (h : (s.fn f).msixEn = false) : raise f v s = s := if_pos (by rw [h]; rfl)

theorem raise_sends (h : (s.fn f).open_ v = true) : raise f v s = { s with tx := (s.fn f).message f v :: s.tx } := by
  obtain ⟨hen, -⟩ := open_iff_unheld.1 h
  rw [raise, if_neg (by rw [hen]; decide), if_pos h]
  rfl

theorem raise_pends (hen : (s.fn f).msixEn = true) (h : (s.fn f).open_ v = false) :
    raise f v s = updFn f (fun x => { x with pba := x.pba ||| BitVec.ofNat 64 (2 ^ v) }) s := by
  rw [raise, if_neg (by rw [hen]; decide), if_neg (by rw [h]; decide)]

theorem closed_of_held (h : (s.fn f).msixMask = true ∨ ((s.fn f).ent v).masked = true ∨ (s.fn f).bme = false) :
    (s.fn f).open_ v = false := by
  rw [← Bool.not_eq_true, open_iff_unheld]
  rintro ⟨-, hmask, hent, hbme⟩
  rcases h with h | h | h
  · exact absurd (h.symm.trans hmask) (by decide)
  · exact absurd (h.symm.trans hent) (by decide)
  · exact absurd (h.symm.trans hbme) (by decide)

end

-- the messages that leave when their hold has ended (R278)

/-- A vector's pending bit is cleared. -/
def FnSt.unpend (v : Nat) (x : FnSt) : FnSt := { x with pba := x.pba &&& ~~~(BitVec.ofNat 64 (2 ^ v)) }

/-- Of a list of vectors those that nothing holds back are pending no more, and each that was pending has sent its message; beside
that nothing of the function moved. -/
structure Flushed (f : Fn) (vs : List Nat) (s t : State) : Prop where
  frame : t = { s with host := t.host, tx := t.tx }
  fn : t.fn f = { s.fn f with pba := (t.fn f).pba }
  pba : ∀ i, (t.fn f).pba.getLsbD i = ((s.fn f).pba.getLsbD i && !(decide (i ∈ vs) && (s.fn f).open_ i))
  tx : s.tx ⊆ t.tx
  sent : ∀ v, v ∈ vs → (s.fn f).open_ v = true → (s.fn f).pba.getLsbD v = true → (s.fn f).message f v ∈ t.tx

theorem flushed_nil (f : Fn) (s : State) : Flushed f [] s s :=
  ⟨rfl, rfl, fun i => by simp, List.Subset.refl _, fun _ h => absurd h List.not_mem_nil⟩

/-- A vector that is not pending, or that is held back, is passed over. -/
theorem Flushed.skip {f : Fn} {v : Nat} {vs : List Nat} {s t : State} (h : Flushed f vs s t)
    (hv : ((s.fn f).pba.getLsbD v && (s.fn f).open_ v) = false) : Flushed f (v :: vs) s t := by
  refine ⟨h.frame, h.fn, fun i => ?_, h.tx, fun w hw hopen hpend => ?_⟩
  · rw [h.pba i]
    by_cases hi : i = v
    · subst hi
      revert hv
      cases (s.fn f).pba.getLsbD i <;> cases (s.fn f).open_ i <;> simp
    · simp [hi]
  · rcases List.mem_cons.1 hw with rfl | hin
    · rw [hpend, hopen] at hv
      exact absurd hv (by decide)
    · exact h.sent w hin hopen hpend

/-- A pending vector that nothing holds back sends its message. -/
theorem Flushed.send {f : Fn} {v : Nat} {vs : List Nat} {s t : State}
    (h : Flushed f vs (updFn f (FnSt.unpend v) (sendMsix f v s)) t) (hpend : (s.fn f).pba.getLsbD v = true)
    (hopen : (s.fn f).open_ v = true) : Flushed f (v :: vs) s t := by
  have hlt : v < 64 := Decidable.byContradiction fun hge => by
    rw [BitVec.getLsbD_of_ge _ v (Nat.le_of_not_lt hge)] at hpend
    exact absurd hpend (by decide)
  have hfn : (updFn f (FnSt.unpend v) (sendMsix f v s)).fn f = (s.fn f).unpend v := by
    rw [updFn_fn]
    cases f <;> rfl
  have hopens : ∀ i, ((s.fn f).unpend v).open_ i = (s.fn f).open_ i := fun _ => rfl
  have hbit : ∀ i, ((s.fn f).unpend v).pba.getLsbD i = ((s.fn f).pba.getLsbD i && decide (i ≠ v)) :=
    getLsbD_and_not_vector _ hlt
  have htx : (s.fn f).message f v ∈ (updFn f (FnSt.unpend v) (sendMsix f v s)).tx := by
    rw [updFn_tx]
    exact List.mem_cons_self ..
  refine ⟨?_, ?_, fun i => ?_, fun x hx => h.tx ?_, fun w hw hwopen hwpend => ?_⟩
  · rw [h.frame]
    cases f <;> rfl
  · rw [h.fn, hfn]
    rfl
  · rw [h.pba i, hfn, hopens, hbit]
    by_cases hi : i = v
    · subst hi
      simp [hopen]
    · simp [hi]
  · rw [updFn_tx]
    exact List.mem_cons_of_mem _ hx
  · by_cases hwv : w = v
    · rw [hwv]
      exact h.tx htx
    · have hsent := h.sent w ((List.mem_cons.1 hw).resolve_left hwv)
      rw [hfn, hopens, hbit] at hsent
      exact hsent hwopen (by simp [hwpend, hwv])

theorem flushed_flushPba (f : Fn) (vs : List Nat) (s : State) : Flushed f vs s (flushPba f vs s) := by
  induction vs generalizing s with
  | nil => exact flushed_nil f s
  | cons v r ih =>
    rw [flushPba]
    split
    · next h =>
      rw [Bool.and_eq_true] at h
      exact (ih _).send h.1 h.2
    · next h => exact (ih s).skip (Bool.not_eq_true _ ▸ h)

theorem flushPba_closed {f : Fn} {s : State} (h : ∀ v, (s.fn f).open_ v = false) (vs : List Nat) : flushPba f vs s = s := by
  induction vs with
  | nil => rfl
  | cons v r ih => rw [flushPba, if_neg (by rw [h, Bool.and_false]; decide), ih]

-- the requests that waited for Bus Master Enable (R276)

/-- A request as it is sent. -/
def HeldTx.sent (f : Fn) (relaxed : Bool) : HeldTx → Tx
  | .write k addr bs => .write f k addr bs (relaxed && TxKind.isData k)
  | .read key addr len => .read f key addr len

/-- Requests were sent: the configuration state of the functions stands. -/
structure Handed (s t : State) : Prop where
  frame : t = { s with host := t.host, tx := t.tx }
  fn : ∀ f, t.fn f = s.fn f
  tx : s.tx ⊆ t.tx

theorem handed_trans {s t u : State} (h : Handed s t) (k : Handed t u) : Handed s u := by
  refine ⟨?_, fun f => (k.fn f).trans (h.fn f), List.Subset.trans h.tx k.tx⟩
  rw [k.frame, h.frame]

theorem handed_handOver (f : Fn) (w : HeldTx) (s : State) : Handed s (handOver f w s) := by
  cases w with
  | write k addr bs => exact ⟨rfl, fun g => by cases g <;> rfl, List.subset_cons_self _ _⟩
  | read key addr len => exact ⟨rfl, fun g => by cases g <;> rfl, List.subset_cons_self _ _⟩

theorem handOver_sends (f : Fn) (w : HeldTx) (s : State) : w.sent f (s.fn f).relaxed ∈ (handOver f w s).tx := by
  cases w <;> exact List.mem_cons_self ..

theorem handed_all (f : Fn) (l : List HeldTx) (s : State) : Handed s (l.foldl (fun t w => handOver f w t) s) ∧
    ∀ w, w ∈ l → w.sent f (s.fn f).relaxed ∈ (l.foldl (fun t w => handOver f w t) s).tx := by
  induction l generalizing s with
  | nil => exact ⟨⟨rfl, fun _ => rfl, List.Subset.refl _⟩, fun _ h => absurd h List.not_mem_nil⟩
  | cons w r ih =>
    obtain ⟨hrest, hsent⟩ := ih (handOver f w s)
    refine ⟨handed_trans (handed_handOver f w s) hrest, fun x hx => ?_⟩
    rcases List.mem_cons.1 hx with rfl | hin
    · exact hrest.tx (handOver_sends f x s)
    · rw [← (handed_handOver f w s).fn f]
      exact hsent x hin

/-- A function becomes a bus master, and its requests that waited leave. -/
def masterOn (f : Fn) (s : State) : State := flushHeld f (updFn f (fun x => { x with bme := true }) s)

theorem masterOn_says (f : Fn) (s : State) : masterOn f s = { s with host := (masterOn f s).host, tx := (masterOn f s).tx } ∧
    (masterOn f s).fn f = { s.fn f with bme := true, held := [] } ∧ s.tx ⊆ (masterOn f s).tx ∧
    ∀ w, w ∈ (s.fn f).held → w.sent f (s.fn f).relaxed ∈ (masterOn f s).tx := by
  have hon : (updFn f (fun x => { x with bme := true }) s).fn f = { s.fn f with bme := true } := updFn_fn f _ s
  have heq : masterOn f s = (s.fn f).held.foldl (fun t w => handOver f w t)
      (updFn f (fun x => { x with held := [] }) (updFn f (fun x => { x with bme := true }) s)) := by
    rw [masterOn, flushHeld, hon, if_pos rfl]
  obtain ⟨hall, hsent⟩ := handed_all f (s.fn f).held
    (updFn f (fun x => { x with held := [] }) (updFn f (fun x => { x with bme := true }) s))
  rw [updFn_fn, hon] at hsent
  rw [heq]
  refine ⟨?_, ?_, fun x hx => hall.tx ?_, hsent⟩
  · rw [hall.frame]
    cases f <;> rfl
  · rw [hall.fn, updFn_fn, hon]
  · rw [updFn_tx, updFn_tx]
    exact hx

-- the records that waited (R238, R251, R260): no function ceases to be a bus master

/-- What the part has sent stays sent, and every function is a bus master that was one. -/
structure StillMaster (s t : State) : Prop where
  tx : s.tx ⊆ t.tx
  bme : ∀ f, (t.fn f).bme = (s.fn f).bme

theorem stillMaster_refl (s : State) : StillMaster s s := ⟨List.Subset.refl _, fun _ => rfl⟩

theorem stillMaster_trans {s t u : State} (h : StillMaster s t) (k : StillMaster t u) : StillMaster s u :=
  ⟨List.Subset.trans h.tx k.tx, fun f => (k.bme f).trans (h.bme f)⟩

theorem stillMaster_ite {c : Prop} [Decidable c] {s t u : State} (h : StillMaster s t) (k : StillMaster s u) :
    StillMaster s (if c then t else u) := by
  split
  · exact h
  · exact k

/-- Where neither the host interface nor the record of what was sent moves. -/
theorem stillMaster_of_host {s t : State} (htx : t.tx = s.tx) (hhost : t.host = s.host) : StillMaster s t :=
  ⟨by rw [htx]; exact List.Subset.refl _, fun f => by rw [fn_congr hhost]⟩

theorem stillMaster_of_ports {s t : State} (h : OnlyPorts s t) (hmore : SendsMore s t) : StillMaster s t :=
  ⟨hmore.tx, fun f => by rw [fn_congr (s := s) (by rw [h])]⟩

theorem stillMaster_of_glass {s t : State} (h : OnlyGlass s t) (hmore : SendsMore s t) : StillMaster s t := by
  refine ⟨hmore.tx, fun f => ?_⟩
  rw [h]
  cases f <;> rfl

theorem stillMaster_handed {s t : State} (h : Handed s t) : StillMaster s t := ⟨h.tx, fun f => by rw [h.fn]⟩

theorem stillMaster_updFn {f : Fn} {k : FnSt → FnSt} (hk : ∀ x, (k x).bme = x.bme) (s : State) : StillMaster s (updFn f k s) := by
  refine ⟨(sendsMore_updFn f k s).tx, fun g => ?_⟩
  by_cases hg : g = f
  · rw [hg, updFn_fn, hk]
  · rw [updFn_fn_other k s hg]

theorem stillMaster_raise (f : Fn) (v : Nat) (s : State) : StillMaster s (raise f v s) :=
  stillMaster_ite (stillMaster_refl s) (stillMaster_ite
    (stillMaster_handed ⟨rfl, fun g => by cases g <;> rfl, List.subset_cons_self _ _⟩) (stillMaster_updFn (fun _ => by rfl) s))

theorem stillMaster_cellarTx (f : Fn) (w : HeldTx) (s : State) : StillMaster s (cellarTx f w s) :=
  stillMaster_ite (stillMaster_handed (handed_handOver f w s)) (stillMaster_updFn (fun _ => by rfl) s)

theorem stillMaster_glassJob (kind : Nat) (c : ColId) (tag : BitVec 16) (code : Nat) (tail : List Byte) (s : State) :
    StillMaster s (glassJob kind c tag code tail s) :=
  stillMaster_of_glass (onlyGlass_glassJob kind c tag code tail s) (sendsMore_glassJob kind c tag code tail s)

theorem stillMaster_swEvent (w : Word) (s : State) : StillMaster s (swEvent w s) :=
  stillMaster_trans (t := evSet .swarm (evGet s .swarm ||| w) s) (stillMaster_of_host (by rfl) (by rfl))
    (stillMaster_of_glass (postEvent_says .swarm w s).1
      (sendsMore_trans (sendsMore_ite (sendsMore_glassPut _ _) (sendsMore_refl _)) (sendsMore_raiseAll _ _)))

theorem stillMaster_dropJob (slot : Nat) (s : State) : StillMaster s (dropJob slot s) :=
  ⟨List.Subset.refl _, fun f => by cases f <;> rfl⟩

theorem stillMaster_moderate (c : ColId) (r : CplRec) (s : State) : StillMaster s (moderate c r s) :=
  stillMaster_ite (stillMaster_refl s) (stillMaster_ite
    (stillMaster_trans (stillMaster_of_host (by rfl) (by rfl)) (stillMaster_raise _ _ _)) (stillMaster_of_host (by rfl) (by rfl)))

/-- The registers and counters of a colony, and the glass record of its job. -/
theorem stillMaster_noted {c : ColId} (g : VfRegs → VfRegs) (n : Nat) (r : CplRec) (s : State) : StillMaster s
    (glassJob 5 c r.tag r.code.num (completeTail r)
      (if (r.code == .okDegraded) = true then cntCol c 9 1 (cntCol c n 1 (updVf c g s)) else cntCol c n 1 (updVf c g s))) :=
  stillMaster_trans (stillMaster_ite (stillMaster_of_host (by rfl) (by rfl)) (stillMaster_of_host (by rfl) (by rfl)))
    (stillMaster_glassJob _ _ _ _ _ _)

theorem stillMaster_writeRec (c : ColId) (r : CplRec) (s : State) : StillMaster s (writeRec c r s) :=
  stillMaster_trans (stillMaster_cellarTx _ _ s) (stillMaster_trans (stillMaster_noted _ 7 r _)
    (stillMaster_trans (stillMaster_dropJob _ _) (stillMaster_moderate _ _ _)))

theorem stillMaster_writeXpRec (c : ColId) (cpl : DWord) (r : CplRec) (s : State) : StillMaster s (writeXpRec c cpl r s) :=
  stillMaster_trans (stillMaster_cellarTx _ _ s) (stillMaster_trans (stillMaster_noted _ 8 r _)
    (stillMaster_trans (stillMaster_dropJob _ _) (stillMaster_raise _ _ _)))

theorem stillMaster_releaseXp (c : ColId) (s : State) : StillMaster s (releaseXp c s) := by
  unfold releaseXp
  split
  · exact stillMaster_refl s
  · exact stillMaster_trans (stillMaster_of_host (by rfl) (by rfl)) (stillMaster_writeXpRec _ _ _ _)

theorem stillMaster_releaseRecs (c : ColId) (l : List CplRec) (s : State) : StillMaster s (releaseRecs c l s) := by
  induction l generalizing s with
  | nil => exact stillMaster_of_host (by rfl) (by rfl)
  | cons r t ih =>
    exact stillMaster_ite (stillMaster_of_host (by rfl) (by rfl)) (stillMaster_trans (stillMaster_writeRec c r s) (ih _))

-- the end of a drain

theorem onlyPorts_sendMgmt (m : SwMsg) (l : List StnId) (s : State) : OnlyPorts s (sendMgmt m l s) := by
  induction l generalizing s with
  | nil => exact onlyPorts_refl s
  | cons a r ih => exact onlyPorts_trans (onlyPorts_sendMsg a s.stn 0 m s) (ih _)

theorem onlyPorts_sendMaps (m : SwarmMap) (l : List Nat) (s : State) : OnlyPorts s (sendMaps m l s) := by
  induction l generalizing s with
  | nil => exact onlyPorts_refl s
  | cons k r ih => exact onlyPorts_trans (onlyPorts_sendMgmt (.map m) _ s) (ih _)

theorem onlyPorts_sendWalk (p : PortId) (src : StnId) (m : SwMsg) (s : State) : OnlyPorts s (sendWalk p src m s) :=
  onlyPorts_trans (onlyPorts_trans (onlyPort_send p _ s).1 (onlyPort_updPort p _ _).1) (onlyPorts_pumpN p _ _)

theorem stillMaster_sendWalk (p : PortId) (src : StnId) (m : SwMsg) (s : State) : StillMaster s (sendWalk p src m s) :=
  stillMaster_of_ports (onlyPorts_sendWalk p src m s) (sendsMore_sendWalk p src m s)

theorem stillMaster_updSw (f : SwarmSt → SwarmSt) (s : State) : StillMaster s (updSw f s) := stillMaster_of_host (by rfl) (by rfl)

theorem stillMaster_walkFails (e : BitVec 4) (s : State) : StillMaster s (walkFails e s) :=
  stillMaster_trans (stillMaster_updSw _ s) (stillMaster_swEvent 2 _)

theorem stillMaster_mapInstall (m : SwarmMap) (s : State) : StillMaster s (mapInstall m s) := by
  unfold mapInstall
  refine stillMaster_trans ?_ (stillMaster_swEvent 1 _)
  exact stillMaster_of_host rfl rfl

theorem stillMaster_walkEnds (w : Walk) (s : State) : StillMaster s (walkEnds w s) :=
  stillMaster_ite (stillMaster_walkFails 3 s) (stillMaster_trans (stillMaster_trans (stillMaster_updSw _ s) (stillMaster_mapInstall _ _))
    (stillMaster_of_ports (onlyPorts_sendMaps _ _ _) (sendsMore_sendMaps _ _ _)))

theorem stillMaster_tokenHome (w : Walk) (s : State) : StillMaster s (tokenHome w s) :=
  stillMaster_ite (stillMaster_walkFails 1 s) (stillMaster_ite (stillMaster_walkFails 5 s) (stillMaster_ite (stillMaster_walkFails 2 s)
    (stillMaster_trans (stillMaster_updSw _ s) (stillMaster_ite (stillMaster_walkEnds _ _) (stillMaster_refl _)))))

theorem stillMaster_visitNext (s : State) : StillMaster s (visitNext s) := by
  unfold visitNext
  split
  · exact stillMaster_refl s
  · split
    · exact stillMaster_trans (stillMaster_updSw _ s) (stillMaster_sendWalk _ _ _ _)
    · exact stillMaster_ite (stillMaster_tokenHome _ s) (stillMaster_trans (stillMaster_updSw _ s)
        (stillMaster_trans (stillMaster_sendWalk _ _ _ _) (stillMaster_sendWalk _ _ _ _)))

theorem stillMaster_leaveNow (s : State) : StillMaster s (leaveNow s) :=
  stillMaster_trans (stillMaster_of_ports (onlyPorts_sendMgmt .leave s.peers s) (sendsMore_sendMgmt .leave s.peers s))
    (stillMaster_of_host (by rfl) (by rfl))

theorem stillMaster_drainStep (s : State) : StillMaster s (drainStep s) := by
  refine stillMaster_ite (stillMaster_refl s) (stillMaster_ite (stillMaster_leaveNow s) (stillMaster_ite
    (stillMaster_trans (stillMaster_updSw _ s) (stillMaster_of_ports (onlyPorts_sendMsg _ _ _ _ _) (sendsMore_sendMsg _ _ _ _ _))) ?_))
  split
  · exact stillMaster_ite (stillMaster_trans (stillMaster_updSw _ s) (stillMaster_visitNext _)) (stillMaster_refl s)
  · exact stillMaster_refl s

theorem drainStep_none {s : State} (h : s.noDrain) : drainStep s = s := by
  obtain ⟨hst, howed, hwalk⟩ := h
  unfold drainStep
  rw [beq_false_of_ne hst, howed, hwalk]
  exact ite_self _

theorem stillMaster_releaseWaiting (f : Fn) (s : State) : StillMaster s (releaseWaiting f s) := by
  cases f with
  | pf0 => exact stillMaster_refl s
  | vf c =>
    exact stillMaster_trans (stillMaster_releaseXp c s) (stillMaster_trans (stillMaster_releaseRecs c _ _) (stillMaster_drainStep _))

/-- With no record that waits, and no drain under way, nothing is released. -/
theorem releaseWaiting_none {f : Fn} {s : State} (hw : ∀ c, f = .vf c → (s.co c).r.waiting = [] ∧ (s.co c).r.xpHeld = none)
    (hd : s.noDrain) : releaseWaiting f s = s := by
  cases f with
  | pf0 => rfl
  | vf c =>
    obtain ⟨hwait, hheld⟩ := hw c rfl
    have hxp : releaseXp c s = s := by simp only [releaseXp, hheld]
    have hrecs : releaseRecs c [] s = s := updVf_eq_self (by rw [← hwait])
    simp only [releaseWaiting, hxp, hwait, hrecs, drainStep_none hd]

/-- The record that waits alone goes to its ring. -/
theorem releaseWaiting_record {c : ColId} {r : CplRec} {s : State} (hw : (s.co c).r.waiting = [r]) (hx : (s.co c).r.xpHeld = none)
    (hf : (s.co c).r.cqFull = false) :
    releaseWaiting (.vf c) s = drainStep (updVf c (fun x => { x with waiting := [] }) (writeRec c r s)) := by
  have hxp : releaseXp c s = s := by simp only [releaseXp, hx]
  simp only [releaseWaiting, hxp, hw, releaseRecs, hf, Bool.false_eq_true, if_false]

-- BUS_MASTER_ENABLE

theorem exec_busMasterEnable (f : Fn) (s : State) :
    exec (.busMasterEnable f) s = .next (flushPba f (vecsOf f) (releaseWaiting f (masterOn f s))) := rfl

theorem busMasterEnable_sends (f : Fn) (s : State) : ∃ t, exec (.busMasterEnable f) s = .next t ∧ (t.fn f).bme = true ∧
    s.tx ⊆ t.tx ∧ ∀ w, w ∈ (s.fn f).held → w.sent f (s.fn f).relaxed ∈ t.tx := by
  obtain ⟨-, hfn, htx, hsent⟩ := masterOn_says f s
  have hrel := stillMaster_releaseWaiting f (masterOn f s)
  have hflush := flushed_flushPba f (vecsOf f) (releaseWaiting f (masterOn f s))
  refine ⟨_, exec_busMasterEnable f s, ?_, fun x hx => hflush.tx (hrel.tx (htx hx)), fun w hw => hflush.tx (hrel.tx (hsent w hw))⟩
  rw [hflush.fn]
  exact (hrel.bme f).trans (congrArg FnSt.bme hfn)

/-- Without a record that waits, the requests that waited and the messages of open vectors leave. -/
theorem busMasterEnable_flushes {f : Fn} {s : State} (hw : ∀ c, f = .vf c → (s.co c).r.waiting = [] ∧ (s.co c).r.xpHeld = none)
    (hd : s.noDrain) :
    exec (.busMasterEnable f) s = .next (flushPba f (vecsOf f) (masterOn f s)) := by
  obtain ⟨hframe, -⟩ := masterOn_says f s
  have hnone : releaseWaiting f (masterOn f s) = masterOn f s := by
    refine releaseWaiting_none (fun c hc => ?_) ?_
    · rw [co_congr (s := s) (by rw [hframe])]
      exact hw c hc
    · rw [hframe]
      exact hd
  rw [exec_busMasterEnable, hnone]

/-- The record that waited for Bus Master Enable goes to its ring, and its job leaves the job table. -/
theorem busMasterEnable_record {c : ColId} {r : CplRec} {s : State} (hw : (s.co c).r.waiting = [r]) (hx : (s.co c).r.xpHeld = none)
    (hf : (s.co c).r.cqFull = false) : ∃ t, exec (.busMasterEnable (.vf c)) s = .next t ∧ t.job? r.slot = none ∧
    (t.co c).r.waiting = [] ∧ recordTx c r (s.co c).r ∈ t.tx := by
  obtain ⟨hframe, hfn, -⟩ := masterOn_says (.vf c) s
  have hco : (masterOn (.vf c) s).co c = s.co c := co_congr (by rw [hframe]) c
  obtain ⟨hwritten, -⟩ := writeRec_says r (s := masterOn (.vf c) s) (c := c) (congrArg FnSt.bme hfn)
  have hmore := sendsMore_drainStep (updVf c (fun x => { x with waiting := [] }) (writeRec c r (masterOn (.vf c) s)))
  have hflush := flushed_flushPba (.vf c) (vecsOf (.vf c))
    (drainStep (updVf c (fun x => { x with waiting := [] }) (writeRec c r (masterOn (.vf c) s))))
  have hexec := exec_busMasterEnable (.vf c) s
  rw [releaseWaiting_record (by rw [hco]; exact hw) (by rw [hco]; exact hx) (by rw [hco]; exact hf)] at hexec
  refine ⟨_, hexec, ?_, ?_, hflush.tx (hmore.tx ?_)⟩
  · rw [job?_congr (s := writeRec c r (masterOn (.vf c) s)) ?_]
    · exact hwritten.job?_none
    · rw [hflush.frame]
      exact hmore.jobs
  · rw [co_congr (s := updVf c (fun x => { x with waiting := [] }) (writeRec c r (masterOn (.vf c) s))) ?_, updVf_r]
    rw [hflush.frame]
    exact hmore.cols
  · rw [← hco]
    exact hwritten.tx

-- MSIX_UNMASK

/-- An entry of the table is unmasked. -/
def FnSt.unmask (v : Nat) (x : FnSt) : FnSt :=
  if v < x.msix.length then { x with msix := x.msix.set v { x.ent v with masked := false } } else x

theorem exec_msixUnmask (f : Fn) (v : Nat) (s : State) :
    exec (.msixUnmask f v) s = .next (flushPba f (vecsOf f) (updFn f (FnSt.unmask v) s)) := rfl

theorem unmask_ent {v : Nat} {x : FnSt} (hv : v < x.msix.length) (k : Nat) :
    (x.unmask v).ent k = if k = v then { x.ent v with masked := false } else x.ent k := by
  rw [FnSt.unmask, if_pos hv, FnSt.ent, List.getD_eq_getElem?_getD, List.getElem?_set]
  by_cases hk : k = v
  · rw [if_pos hk.symm, if_pos hv, if_pos hk]
    rfl
  · rw [if_neg (Ne.symm hk), if_neg hk, ← List.getD_eq_getElem?_getD]
    rfl

/-- An unmask leaves everything but the table. -/
theorem unmask_frame (v : Nat) (x : FnSt) : x.unmask v = { x with msix := (x.unmask v).msix } := by
  unfold FnSt.unmask
  split <;> rfl

theorem msixUnmask_says (f : Fn) (v : Nat) (s : State) : ∃ t, exec (.msixUnmask f v) s = .next t ∧
    t = { s with host := t.host, tx := t.tx } ∧ (∀ k, (t.fn f).ent k = ((s.fn f).unmask v).ent k) ∧ s.tx ⊆ t.tx ∧
    (∀ i, (t.fn f).pba.getLsbD i = ((s.fn f).pba.getLsbD i && !(decide (i ∈ vecsOf f) && ((s.fn f).unmask v).open_ i))) ∧
    ∀ k, k ∈ vecsOf f → ((s.fn f).unmask v).open_ k = true → (s.fn f).pba.getLsbD k = true →
      ((s.fn f).unmask v).message f k ∈ t.tx := by
  obtain ⟨hframe, hfn, hpba, htx, hsent⟩ := flushed_flushPba f (vecsOf f) (updFn f (FnSt.unmask v) s)
  have hpend : ((s.fn f).unmask v).pba = (s.fn f).pba := by rw [unmask_frame]
  rw [updFn_fn, hpend] at hpba
  rw [updFn_fn, hpend] at hsent
  rw [updFn_fn] at hfn
  rw [updFn_tx] at htx
  refine ⟨_, exec_msixUnmask f v s, ?_, fun k => ?_, htx, hpba, hsent⟩
  · rw [hframe]
    cases f <;> rfl
  · rw [hfn]
    rfl

end Sys2Proof.Machine

section

open Sys2Proof Sys2Proof.Machine

/-- Settles O37: `Flushed` says which pending messages leave, `masterOn` which requests do, and no record that leaves takes Bus Master
Enable away (`StillMaster`). -/
theorem vectorsSendOrPend : Obligations.VectorsSendOrPend := by
  refine ⟨fun f v s => ⟨raise_disabled, fun hen hmask hent hbme => raise_sends (open_iff_unheld.2 ⟨hen, hmask, hent, hbme⟩),
      fun hen hv hheld => ?pends⟩,
    fun f s => ⟨?master, fun v => ?unmask, ?record, fun hw hd => ?flush, fun v hv hin => ?unmaskOne⟩⟩
  case pends =>
    rw [raise_pends hen (closed_of_held hheld), updFn_fn, updFn_tx]
    refine ⟨?_, rfl, fun i hi => ?_⟩
    · rw [getLsbD_or_vector _ hv, decide_eq_true rfl, Bool.or_true]
    · rw [getLsbD_or_vector _ hv, decide_eq_false hi, Bool.or_false]
  case master =>
    obtain ⟨t, hexec, hbme, htx, hsent⟩ := busMasterEnable_sends f s
    exact ⟨t, hexec, hbme, fun x hx => htx hx, fun k a bs hw => hsent (.write k a bs) hw, fun key a n hw => hsent (.read key a n) hw⟩
  case unmask =>
    obtain ⟨t, hexec, hframe, hent, htx, -⟩ := msixUnmask_says f v s
    exact ⟨t, hexec, hframe, fun hv => by rw [hent, unmask_ent hv, if_pos rfl], fun x hx => htx hx⟩
  case record =>
    rintro c r rfl hw hx hf
    exact busMasterEnable_record hw hx hf
  case flush =>
    obtain ⟨hframe, hfn, -⟩ := masterOn_says f s
    have hflush := flushed_flushPba f (vecsOf f) (masterOn f s)
    have hent : ∀ v, ((masterOn f s).fn f).ent v = (s.fn f).ent v := fun v => by rw [hfn]; rfl
    have hpend : ((masterOn f s).fn f).pba = (s.fn f).pba := by rw [hfn]
    refine ⟨_, busMasterEnable_flushes hw hd, ?_, ?_, ?_, fun v hv hen hmask hunmasked => ?_, fun v hmasked => ?_⟩
    · rw [hflush.frame, hframe]
    · rw [hflush.fn, hfn]
    · rw [hflush.fn, hfn]
    · have hopen : ((masterOn f s).fn f).open_ v = true := by
        rw [open_iff_unheld, hent, hfn]
        exact ⟨hen, hmask, hunmasked, rfl⟩
      refine ⟨by rw [hflush.pba, hopen, decide_eq_true hv]; exact Bool.and_false _, fun hbit => ?_⟩
      rw [← hent]
      exact hflush.sent v hv hopen (by rw [hpend]; exact hbit)
    · have hclosed : ((masterOn f s).fn f).open_ v = false := closed_of_held (Or.inr (Or.inl (by rw [hent]; exact hmasked)))
      rw [hflush.pba, hclosed, hpend, Bool.and_false, Bool.not_false, Bool.and_true]
  case unmaskOne =>
    obtain ⟨t, hexec, hframe, hent, -, hpba, hsent⟩ := msixUnmask_says f v s
    have hself : ((s.fn f).unmask v).ent v = { (s.fn f).ent v with masked := false } := by rw [unmask_ent hv, if_pos rfl]
    refine ⟨t, hexec, hframe, (hent v).trans hself, fun k hk => by rw [hent, unmask_ent hv, if_neg hk],
      fun hen hmask hbme => ?_, fun hbme => ?_⟩
    · have hopen : ((s.fn f).unmask v).open_ v = true := by
        rw [open_iff_unheld, hself, unmask_frame]
        exact ⟨hen, hmask, rfl, hbme⟩
      refine ⟨by rw [hpba, hopen, decide_eq_true hin]; exact Bool.and_false _, fun hbit => ?_⟩
      have hmessage := hsent v hin hopen hbit
      rw [FnSt.message, hself] at hmessage
      exact hmessage
    · have hclosed : ∀ k, ((updFn f (FnSt.unmask v) s).fn f).open_ k = false := fun k =>
        closed_of_held (Or.inr (Or.inr (by rw [updFn_fn, unmask_frame]; exact hbme)))
      have hsame : t = updFn f (FnSt.unmask v) s := by
        rw [exec_msixUnmask, flushPba_closed hclosed] at hexec
        exact (Host.Outcome.next.inj hexec).symm
      rw [hsame, updFn_tx, updFn_fn, unmask_frame]
      exact ⟨rfl, rfl⟩

end

end

section
/-! A forager descriptor that starts (R282, R283): the read of the descriptor has ended, so it has left the transmitter (R289). -/

namespace Sys2Proof.Machine

/-- A part in READY, a bus master, whose forager 0 runs and has one descriptor at FOR_HEAD. -/
def foragingPart : State := {
  boot := { stage := 6 }
  host := { pf0 := { FnSt.pf0Reset with bme := true }
            forager := (Vector.replicate 16 ({} : ForSt)).set 0 { en := true, st := .run, tail := 1 } } }

/-- A descriptor of 4 bytes from address 0 of the cellar to the first byte of the supers above the system region (Table 12.3). -/
def fourBytesIn : List Byte :=
  [0, 0, 0, 0, 4, 0, 0, 0] ++ List.replicate 8 0 ++ [0, 0, 0, 4, 0, 0, 0, 0] ++ List.replicate 8 0

theorem foragingPart_ready : foragingPart.forTakes 0 = true ∧ fourBytesIn.length = 32 ∧ forFail fourBytesIn = none ∧
    foragingPart.forSealed (parseFor fourBytesIn) = false := by
  decide +kernel

/-- The read of the descriptor is the part's first TLP; it has been transmitted when the descriptor is there. -/
theorem foragingPart_starts : ∃ t, exec (.foragerDescriptor 0 fourBytesIn) foragingPart = .next t ∧ t.wired = [0] :=
  ⟨stateOf (execForagerDescriptor 0 fourBytesIn foragingPart) foragingPart, rfl, by decide +kernel⟩

end Sys2Proof.Machine

section

open Sys2Proof Sys2Proof.Machine

/-- Refutes O38: its clause on a descriptor that starts has only the host interface and the record of what was handed over move, while
the read of the descriptor also enters the record of what has been transmitted. -/
theorem not_foragerChannels : ¬ Obligations.ForagerChannels := by
  rintro ⟨-, h⟩
  obtain ⟨-, hstarts, -⟩ := h 0 foragingPart rfl
  obtain ⟨htakes, hlen, hgood, hopen⟩ := foragingPart_ready
  obtain ⟨t, hexec, hframe, -⟩ := hstarts _ htakes hlen hgood hopen
  obtain ⟨u, hu, hwired⟩ := foragingPart_starts
  obtain rfl : u = t := Host.Outcome.next.inj (hu.symm.trans hexec)
  have hstands : u.wired = [] := congrArg State.wired hframe
  exact absurd (hwired.symm.trans hstands) (by decide)

end

end

section
/-! Errors of the link in AER (R291, Table 12.5), and the reads of the part that fail (R292, R293). -/

namespace Sys2Proof.Machine

-- the errors that a function logs

@[simp] theorem updFn_forager (f : Fn) (k : FnSt → FnSt) (s : State) : (updFn f k s).host.forager = s.host.forager := by
  cases f <;> rfl

/-- An uncorrectable error sets its status bit in its function, and leaves the correctable ones. -/
theorem aerUnc_says (f : Fn) (b : Nat) (s : State) : ∃ n k, aerUnc f b s = updFn f k { s with freeCtr := n } ∧
    ∀ x, (k x).aerUnc = setBit x.aerUnc b ∧ (k x).aerCor = x.aerCor := by
  unfold aerUnc
  dsimp only
  generalize (!s.host.pf0.aerUncMask.getLsbD b && ((s.fn f).aerUnc &&& ~~~s.host.pf0.aerUncMask) == 0) = first
  cases first && aerHasHdr b
  · exact ⟨s.freeCtr, _, rfl, fun _ => ⟨rfl, rfl⟩⟩
  · exact ⟨s.freeCtr + 1 + 1, _, rfl, fun _ => ⟨rfl, rfl⟩⟩

theorem aerUnc_aerUnc (f : Fn) (b : Nat) (s : State) : ((aerUnc f b s).fn f).aerUnc = setBit (s.fn f).aerUnc b := by
  obtain ⟨n, k, heq, hk⟩ := aerUnc_says f b s
  rw [heq, updFn_fn]
  exact (hk _).1

theorem aerCor_fn (f : Fn) (b : Nat) (s : State) :
    (aerCor f b s).fn f = { s.fn f with aerCor := setBit (s.fn f).aerCor b, devSta := (s.fn f).devSta ||| 1 } :=
  updFn_fn f _ s

/-- Beside what PF0 and one more function log, only the completion, the link and the free values moved. -/
structure OnlyErrors (f : Fn) (s t : State) : Prop where
  frame : t = { s with host := t.host, resp := t.resp, freeCtr := t.freeCtr }
  forager : t.host.forager = s.host.forager
  other : ∀ g, g ≠ .pf0 → g ≠ f → t.fn g = s.fn g

theorem onlyErrors_aerUnc {f g : Fn} (hg : g = .pf0 ∨ g = f) (b : Nat) (s : State) : OnlyErrors f s (aerUnc g b s) := by
  obtain ⟨n, k, heq, -⟩ := aerUnc_says g b s
  rw [heq]
  refine ⟨by cases g <;> rfl, updFn_forager g k _, fun d hpf0 hf => updFn_fn_other k _ ?_⟩
  rcases hg with rfl | rfl
  · exact hpf0
  · exact hf

theorem onlyErrors_aerCor (f : Fn) (b : Nat) (s : State) : OnlyErrors f s (aerCor .pf0 b s) :=
  ⟨rfl, rfl, fun _ hpf0 _ => updFn_fn_other _ s hpf0⟩

theorem OnlyErrors.cpl {f : Fn} {s t : State} (h : OnlyErrors f s t) (c : Cpl) : OnlyErrors f s (t.cpl c) := by
  refine ⟨?_, h.forager, h.other⟩
  rw [h.frame]
  rfl

theorem OnlyErrors.link {f : Fn} {s t : State} (h : OnlyErrors f s t) (l : LinkSt) :
    OnlyErrors f s { t with host := { t.host with link := l } } := by
  refine ⟨?_, h.forager, h.other⟩
  rw [h.frame]

theorem onlyErrors_refused {f : Fn} {c : Cpl} (hc : c = .ca ∨ c = .ur) (posted : Bool) (s : State) :
    OnlyErrors f s (if posted then refusePosted f c s else refuseReq f c s) := by
  rcases hc with rfl | rfl <;> cases posted
  · exact (onlyErrors_aerUnc (Or.inr rfl) 15 s).cpl .ca
  · exact onlyErrors_aerUnc (Or.inr rfl) 15 s
  · exact (onlyErrors_aerUnc (Or.inr rfl) 20 s).cpl .ur
  · exact onlyErrors_aerUnc (Or.inr rfl) 20 s

/-- The state after an error of the link. -/
def tlpNext (e : TlpErr) (r : TlpReq) (s : State) : State := stateOf (execTlpError e r s) s

theorem exec_tlpError (e : TlpErr) (r : TlpReq) (s : State) : exec (.tlpError e r) s = .next (tlpNext e r s) := rfl

theorem onlyErrors_tlpNext (e : TlpErr) (r : TlpReq) (s : State) : OnlyErrors (r.fn.getD .pf0) s (tlpNext e r s) := by
  cases e with
  | malformed | ecrc | receiverOverflow | flowControl | dlProtocol => exact onlyErrors_aerUnc (Or.inl rfl) _ s
  | poisoned | unexpectedCpl => exact onlyErrors_aerUnc (Or.inr rfl) _ s
  | completerAbort => exact onlyErrors_refused (Or.inl rfl) r.posted s
  | unsupported => exact onlyErrors_refused (Or.inr rfl) r.posted s
  | surpriseDown => exact (onlyErrors_aerUnc (Or.inl rfl) 5 s).link _
  | receiverError | badTlp | badDllp | replayTimeout | replayRollover => exact onlyErrors_aerCor _ _ s

/-- A request refused with a Completer Abort, or as unsupported, logs its bit; a non-posted one gets its completion. -/
theorem refused_says (f : Fn) (posted : Bool) (s : State) {c : Cpl} {b : Nat} (hcb : (c, b) = (.ca, 15) ∨ (c, b) = (.ur, 20)) :
    let t := if posted then refusePosted f c s else refuseReq f c s
    (t.fn f).aerUnc = setBit (s.fn f).aerUnc b ∧ (posted = false → t.resp.status = c) ∧ (posted = true → t.resp = s.resp) := by
  have hresp : ∀ n, (aerUnc f n s).resp = s.resp := fun n => by
    obtain ⟨m, k, heq, -⟩ := aerUnc_says f n s
    rw [heq, updFn_resp]
  rcases hcb with h | h <;> cases h <;> cases posted
  · exact ⟨aerUnc_aerUnc f 15 s, fun _ => rfl, nofun⟩
  · exact ⟨aerUnc_aerUnc f 15 s, nofun, fun _ => hresp 15⟩
  · exact ⟨aerUnc_aerUnc f 20 s, fun _ => rfl, nofun⟩
  · exact ⟨aerUnc_aerUnc f 20 s, nofun, fun _ => hresp 20⟩

-- a read that fails (R292, R293)

theorem exec_cellarReadFail {p : RdPurpose} {why : RdRes} {s : State} (hok : why ≠ .ok) (hto : why ≠ .timeout) :
    exec (.cellarReadFail p why) s = .next (readFails p why s) :=
  congrArg Host.Outcome.next (if_neg (by rw [beq_false_of_ne hok, beq_false_of_ne hto]; exact Bool.false_ne_true))

theorem exec_completionTimeout {p : RdPurpose} {s : State} (h : (s.fn (rdFn s p)).ctoDis = false) :
    exec (.completionTimeout p) s = .next (readFails p .timeout s) :=
  congrArg Host.Outcome.next (if_pos (by rw [State.timesOut, h]; rfl))

theorem exec_completionTimeout_disabled {p : RdPurpose} {s : State} (h : (s.fn (rdFn s p)).ctoDis = true) :
    exec (.completionTimeout p) s = .next s ∧ exec (.cellarReadFail p .timeout) s = .next s := by
  have hwaits : s.timesOut p = false := by rw [State.timesOut, h]; rfl
  exact ⟨congrArg Host.Outcome.next (if_neg (by rw [hwaits]; decide)), congrArg Host.Outcome.next (if_pos (by rw [hwaits]; rfl))⟩

theorem onlySent_aerRead (f : Fn) (why : RdRes) (s : State) : OnlySent s (aerRead f why s) := by
  cases why with
  | ok | ur | ca => exact onlySent_refl s
  | poisoned | timeout => exact onlySent_aerUnc f _ s

-- the read of an entry of a submission queue

theorem raise_aerUnc (f g : Fn) (v : Nat) (s : State) : ((raise f v s).fn g).aerUnc = (s.fn g).aerUnc := by
  unfold raise
  split
  · rfl
  · split
    · cases g <;> rfl
    · by_cases hg : g = f
      · subst hg
        rw [updFn_fn]
      · rw [updFn_fn_other _ s hg]

theorem badDesc_aerUnc (c : ColId) (q : Fin 4) (code : Byte) (s : State) (f : Fn) :
    ((badDesc c q code s).fn f).aerUnc = (s.fn f).aerUnc := by
  rw [badDesc_eq, colErr, raise_aerUnc]
  cases f <;> rfl

section
variable {c : ColId} {q : Fin 4} {s : State} (hn : s.nextFetch = some (c, q))
include hn

theorem readFails_descriptor (why : RdRes) :
    readFails (.descriptor c q) why s = badDesc c q 5 (aerRead (.vf c) why (readEntry c q s)) :=
  if_pos (by rw [hn]; exact beq_self_eq_true _)

/-- The entry whose read fails is no job: it is passed and recorded with check code 5. -/
theorem readFails_descriptor_says (why : RdRes) : (readFails (.descriptor c q) why s).jobs = s.jobs ∧
    ((readFails (.descriptor c q) why s).sq c q).head = ((s.sq c q).head + 1) % 2 ^ (s.sq c q).log2.toNat ∧
    ((readFails (.descriptor c q) why s).co c).r.err = setBit (s.co c).r.err 0 ∧
    ((s.co c).r.errCode = 0 → ((readFails (.descriptor c q) why s).co c).r.errCode = 5) := by
  have htraffic := onlyTraffic_trans (onlyTraffic_readEntry c q s) (onlyTraffic_of_onlySent (onlySent_aerRead (.vf c) why _))
  obtain ⟨hcols, hjobs, -⟩ := onlyTraffic_keeps htraffic
  obtain ⟨hsq, -, hfirst, -⟩ := noteBad_says q 5 (s.co c).r
  have hr := badDesc_r c q 5 (aerRead (.vf c) why (readEntry c q s))
  rw [co_congr hcols c] at hr
  rw [readFails_descriptor hn, hr]
  refine ⟨(badDesc_keeps c q 5 _).1.trans hjobs, ?_, rfl, fun h0 => (hfirst h0).1⟩
  rw [State.sq, hr]
  simp only [VfRegs.passed, hsq, updAt_same]
  rfl

theorem readFails_descriptor_timeout : ((readFails (.descriptor c q) .timeout s).fn (.vf c)).aerUnc.getLsbD 14 = true := by
  rw [readFails_descriptor hn, badDesc_aerUnc, aerRead, aerUnc_aerUnc, setBit, BitVec.getLsbD_or]
  exact Bool.or_true _

end

-- the read of a job's input

/-- How a job ends whose input cannot be read: INTERNAL, source 3 (Table 11.4). -/
def inputEnding (why : RdRes) : Ending := { code := .internal, detail := BitVec.ofNat 64 (3 + 256 * rdReason why) }

/-- A job that waits for no input. -/
def Job.noInput (j : Job) : Job := { j with inputPend := false }

/-- The failed read of a job's input is logged, and the job waits for it no more. -/
def inputFailed (slot : Nat) (j : Job) (why : RdRes) (s : State) : State :=
  updJob slot Job.noInput (aerRead (.vf j.col) why (readsEnd (.input j.slot j.gen) s))

theorem inputFailed_says {slot : Nat} {j : Job} {s : State} (hj : s.job? slot = some j) (why : RdRes) :
    (inputFailed slot j why s).job? slot = some j.noInput ∧ (inputFailed slot j why s).hives = s.hives ∧
    (inputFailed slot j why s).swarm = s.swarm := by
  have hsent := onlySent_aerRead (.vf j.col) why (readsEnd (.input j.slot j.gen) s)
  obtain ⟨-, hjobs, hhives, -, -, -, -, hswarm, -⟩ := onlySent_keeps hsent
  refine ⟨?_, hhives, hswarm⟩
  rw [inputFailed, job?_updJob slot (f := Job.noInput) fun _ => rfl, job?_congr hjobs]
  exact congrArg (Option.map Job.noInput) hj

theorem readFails_input {n : SlotId} {s : State} {j : Job} (hj : s.job? n.val = some j) (hp : j.inputPend = true)
    (hst : j.st = .running) (why : RdRes) :
    readFails (.input n) why s = endJob n.val (inputEnding why) (.cancel 0) (inputFailed n.val j why s) := by
  simp only [readFails, hj, hp, hst, beq_self_eq_true, Bool.and_self, if_true]
  rfl

/-- The job whose input cannot be read ends, and waits for it no more. -/
theorem readFails_input_says {n : SlotId} {s : State} {j : Job} (hj : s.job? n.val = some j) (hp : j.inputPend = true)
    (hst : j.st = .running) (hend : j.ending = none) (ho : s.others j = []) (hr : s.jobRuns n.val = true) (why : RdRes) :
    ((readFails (.input n) why s).job? n.val).bind (·.ending) = some (inputEnding why) ∧
    ((readFails (.input n) why s).job? n.val).map (·.inputPend) = some false := by
  obtain ⟨hjob, hhives, hswarm⟩ := inputFailed_says hj why
  have hruns : (inputFailed n.val j why s).jobRuns n.val = true := by
    rw [← hr]
    exact jobRuns_congr (fun k => by rw [hv_congr hhives k]) n.val
  have halone : (inputFailed n.val j why s).others j.noInput = [] := (others_congr hswarm _).trans ho
  obtain ⟨hdone, -⟩ := endJob_alone hjob (running_ne_ended hst) hruns halone (inputEnding why) (.cancel 0)
  rw [readFails_input hj hp hst, hdone]
  exact ⟨endWith_first (j := j.noInput) hend, by simp only [Job.endWith, show j.noInput.ending = none from hend]; rfl⟩

-- the read of a forager's data

theorem forg_congr {s t : State} (h : t.host.forager = s.host.forager) (k : ChanId) : t.forg k = s.forg k := by
  simp only [State.forg, h]

theorem updFor_forg (k : ChanId) (f : ForSt → ForSt) (s : State) : (updFor k f s).forg k = f (s.forg k) := updAt_same _ _ _

theorem updFor_forg_other {k c : ChanId} (f : ForSt → ForSt) (s : State) (hc : c ≠ k) : (updFor k f s).forg c = s.forg c :=
  updAt_other _ _ _ _ hc

theorem onlyGlass_forager {s t : State} (h : OnlyGlass s t) : t.host.forager = s.host.forager := by
  rw [h]

theorem onlySent_forager {s t : State} (h : OnlySent s t) : t.host.forager = s.host.forager := by
  rw [h]

theorem postEvent_forager (e : EvSrc) (w : Word) (s : State) : (postEvent e w s).host.forager = s.host.forager := by
  rw [onlyGlass_forager (postEvent_says e w s).1]
  cases e <;> rfl

theorem supWriteOut_forager (a : Nat) (bs : List Byte) (s : State) : (supWriteOut a bs s).host.forager = s.host.forager := by
  have hrun : (putRun a bs s).host.forager = s.host.forager := by
    unfold putRun
    split
    · rw [supPutIf_eq]
    · rfl
  have hsys : (putRunSys a bs s).host.forager = s.host.forager := by
    unfold putRunSys
    split
    · exact (postEvent_forager .sup 2 _).trans hrun
    · exact hrun
  rw [supWriteOut_eq]
  split
  · exact (postEvent_forager .wax 256 _).trans hsys
  · exact hsys

/-- What the read of an argument block moves: the Guard, and what its uncorrectable words note. -/
theorem keyRead_says (s : State) : ∃ g ws, keyRead s = noteUe ws { s with guard := g } := by
  unfold keyRead
  dsimp only
  split
  · exact ⟨s.guard, [], rfl⟩
  · exact ⟨_, _, rfl⟩

theorem keyRead_forager (s : State) : (keyRead s).host.forager = s.host.forager := by
  obtain ⟨g, ws, heq⟩ := keyRead_says s
  obtain ⟨sup, honly, -⟩ := noteUe_says ws { s with guard := g }
  rw [heq, onlyGlass_forager honly]

/-- The channel of the Guard's command. -/
def State.cmdChan (s : State) : ChanId := ⟨s.guard.ch.toNat, s.guard.ch.isLt⟩

theorem claimChannel_eq (s : State) : claimChannel s = if s.guard.busy && (s.forg s.cmdChan).cur.isNone then
    keyRead (updFor s.cmdChan (fun f => { f with claimed := true }) s) else s := rfl

/-- A claim of the Guard marks its channel, and leaves the rest of every channel. -/
theorem claimChannel_forg (s : State) (k : ChanId) :
    (claimChannel s).forg k = { s.forg k with claimed := ((claimChannel s).forg k).claimed } := by
  rw [claimChannel_eq]
  split
  · rw [forg_congr (keyRead_forager _)]
    by_cases hk : k = s.cmdChan
    · rw [hk, updFor_forg]
    · rw [updFor_forg_other _ s hk]
  · rfl

/-- A descriptor without WB that fails ends in ERROR with its code. -/
theorem forEnd_fails {k : ChanId} {d : ForDesc} {code : Byte} (moved : Nat) (s : State) (hwb : d.wb = false) (hcode : code ≠ 0) :
    ((forEnd k d code moved s).forg k).code = code ∧ ((forEnd k d code moved s).forg k).st = .error ∧
    ((forEnd k d code moved s).forg k).err = true ∧ ((forEnd k d code moved s).forg k).cur = none := by
  have hne : (code != 0) = true := bne_iff_ne.2 hcode
  unfold forEnd
  dsimp only
  rw [claimChannel_forg, updFor_forg]
  simp only [hwb, hne, Bool.or_true, if_true, and_self]

theorem readFails_forData {k : ChanId} {d : ForDesc} {s : State} (hc : (s.forg k).cur = some d) (hd : d.dir = 0) (hl : 0 < d.len)
    (why : RdRes) : ∃ n t, readFails (.forData k []) why s = forEnd k d 5 n t := by
  have hguard : (decide (d.dir = 0) && decide (([] : List Byte).length < d.len)) = true := by simp [hd, hl]
  refine ⟨(forWrite d.dst [] (aerRead .pf0 why s)).1, (forWrite d.dst [] (aerRead .pf0 why s)).2, ?_⟩
  simp only [readFails, hc, hguard, if_true]

end Sys2Proof.Machine

section

open Sys2Proof Sys2Proof.Machine

/-- Settles O39: an error of the link is `OnlyErrors` and its own status bit; a failed read is `readFails` on what it was for. -/
theorem linkErrorsAndFailedReads : Obligations.LinkErrorsAndFailedReads := by
  refine ⟨fun e fn posted s => ?errors, fun s why hok hto => ⟨fun c q hn => ?entry, fun n j hj hp hst hend _ ho hr => ?input,
    fun k d hc hd hl hwb => ?data, fun p => exec_completionTimeout_disabled, fun c q hn hcto => ?timeout⟩⟩
  case errors =>
    obtain ⟨hframe, hforager, hother⟩ := onlyErrors_tlpNext e { fn := fn, posted := posted } s
    refine ⟨_, exec_tlpError e _ s, hframe, hforager, ?_, ?_, ?_, ?_, ?_, ?_, ?_, hother⟩ <;> rintro rfl
    · exact aerUnc_aerUnc .pf0 18 s
    · exact aerUnc_aerUnc (fn.getD .pf0) 12 s
    · exact aerUnc_aerUnc (fn.getD .pf0) 16 s
    · exact refused_says (fn.getD .pf0) posted s (Or.inl rfl)
    · exact refused_says (fn.getD .pf0) posted s (Or.inr rfl)
    · exact ⟨aerUnc_aerUnc .pf0 5 s, rfl⟩
    · exact ⟨rfl, rfl⟩
  case entry => exact ⟨_, exec_cellarReadFail hok hto, readFails_descriptor_says hn why⟩
  case input => exact ⟨_, exec_cellarReadFail hok hto, readFails_input_says hj hp hst hend ho hr why⟩
  case data =>
    obtain ⟨n, t, heq⟩ := readFails_forData hc hd hl why
    exact ⟨_, (exec_cellarReadFail hok hto).trans (congrArg _ heq), forEnd_fails n t hwb (by decide)⟩
  case timeout =>
    obtain ⟨hjobs, -, herr, -⟩ := readFails_descriptor_says hn .timeout
    exact ⟨_, exec_completionTimeout hcto, hjobs, herr, readFails_descriptor_timeout hn⟩

end

end

section
/-! A home job of a swarm that the last ACCEPT starts (R333) while a program of its slot is left on the model's hive (R238, R253): the
one that was left goes first. -/

namespace Sys2Proof.Machine

/-- `leftoverJob`, dispatched to stations 0 and 1, whose ACCEPT is awaited. -/
def awaitingJob : Job := { leftoverJob with st := .running, span := 3 }

/-- Station 0 of a swarm of two, home of the job. -/
def awaitingPart : State := { leftoverPart awaitingJob 13 with swarm := { addr := some 0, st := .member, members := 3 } }

/-- The header of station 1's ACCEPT. -/
def lastAccept : MsgHdr := { port := 0, src := 1, home := 0, tag := awaitingJob.tag }

theorem awaitingPart_ready : let s := awaitingPart
    s.homeJob lastAccept = some awaitingJob ∧ s.job? 0 = some awaitingJob ∧ s.others awaitingJob = [1] ∧
    s.model? 0 = some (leftoverModel 0 13) := by
  decide +kernel

theorem awaitingPart_starts : ∃ t, exec (.accept lastAccept) awaitingPart = .next t ∧ runsLeftover 13 t :=
  ⟨stateOf (execAccept lastAccept awaitingPart) awaitingPart, by
    obtain ⟨hhome, -, -, -⟩ := awaitingPart_ready
    change execAccept lastAccept awaitingPart = _
    have hinbox : takeMsg lastAccept 4 2 awaitingPart = awaitingPart := rfl
    simp only [execAccept, hinbox, hhome, stateOf], by unfold runsLeftover; decide +kernel⟩

end Sys2Proof.Machine

section

open Sys2Proof Sys2Proof.Machine

/-- Refutes O43: its clause on the last ACCEPT does not ask that no program of the slot is left on a hive of the directory. One that
stands at instruction 5 goes first, and the program of the job leaves the list with it. -/
theorem not_swarmJobsStartStopAndReport : ¬ Obligations.SwarmJobsStartStopAndReport := by
  intro h
  obtain ⟨hhome, hjob, hothers, hmodel⟩ := awaitingPart_ready
  obtain ⟨-, -, haccept, -⟩ := h lastAccept awaitingPart
  obtain ⟨-, -, hstarts⟩ := haccept _ rfl
  have hlast : ∀ a, a ∈ awaitingPart.others awaitingJob → a ≠ lastAccept.src → awaitingJob.accepted.getLsbD a.val = true := by
    intro a ha hne
    rw [hothers] at ha
    exact absurd (List.mem_singleton.1 ha) hne
  obtain ⟨t, i, hexec, -, -, -, -, hprogs⟩ := hstarts _ _ hhome hjob rfl rfl hmodel hlast
  obtain ⟨u, hu, hleft⟩ := awaitingPart_starts
  obtain rfl : u = t := Host.Outcome.next.inj (hu.symm.trans hexec)
  obtain ⟨p, hp, -, -, hpc⟩ := hprogs _ (List.mem_singleton.2 rfl)
  exact runsLeftover_pc hleft hp hpc

end

end

section
/-! A count that arrives for an accumulator whose chain waits for its last own count (R75, R76, R198): it adds to the value of the
chain too. -/

namespace Sys2Proof.Machine

/-- A home job of stations 0 and 1. -/
def chainJob : Job := { slot := 0, gen := 1, col := 0, kind := .queue 0, part := 0, st := .running, started := true, span := 3, d := {} }

/-- A program of the job with a chain that ends in accumulator 0. -/
def chainProg : Prog := { slot := 0, home := 13, fins := [{ seq := 1, acc := 0, v := 0, out := 0, index := 0, ctx := 0, recNo := 0 }] }

/-- The program runs on hive 13; the last count of the chain has still to land. -/
def chainPart : State := updHive 13 (fun x => { x with run := some chainProg, late := [{ seq := 1, left := 1 }] }) {
  swarm := { addr := some 0, st := .member, members := 3 }, jobs := [chainJob] }

/-- The header of a message of the job. -/
def chainHdr : MsgHdr := { port := 0, src := 1, home := 0, tag := chainJob.tag }

theorem chainPart_ready : chainPart.anyJob chainHdr = some chainJob ∧ (chainPart.hv 13).run = some chainProg ∧ tabWf 0 chainProg.acc = true := by
  decide +kernel

theorem chainPart_counts : ∃ t, exec (.add chainHdr 13 0 [1]) chainPart = .next t ∧ (t.hv 13).run.map (·.fins.map (·.v)) = some [1] :=
  ⟨addCounts 0 13 0 [1] chainPart, rfl, by decide +kernel⟩

end Sys2Proof.Machine

section

open Sys2Proof Sys2Proof.Machine

/-- Refutes O44: its clause on ADD has nothing of a program move but its accumulators. Where a chain that ends in the accumulator
waits for its last own count, the count adds to the value of the chain as well (R198). -/
theorem not_swarmMessagesCarryArrivalsAndData : ¬ Obligations.SwarmMessagesCarryArrivalsAndData := by
  intro ⟨_, h⟩
  obtain ⟨hjob, hrun, hwf⟩ := chainPart_ready
  obtain ⟨-, -, hadd, -⟩ := h chainHdr chainPart
  obtain ⟨t, q, hexec, hq, hframe, -⟩ := hadd 13 0 chainJob 13 chainProg 1 hjob hrun rfl rfl rfl hwf (by decide)
  obtain ⟨u, hu, hcount⟩ := chainPart_counts
  obtain rfl : u = t := Host.Outcome.next.inj (hu.symm.trans hexec)
  have hfins : q.fins = chainProg.fins := by rw [hframe]
  rw [hq, Option.map_some, hfins] at hcount
  exact absurd hcount (by decide)

end

end

section
/-! Exoth ports: an update of one port, and what a flit that is sent leaves of the port and of what the part has sent (R297, R300,
R306, R315). -/

namespace Sys2Proof.Machine

-- one port after an update

@[simp] theorem updPort_port (p : PortId) (f : Port → Port) (s : State) : (updPort p f s).ports[p] = f s.ports[p] := updAt_same _ _ _

theorem updPort_port_other {p q : PortId} (f : Port → Port) (s : State) (hq : q ≠ p) : (updPort p f s).ports[q] = s.ports[q] :=
  updAt_other _ _ _ _ hq

theorem updPort_updPort (p : PortId) (f g : Port → Port) (s : State) :
    updPort p f (updPort p g s) = updPort p (fun x => f (g x)) s := by
  simp only [updPort, updAt_updAt]

/-- Two updates of a port that agree on what it holds are one. -/
theorem updPort_congr {p : PortId} {f g : Port → Port} {s : State} (e : f s.ports[p] = g s.ports[p]) : updPort p f s = updPort p g s := by
  simp only [updPort, updAt]
  exact congrArg (fun x => { s with ports := s.ports.set p x }) e

/-- An update that leaves a port as it is leaves the state. -/
theorem updPort_eq_self {p : PortId} {f : Port → Port} {s : State} (e : f s.ports[p] = s.ports[p]) : updPort p f s = s := by
  have hset : s.ports.set p (f s.ports[p]) = s.ports := by
    rw [e]
    exact Vector.set_getElem_self _
  simp only [updPort, updAt, hset]

-- flits sent

/-- The port's flits `l` left it, oldest first: beside them only its slot count moved. -/
structure Sent (p : PortId) (l : List (List Byte)) (s t : State) : Prop where
  only : OnlyPort p s t
  port : t.ports[p] = { s.ports[p] with slotN := (t.ports[p]).slotN }
  tx : sentOn p t.tx = (l.filter (· ≠ idleFlit)).reverse ++ sentOn p s.tx

theorem sent_nil (p : PortId) (s : State) : Sent p [] s s := ⟨onlyPort_refl p s, rfl, rfl⟩

theorem sent_trans {p : PortId} {l k : List (List Byte)} {s t u : State} (h : Sent p l s t) (g : Sent p k t u) :
    Sent p (l ++ k) s u := by
  refine ⟨onlyPort_trans h.only g.only, ?_, ?_⟩
  · rw [g.port, h.port]
  · rw [g.tx, h.tx, List.filter_append, List.reverse_append, List.append_assoc]

theorem Sent.loopOn {p : PortId} {l : List (List Byte)} {s t : State} (h : Sent p l s t) : (t.ports[p]).loopOn = (s.ports[p]).loopOn := by
  rw [h.port]

/-- A flit sent is among those that have left the port, unless it is IDLE. -/
theorem Sent.mem {p : PortId} {l : List (List Byte)} {s t : State} (h : Sent p l s t) {b : List Byte} (hb : b ∈ l) (hi : b ≠ idleFlit) :
    b ∈ sentOn p t.tx := by
  rw [h.tx]
  exact List.mem_append_left _ (List.mem_reverse.2 (List.mem_filter.2 ⟨hb, decide_eq_true hi⟩))

/-- The part's sends, the last of them a flit of the port. -/
theorem sentOn_flit (p : PortId) (bs : List Byte) (slot cycle : Nat) (l : List Tx) :
    sentOn p (.flit p bs slot cycle :: l) = (([bs] : List (List Byte)).filter (· ≠ idleFlit)).reverse ++ sentOn p l := by
  by_cases hb : bs = idleFlit <;> simp [sentOn, hb]

theorem emitOne_open {p : PortId} {s : State} (bs : List Byte) (hl : (s.ports[p]).loopOn = false) : emitOne p bs s =
    (updPort p (fun x => { x with slotN := x.slotN + 1 }) s).send
      (.flit p bs ((s.ports[p]).slotN % (s.ports[p]).width) ((s.ports[p]).slotN / (s.ports[p]).width)) := by
  simp only [emitOne, hl, Bool.false_eq_true, if_false]

theorem emitOne_loop {p : PortId} {s : State} (bs : List Byte) (hl : (s.ports[p]).loopOn = true) : emitOne p bs s =
    updPort p (fun x => { x with slotN := x.slotN + 1, loopIn := x.loopIn ++ [bs] }) s := by
  simp only [emitOne, hl, if_true, updPort_updPort]

theorem sent_emitOne {p : PortId} {s : State} (bs : List Byte) (hl : (s.ports[p]).loopOn = false) : Sent p [bs] s (emitOne p bs s) := by
  refine ⟨onlyPort_emitOne p bs s, ?_, ?_⟩
  · rw [emitOne_open bs hl, State.send_ports, updPort_port]
  · rw [emitOne_open bs hl]
    exact sentOn_flit p bs _ _ s.tx

/-- IDLE flits are no flits of `sentOn`. -/
theorem sent_emitIdles {p : PortId} (n : Nat) {s : State} (hl : (s.ports[p]).loopOn = false) : Sent p [] s (emitIdles p n s) := by
  induction n generalizing s with
  | zero => exact sent_nil p s
  | succ n ih =>
    simp only [emitIdles]
    split
    · have hone := sent_emitOne idleFlit hl
      have hrest := sent_trans hone (ih (hone.loopOn.trans hl))
      exact ⟨hrest.only, hrest.port, hrest.tx.trans (by simp)⟩
    · exact sent_nil p s

theorem sent_emit {p : PortId} {s : State} (bs : List Byte) (hl : (s.ports[p]).loopOn = false) : Sent p [bs] s (emit p bs s) :=
  have hidle := sent_emitIdles 2 hl
  sent_trans hidle (sent_emitOne bs (hidle.loopOn.trans hl))

/-- A cycle whose slots carry no IDLE flits (R297). -/
theorem emit_no_idle {p : PortId} {s : State} (bs : List Byte) (h : (s.ports[p]).slotN / (s.ports[p]).width % 1024 ≠ 1023) :
    emit p bs s = emitOne p bs s := by
  simp only [emit, emitIdles, if_neg h]

/-- In LOOP too a flit moves no more of its port than the slot count and what comes back to it (R315). -/
theorem emitOne_port (p : PortId) (bs : List Byte) (s : State) : ∃ n l, (emitOne p bs s).ports[p] = { s.ports[p] with slotN := n, loopIn := l } := by
  by_cases hl : (s.ports[p]).loopOn = true
  · exact ⟨_, _, by rw [emitOne_loop bs hl, updPort_port]⟩
  · exact ⟨_, _, (sent_emitOne bs (Bool.not_eq_true _ ▸ hl)).port⟩

theorem emitIdles_port (p : PortId) (n : Nat) (s : State) : ∃ k l, (emitIdles p n s).ports[p] = { s.ports[p] with slotN := k, loopIn := l } := by
  induction n generalizing s with
  | zero => exact ⟨_, _, rfl⟩
  | succ n ih =>
    simp only [emitIdles]
    split
    · obtain ⟨_, _, hone⟩ := emitOne_port p idleFlit s
      obtain ⟨k, l, hrest⟩ := ih (emitOne p idleFlit s)
      exact ⟨k, l, by rw [hrest, hone]⟩
    · exact ⟨_, _, rfl⟩

theorem emit_port (p : PortId) (bs : List Byte) (s : State) : ∃ n l, (emit p bs s).ports[p] = { s.ports[p] with slotN := n, loopIn := l } := by
  obtain ⟨_, _, hidle⟩ := emitIdles_port p 2 s
  obtain ⟨n, l, hone⟩ := emitOne_port p bs (emitIdles p 2 s)
  exact ⟨n, l, by rw [emit, hone, hidle]⟩

/-- A port with nothing in its queue sends nothing. -/
theorem pump_empty {p : PortId} {s : State} (h : (s.ports[p]).outq = []) : pump p s = s := by
  simp only [pump, h, List.map_nil, List.sum_nil, pumpN]

/-- A LINK flit is no IDLE flit: their headers differ (Table 13.3). -/
theorem flitBytes_link_ne_idle (b : List Byte) : flitBytes 1 true true 0 b ≠ idleFlit := by
  intro h
  exact absurd (List.cons.inj h).1 (by decide)

end Sys2Proof.Machine

end

section
/-! Flits received on an Exoth port (R299 to R303, R306 to R309). -/

namespace Sys2Proof.Machine

-- what comes of 16 bytes

theorem carries_of_live {x : Port} (h : x.live = true) : x.carries = true := by
  simp only [Port.carries, h, Bool.true_or]

theorem receive_short {p : PortId} {bs : List Byte} {s : State} (h : bs.length ≠ 16) : receive p bs s = s := by
  have hne : (bs.length != 16) = true := bne_iff_ne.2 h
  simp only [receive, hne, Bool.true_or, if_true]

theorem length_of_crcOk {bs : List Byte} (h : crcOk bs = true) : bs.length = 16 := by
  simp only [crcOk, Bool.and_eq_true, beq_iff_eq] at h
  exact h.1

/-- A LINK flit is good. -/
theorem crcOk_of_isLink {n : Nat} {bs : List Byte} (h : isLink n bs = true) : crcOk bs = true := by
  simp only [isLink, Bool.and_eq_true] at h
  exact h.1.1

/-- The bytes of a flit before its CRC are its header and its payload. -/
theorem u8_payload {bs : List Byte} (i : Nat) (hi : i < 13) : u8 ((bs.drop 1).take 13) i = u8 bs (i + 1) := by
  simp only [u8, List.getD_eq_getElem?_getD, List.getElem?_take, List.getElem?_drop, if_pos hi, Nat.add_comm 1 i]

section
variable {p : PortId} {bs : List Byte} {s : State} (hlive : (s.ports[p]).live = true)
include hlive

theorem receive_bad (hlen : bs.length = 16) (hcrc : crcOk bs = false) :
    receive p bs s = badFlit p (updPort p (fun y => { y with crcCnt := y.crcCnt + 1 }) s) := by
  simp only [receive, hlen, hcrc, carries_of_live hlive, Bool.true_or, Bool.not_true, bne_self_eq_false, Bool.or_self, Bool.false_eq_true,
    if_false]

theorem receive_good (hcrc : crcOk bs = true) : receive p bs s = goodFlit p bs s := by
  simp only [receive, length_of_crcOk hcrc, hcrc, carries_of_live hlive, Bool.true_or, Bool.not_true, bne_self_eq_false, Bool.or_self,
    Bool.false_eq_true, if_false, if_true]

theorem badFlit_first (hd : (s.ports[p]).discarding = false) : badFlit p s =
    updPort p (fun y => { y with discarding := true }) (emit p (linkFlit s p 2 (s.ports[p]).rxNext (List.replicate 10 0)) s) := by
  simp only [badFlit, hd, hlive, Bool.not_true, Bool.or_self, Bool.false_eq_true, if_false, sendLink]

end

theorem badFlit_discarding {p : PortId} {s : State} (hd : (s.ports[p]).discarding = true) : badFlit p s = s := by
  simp only [badFlit, hd, Bool.true_or, if_true]

/-- A flit whose CRC matches and that is of a sequenced class (R301, Table 13.3). -/
theorem goodFlit_sequenced {p : PortId} {bs : List Byte} {k : Nat} {s : State} (hlive : (s.ports[p]).live = true) (hk : k = u8 bs 0 % 8)
    (h2 : 2 ≤ k) (h6 : k ≤ 6) : goodFlit p bs s =
      if u8 bs 0 / 32 != (s.ports[p]).rxNext % 8 then badFlit p s
      else gotFlit p k ((u8 bs 0).testBit 3) ((u8 bs 0).testBit 4) ((bs.drop 1).take 13) (updPort p (fun x => { x with
        rxNext := (x.rxNext + 1) % 1024, rxfCnt := x.rxfCnt + 1, discarding := false, ackDue := true }) s) := by
  have h0 : k ≠ 0 := by omega
  have h1 : k ≠ 1 := by omega
  have h7 : k ≠ 7 := by omega
  simp only [goodFlit, ← hk, h0, h1, h7, hlive, decide_false, Bool.false_or, Bool.false_and, Bool.false_eq_true, if_false, Bool.not_true]

/-- A good LINK flit is one whose header is that of class 1, first and last (Table 13.3). -/
theorem goodFlit_link {p : PortId} {n : Nat} {bs : List Byte} {s : State} (h : isLink n bs = true) :
    goodFlit p bs s = takeLink p ((bs.drop 1).take 13) s := by
  simp only [isLink, Bool.and_eq_true, beq_iff_eq] at h
  obtain ⟨⟨-, hhead⟩, -⟩ := h
  have hkind : u8 bs 0 % 8 = 1 := by omega
  have hsom : (u8 bs 0).testBit 3 = true := by rw [Nat.testBit_eq_decide_div_mod_eq]; exact decide_eq_true (by omega)
  have heom : (u8 bs 0).testBit 4 = true := by rw [Nat.testBit_eq_decide_div_mod_eq]; exact decide_eq_true (by omega)
  simp [goodFlit, hkind, hsom, heom]

/-- The LTYPE of a LINK flit is the first byte of its payload. -/
theorem ltype_of_isLink {n : Nat} {bs : List Byte} (h : isLink n bs = true) : u8 ((bs.drop 1).take 13) 0 = n := by
  simp only [isLink, Bool.and_eq_true, beq_iff_eq] at h
  rw [u8_payload 0 (by omega)]
  exact h.2

theorem exec_flitReceive (p : PortId) (bs : List Byte) (s : State) : exec (.flitReceive p bs) s = .next (receive p bs s) := rfl

/-- A flit that arrives and the STATUS that it is are one. -/
theorem exec_flitReceive_status {p : PortId} {bs : List Byte} {s : State} (hlive : (s.ports[p]).live = true) (h : isLink 1 bs = true) :
    exec (.flitReceive p bs) s = exec (.status p bs) s := by
  rw [exec_flitReceive, receive_good hlive (crcOk_of_isLink h), goodFlit_link h]
  change _ = execStatus p bs s
  simp only [execStatus, takeLink, ltype_of_isLink h, h, if_true]

theorem exec_flitReceive_nak {p : PortId} {bs : List Byte} {s : State} (hlive : (s.ports[p]).live = true) (h : isLink 2 bs = true) :
    exec (.flitReceive p bs) s = exec (.nak p bs) s := by
  rw [exec_flitReceive, receive_good hlive (crcOk_of_isLink h), goodFlit_link h]
  change _ = execNak p bs s
  simp only [execNak, takeLink, ltype_of_isLink h, h, if_true]

-- the first flit of a message (R307 to R309)

/-- A port has received a good sequenced flit in order (R300, R301). -/
def Port.inOrder (x : Port) : Port := { x with
  rxNext := (x.rxNext + 1) % 1024, rxfCnt := x.rxfCnt + 1, discarding := false, ackDue := true }

/-- The number of flits of a message, and the VC that it came on, as its first payload names them (Table 13.6). -/
def msgLen (b : List Byte) : Nat := u8 b 2 % 64 + 1

def msgVc (b : List Byte) : Nat := u8 b 0 / 64 % 2

/-- A message of which the first payload has come. -/
def openedBy (k : Nat) (b : List Byte) (dest : RxTo) : RxMsg :=
  { kind := k, vc := msgVc b, len := msgLen b, got := 1, dest := dest, flits := if dest == .here then [b] else [] }

/-- The bits FIRST and LAST of a header that begins a message. -/
theorem testBit_of_first {h : Nat} {eom : Bool} (hb : h / 8 % 4 = 1 + 2 * b2n eom) : h.testBit 3 = true ∧ h.testBit 4 = eom := by
  simp only [Nat.testBit_eq_decide_div_mod_eq, decide_eq_true_eq]
  cases eom <;> simp only [b2n, if_true, Bool.false_eq_true, if_false] at hb <;> simp <;> omega

section
variable {p : PortId} {bs : List Byte} {k : Nat} {s : State} {x : Port} (hx : x = s.ports[p]) (hlive : x.live = true)
  (hk : k = u8 bs 0 % 8) (hcrc : crcOk bs = true) (h2 : 2 ≤ k) (h6 : k ≤ 6)
include hx hlive hk hcrc h2 h6

theorem receive_out_of_order (hseq : u8 bs 0 / 32 ≠ x.rxNext % 8) (hd : x.discarding = false) : receive p bs s =
    updPort p (fun y => { y with discarding := true }) (emit p (linkFlit s p 2 x.rxNext (List.replicate 10 0)) s) := by
  subst hx
  rw [receive_good hlive hcrc, goodFlit_sequenced hlive hk h2 h6, if_pos (bne_iff_ne.2 hseq), badFlit_first hlive hd]

theorem receive_first {eom : Bool} (hseq : u8 bs 0 / 32 = x.rxNext % 8) (hbits : u8 bs 0 / 8 % 4 = 1 + 2 * b2n eom) :
    receive p bs s = firstFlit p k eom ((bs.drop 1).take 13) (updPort p Port.inOrder s) := by
  subst hx
  obtain ⟨hsom, heom⟩ := testBit_of_first hbits
  rw [receive_good hlive hcrc, goodFlit_sequenced hlive hk h2 h6, if_neg (by simpa using hseq), hsom, heom]
  rfl

end

/-- No message of the class is under way. -/
theorem find_part_none {l : List RxMsg} {k : Nat} (h : ∀ e, e ∈ l → e.kind ≠ k) : (l.find? fun e => e.kind == k) = none :=
  List.find?_eq_none.2 fun e he => by simpa using h e he

section
variable {p : PortId} {k : Nat} {b : List Byte} {eom : Bool} {s : State} (hlen : msgLen b ≤ longest k) (heom : eom = (msgLen b == 1))
  (hpart : ∀ e, e ∈ (s.ports[p]).rxPart → e.kind ≠ k)
include hlen heom hpart

theorem firstFlit_here (hto : (rxTo p k b s).1 = .here) : firstFlit p k eom b s =
    rxFlit p (openedBy k b .here) b (updPort p (holdPart (openedBy k b .here)) s) := by
  rw [firstFlit, if_neg (by simp [heom, Nat.not_lt.2 hlen, show u8 b 2 % 64 + 1 = msgLen b from rfl])]
  simp only [find_part_none hpart, hto]
  rfl

theorem firstFlit_pass {q : PortId} {out : Nat} (hto : rxTo p k b s = (.pass q, out)) : firstFlit p k eom b s =
    passFirst p q k (msgVc b) out (msgLen b) b (updPort p (holdPart (openedBy k b (.pass q))) s) := by
  rw [firstFlit, if_neg (by simp [heom, Nat.not_lt.2 hlen, show u8 b 2 % 64 + 1 = msgLen b from rfl])]
  simp only [find_part_none hpart, hto]
  rfl

end

end Sys2Proof.Machine

end

section
/-! Events and the loss of an Exoth port (R321 to R323). -/

namespace Sys2Proof.Machine

-- EXO_PEVT

/-- All that an event of a port does: its register takes the bits, and beside that only the glass and PF0's vectors move. -/
theorem exoEvent_says (p : PortId) (w : Word) (s : State) :
    OnlyGlass (updPort p (fun x => { x with evt := x.evt ||| w }) s) (exoEvent p w s) ∧ (exoEvent p w s).hives = s.hives :=
  postEvent_says (.exo p) w s

theorem exoEvent_ports (p : PortId) (w : Word) (s : State) :
    (exoEvent p w s).ports = (updPort p (fun x => { x with evt := x.evt ||| w }) s).ports := by
  rw [(exoEvent_says p w s).1]

theorem exoEvent_port (p : PortId) (w : Word) (s : State) :
    (exoEvent p w s).ports[p] = { s.ports[p] with evt := (s.ports[p]).evt ||| w } := by
  rw [exoEvent_ports, updPort_port]

theorem exoEvent_port_other {p q : PortId} (w : Word) (s : State) (hq : q ≠ p) : (exoEvent p w s).ports[q] = s.ports[q] := by
  rw [exoEvent_ports]
  exact updPort_port_other _ s hq

theorem exoEvent_keeps (p : PortId) (w : Word) (s : State) : (exoEvent p w s).inbox = s.inbox ∧ (exoEvent p w s).jobs = s.jobs ∧
    (exoEvent p w s).hives = s.hives ∧ (exoEvent p w s).swarm = s.swarm := by
  refine ⟨?_, ?_, (exoEvent_says p w s).2, ?_⟩ <;> rw [(exoEvent_says p w s).1] <;> rfl

theorem sendsMore_exoEvent (p : PortId) (w : Word) (s : State) : SendsMore s (exoEvent p w s) :=
  sendsMore_trans (sendsMore_updPort p _ s) (sendsMore_trans (sendsMore_ite (sendsMore_glassPut _ _) (sendsMore_refl _))
    (sendsMore_raiseAll _ _))

/-- What has left a port stays among what has left it. -/
theorem SendsMore.sentOn {s t : State} (h : SendsMore s t) (p : PortId) : sentOn p s.tx ⊆ sentOn p t.tx := fun _ hb =>
  let ⟨x, hx, hbx⟩ := List.mem_filterMap.1 hb
  List.mem_filterMap.2 ⟨x, h.tx hx, hbx⟩

-- messages that leave the queues

theorem leaveBuffer_none {m : OutMsg} (h : m.from_ = none) (n : Nat) (s : State) : leaveBuffer m n s = s := by
  simp only [leaveBuffer, h]

theorem nonePassed_congr {s t : State} (h : ∀ q : PortId, (t.ports[q]).outq ⊆ (s.ports[q]).outq) (hn : s.nonePassed) : t.nonePassed :=
  fun q m hm => hn q m (h q hm)

theorem nonePassed_updPort {p : PortId} {f : Port → Port} {s : State} (hf : ∀ x, (f x).outq ⊆ x.outq) (hn : s.nonePassed) :
    (updPort p f s).nonePassed := by
  refine nonePassed_congr (fun q => ?_) hn
  by_cases hq : q = p
  · rw [hq, updPort_port]
    exact hf _
  · rw [updPort_port_other f s hq]
    exact List.Subset.refl _

/-- Messages of this station leave a queue, and no buffer. -/
theorem cutOut_own {p : PortId} {f : OutMsg → Bool} {s : State} (h : ∀ m, m ∈ (s.ports[p]).outq → f m = true → m.from_ = none) :
    cutOut p f s = updPort p (fun x => { x with outq := x.outq.filter fun m => !f m }) s := by
  have hfold : ∀ (l : List OutMsg) (t : State), (∀ m, m ∈ l → m.from_ = none) →
      l.foldl (fun t m => leaveBuffer m m.flits.length t) t = t := by
    intro l
    induction l with
    | nil => exact fun t _ => rfl
    | cons m r ih =>
      intro t hl
      rw [List.foldl_cons, leaveBuffer_none (hl m List.mem_cons_self)]
      exact ih t fun k hk => hl k (List.mem_cons_of_mem m hk)
  exact hfold _ _ fun m hm => h m (List.mem_filter.1 hm).1 (List.mem_filter.1 hm).2

/-- Nothing that matches stands in a queue. -/
theorem cutOut_nothing {p : PortId} {f : OutMsg → Bool} {s : State} (h : ∀ m, m ∈ (s.ports[p]).outq → f m = false) : cutOut p f s = s := by
  rw [cutOut_own fun m hm hf => absurd hf (by rw [h m hm]; decide)]
  refine updPort_eq_self ?_
  rw [List.filter_eq_self.2 fun m hm => by rw [h m hm]; rfl]

theorem cutAll_nothing {f : OutMsg → Bool} {s : State} (h : ∀ (q : PortId) m, m ∈ (s.ports[q]).outq → f m = false) : cutAll f s = s := by
  unfold cutAll
  induction List.finRange 4 with
  | nil => rfl
  | cons q r ih => rw [List.foldl_cons, cutOut_nothing (h q), ih]

/-- Where no port passes a message on, a loss discards what is partly sent on the port, and no more (R322). -/
theorem cutLost_own {p : PortId} {s : State} (hn : s.nonePassed) :
    cutLost p s = updPort p (fun x => { x with outq := x.outq.filter fun m => !m.started }) s := by
  rw [cutLost, cutOut_own fun m hm _ => hn p m hm]
  refine cutAll_nothing fun q m hm => ?_
  have hown := nonePassed_updPort (p := p) (f := fun x => { x with outq := x.outq.filter fun m => !m.started })
    (fun x => List.filter_subset_self x.outq) hn q m hm
  simp only [OutMsg.cameIn, hown]

-- the port that is lost (R322)

/-- A port as its loss leaves it, but for EXO_PEVT. -/
def Port.lost (cause : Nat) (st : PortSt) (tx : TxLight) (x : Port) : Port := { x.clear with
  outq := x.outq.filter (fun m => !m.started), st := st, tx := tx, admitted := false, partnerV := false, partner := 0, pport := 0
  self := false, half := false, loopIn := [], peer := none, lossNow := true, lossCause := BitVec.ofNat 4 cause
  lossCount := satInc x.lossCount }

section
variable {p : PortId} {s : State} (hn : s.nonePassed) (hv : (s.ports[p]).partnerV = false)
include hn hv

theorem losePort_eq (cause : Nat) (st : PortSt) (tx : TxLight) : losePort p cause st tx s =
    exoEvent p 1 { updPort p (Port.lost cause st tx) s with inbox := s.inbox.filter fun m => m.port != p } := by
  simp only [losePort, hv, Bool.false_and, Bool.false_eq_true, if_false, cutLost_own hn, updPort_updPort]
  rfl

theorem losePort_port (cause : Nat) (st : PortSt) (tx : TxLight) : (losePort p cause st tx s).ports[p] =
    { (s.ports[p]).lost cause st tx with evt := (s.ports[p]).evt ||| 1 } := by
  rw [losePort_eq hn hv, exoEvent_port]
  exact congrArg (fun x : Port => { x with evt := x.evt ||| 1 }) (updPort_port p _ s)

theorem portLost_losePort (cause : Nat) (st : PortSt) (tx : TxLight) : PortLost p cause st tx s (losePort p cause st tx s) := by
  have hport := losePort_port hn hv cause st tx
  have heq := losePort_eq hn hv cause st tx
  obtain ⟨hinbox, hjobs, hhives, hswarm⟩ := exoEvent_keeps p 1
    { updPort p (Port.lost cause st tx) s with inbox := s.inbox.filter fun m => m.port != p }
  unfold PortLost
  rw [hport]
  refine ⟨rfl, rfl, rfl, rfl, rfl, rfl, rfl, rfl, rfl, rfl, rfl, rfl, rfl, rfl, ?_, fun q hq => ?_, fun m => ?_, ?_, ?_, ?_⟩
  · simp
  · rw [heq, exoEvent_port_other 1 _ hq]
    exact updPort_port_other _ s hq
  · rw [heq, hinbox]
    simp
  · rw [heq, hjobs, updPort_jobs]
  · rw [heq, hhives, updPort_hives]
  · rw [heq, hswarm, updPort_swarm]

end

-- steps before and after a loss

/-- A loss stands when only its port, in what the loss does not speak of, moved before it. -/
theorem PortLost.after {p : PortId} {cause : Nat} {st : PortSt} {tx : TxLight} {s u t : State} (h : PortLost p cause st tx u t)
    (hu : OnlyPort p s u) (hcount : (u.ports[p]).lossCount = (s.ports[p]).lossCount) (hout : (u.ports[p]).outq = (s.ports[p]).outq) :
    PortLost p cause st tx s t := by
  obtain ⟨hst, htx, hcause, hlost, hretry, htn, hrn, hcr, had, hpv, hpa, hpp, hrx, hq, hevt, hother, hin, hjobs, hhives, hswarm⟩ := h
  obtain ⟨hframe, hports⟩ := hu
  refine ⟨hst, htx, hcause, hlost.trans (by rw [hcount]), hretry, htn, hrn, hcr, had, hpv, hpa, hpp, hrx, hq.trans (by rw [hout]), hevt,
    fun q hq => (hother q hq).trans (hports q hq), fun m => (hin m).trans (by rw [hframe]), hjobs.trans (by rw [hframe]),
    hhives.trans (by rw [hframe]), hswarm.trans (by rw [hframe])⟩

/-- A loss stands when after it the port's events, its partner's report and its slot count move, and nothing that a loss speaks of. -/
theorem PortLost.before {p : PortId} {cause : Nat} {st : PortSt} {tx : TxLight} {s u t : State} (h : PortLost p cause st tx s u)
    (hport : ∃ i n e, t.ports[p] = { u.ports[p] with peer := i, slotN := n, evt := e } ∧
      ((u.ports[p]).evt.getLsbD 0 = true → e.getLsbD 0 = true))
    (hports : ∀ q : PortId, q ≠ p → t.ports[q] = u.ports[q])
    (hkeeps : t.inbox = u.inbox ∧ t.jobs = u.jobs ∧ t.hives = u.hives ∧ t.swarm = u.swarm) : PortLost p cause st tx s t := by
  obtain ⟨hst, htx, hcause, hlost, hretry, htn, hrn, hcr, had, hpv, hpa, hpp, hrx, hq, hevt, hother, hin, hjobs, hhives, hswarm⟩ := h
  obtain ⟨i, n, e, hport, hlossEvt⟩ := hport
  obtain ⟨kin, kjobs, khives, kswarm⟩ := hkeeps
  unfold PortLost
  rw [hport, kin, kjobs, khives, kswarm]
  exact ⟨hst, htx, hcause, hlost, hretry, htn, hrn, hcr, had, hpv, hpa, hpp, hrx, hq, hlossEvt hevt,
    fun q hq => (hports q hq).trans (hother q hq), hin, hjobs, hhives, hswarm⟩

theorem PortLost.event {p : PortId} {cause : Nat} {st : PortSt} {tx : TxLight} {s t : State} (w : Word) (h : PortLost p cause st tx s t) :
    PortLost p cause st tx s (exoEvent p w t) :=
  h.before ⟨_, _, _, exoEvent_port p w t, fun h0 => by rw [BitVec.getLsbD_or, h0, Bool.true_or]⟩ (fun _ => exoEvent_port_other w t) (exoEvent_keeps p w t)

-- the training steps that follow (R311, R322)

/-- The TRAIN flit of a good receive set and an echo. -/
def trainFlit (good : BitVec 9) (echo : BitVec 16) : List Byte :=
  flitBytes 1 true true 0 (3 :: trainBytes { good := good, serial := Config.dsn, echo := echo })

/-- The echo that a port's TRAIN flits carry. -/
def Port.echo (x : Port) : BitVec 16 := (x.peer.map (·.echo)).getD 0

theorem sendTrain_loop {p : PortId} {s : State} (good : BitVec 9) (hl : (s.ports[p]).loopOn = true) : sendTrain p good s = s := by
  simp only [sendTrain, hl, if_true]

theorem sent_sendTrain {p : PortId} {s : State} (good : BitVec 9) (hl : (s.ports[p]).loopOn = false) :
    Sent p [trainFlit good (s.ports[p]).echo] s (sendTrain p good s) := by
  simp only [sendTrain, hl, Bool.false_eq_true, if_false]
  exact sent_emit _ hl

theorem trainSent_of_sent {p : PortId} {good : BitVec 9} {echo : BitVec 16} {s t : State} (h : Sent p [trainFlit good echo] s t) :
    TrainSent p good echo t :=
  h.mem List.mem_cons_self (flitBytes_link_ne_idle _)

theorem sent_beginTrain {p : PortId} {s : State} (hl : (s.ports[p]).loopOn = false) :
    Sent p [trainFlit 0 0] (updPort p (fun x => { x with peer := none }) s) (beginTrain p s) := by
  have hsent := sent_sendTrain (p := p) (s := updPort p (fun x => { x with peer := none }) s) 0 (by rw [updPort_port]; exact hl)
  rw [updPort_port] at hsent
  exact hsent

theorem beginTrain_loop {p : PortId} {s : State} (hl : (s.ports[p]).loopOn = true) :
    beginTrain p s = updPort p (fun x => { x with peer := none }) s :=
  sendTrain_loop 0 (by rw [updPort_port]; exact hl)

/-- The first TRAIN flit moves no more of its port than the slot count, and in LOOP none is sent. -/
theorem beginTrain_port (p : PortId) (s : State) : (beginTrain p s).ports[p] =
    { s.ports[p] with peer := none, slotN := ((beginTrain p s).ports[p]).slotN } := by
  cases hl : (s.ports[p]).loopOn with
  | false =>
    have hport := (sent_beginTrain hl).port
    rw [updPort_port] at hport
    exact hport
  | true => rw [beginTrain_loop hl, updPort_port]

theorem onlyPort_beginTrain (p : PortId) (s : State) : OnlyPort p s (beginTrain p s) := by
  cases hl : (s.ports[p]).loopOn with
  | false => exact onlyPort_trans (onlyPort_updPort p _ s) (sent_beginTrain hl).only
  | true =>
    rw [beginTrain_loop hl]
    exact onlyPort_updPort p _ s

-- a loss after which the port trains while it has light (R322)

section
variable {p : PortId} {s : State} (hn : s.nonePassed) (hv : (s.ports[p]).partnerV = false) (hl : (s.ports[p]).loopOn = false)
include hn hv hl

theorem portLost_dropPort_light (cause : Nat) (hlight : (s.ports[p]).light = true) : PortLost p cause .train .full s (dropPort p cause s) := by
  simp only [dropPort, hl, hlight, Bool.false_eq_true, if_false, if_true]
  obtain ⟨hframe, hports⟩ := onlyPort_beginTrain p (losePort p cause .train .full s)
  exact (portLost_losePort hn hv cause .train .full).before ⟨none, _, _, beginTrain_port p _, id⟩ hports
    (by rw [hframe]; exact ⟨rfl, rfl, rfl, rfl⟩)

theorem portLost_dropPort_dark (cause : Nat) (hlight : (s.ports[p]).light = false) : PortLost p cause .safe .dark s (dropPort p cause s) := by
  simp only [dropPort, hl, hlight, Bool.false_eq_true, if_false]
  exact portLost_losePort hn hv cause .safe .dark

end

end Sys2Proof.Machine

end

section
/-! What a message's first flit comes to, acknowledgement, retry and the light of a flit (R296, R297, R300 to R309). -/

namespace Sys2Proof.Machine

-- a message for this station (R307, R308)

/-- A flit that the port does not discard for want of admission (R314). -/
theorem class_admitted {x : Port} {k : Nat} (h : x.admitted = true ∨ k = 6) : (k == 6 || x.admitted) = true := by
  rcases h with h | h <;> simp [h]

theorem rxTo_here {p : PortId} {k : Nat} {b : List Byte} {s : State} {a : StnId} (ha : s.swarm.addr = some a) (hd : u8 b 0 % 64 = a.val)
    (hadm : (s.ports[p]).admitted = true ∨ k = 6) (hop : opKnown k (u8 b 6) = true) : (rxTo p k b s).1 = .here := by
  have hdrop : (!(s.ports[p]).admitted && k != 6) = false := by
    have hclass := class_admitted hadm
    generalize s.ports[p].admitted = c at hclass
    cases c <;> simp_all
  rw [rxTo]
  simp only [hdrop, ha, hd, hop, beq_self_eq_true, Bool.or_true, Bool.false_eq_true, if_true, if_false]

/-- A message that the port has nothing of takes its place when more of it is to come, and none when it is whole. -/
theorem holdPart_opened {k : Nat} {b : List Byte} {x : Port} (hpart : ∀ e, e ∈ x.rxPart → e.kind ≠ k) (dest : RxTo) :
    holdPart (openedBy k b dest) x = { x with rxPart := if msgLen b = 1 then x.rxPart else x.rxPart ++ [openedBy k b dest] } := by
  have hrest : (x.rxPart.filter fun e => e.kind != k) = x.rxPart :=
    List.filter_eq_self.2 fun e he => bne_iff_ne.2 (hpart e he)
  simp only [holdPart, openedBy, hrest, eq_comm (a := 1)]

theorem rxFlit_opened_here (p : PortId) (k : Nat) (b : List Byte) (s : State) : rxFlit p (openedBy k b .here) b s =
    if msgLen b = 1 then { s with inbox := s.inbox ++ [{ port := p, kind := k, vc := msgVc b, payload := b, nflits := 1 }] } else s := by
  simp [rxFlit, openedBy, gotMessage, eq_comm (a := 1)]

section
variable {p : PortId} {bs b : List Byte} {k : Nat} {s : State} {x : Port} {a : StnId} (hx : x = s.ports[p]) (hlive : x.live = true)
  (hb : b = (bs.drop 1).take 13) (hk : k = u8 bs 0 % 8) (hcrc : crcOk bs = true) (h2 : 2 ≤ k) (h6 : k ≤ 6)
  (hseq : u8 bs 0 / 32 = x.rxNext % 8) (hpart : ∀ e, e ∈ x.rxPart → e.kind ≠ k)
include hx hlive hb hk hcrc h2 h6 hseq hpart

/-- The first flit of a message for this station (R306, R308). -/
theorem receive_here {eom : Bool} (hbits : u8 bs 0 / 8 % 4 = 1 + 2 * b2n eom) (heom : eom = (msgLen b == 1)) (hlen : msgLen b ≤ longest k)
    (ha : s.swarm.addr = some a) (hd : u8 b 0 % 64 = a.val) (hadm : x.admitted = true ∨ k = 6) (hop : opKnown k (u8 b 6) = true) :
    receive p bs s = rxFlit p (openedBy k b .here) b (updPort p (fun y => { y.inOrder with
      rxPart := if msgLen b = 1 then y.rxPart else y.rxPart ++ [openedBy k b .here] }) s) := by
  subst hx
  have hto : (rxTo p k b (updPort p Port.inOrder s)).1 = .here := rxTo_here ha hd (by rw [updPort_port]; exact hadm) hop
  rw [receive_first rfl hlive hk hcrc h2 h6 hseq hbits, ← hb, firstFlit_here hlen heom (by rw [updPort_port]; exact hpart) hto,
    updPort_updPort]
  exact congrArg _ (updPort_congr (holdPart_opened (x := (s.ports[p]).inOrder) hpart .here))

/-- The first flit of a longer message that is passed on (R309). -/
theorem receive_pass {q : PortId} {out : Nat} (hbits : u8 bs 0 / 8 % 4 = 1) (hone : msgLen b ≠ 1) (hlen : msgLen b ≤ longest k)
    (hto : rxTo p k b s = (.pass q, out)) : receive p bs s = passFirst p q k (msgVc b) out (msgLen b) b
      (updPort p (fun y => holdPart (openedBy k b (.pass q)) y.inOrder) s) := by
  subst hx
  have hto' : rxTo p k b (updPort p Port.inOrder s) = (.pass q, out) := by
    rw [← hto]
    simp only [rxTo, updPort_port, updPort_swarm]
    rfl
  rw [receive_first (eom := false) rfl hlive hk hcrc h2 h6 hseq hbits, ← hb,
    firstFlit_pass hlen (beq_eq_false_iff_ne.2 hone).symm (by rw [updPort_port]; exact hpart) hto', updPort_updPort]

end

-- a message that is passed on (R309)

theorem b2n_le (c : Bool) : b2n c ≤ 1 := by cases c <;> decide

theorem vcOf_le (w : SwarmSt) (src at_ next dst : Nat) : w.vcOf src at_ next dst ≤ 1 := by
  unfold SwarmSt.vcOf
  dsimp only
  split
  · exact b2n_le _
  · split <;> exact b2n_le _
  · exact Nat.zero_le 1

theorem ite_vc_le {c : Prop} [Decidable c] {y z : RxTo × Nat} (hy : y.2 ≤ 1) (hz : z.2 ≤ 1) : (if c then y else z).2 ≤ 1 := by
  split <;> assumption

/-- A message goes on in VC 0 or VC 1 (Table 14.1). -/
theorem rxTo_vc_le (p : PortId) (k : Nat) (b : List Byte) (s : State) : (rxTo p k b s).2 ≤ 1 := by
  have hvc : u8 b 0 / 64 % 2 ≤ 1 := by omega
  refine ite_vc_le hvc (ite_vc_le hvc ?_)
  split
  · split
    · exact hvc
    · exact vcOf_le _ _ _ _ _
  · exact hvc

/-- What stands ready stands in the queue. -/
theorem ready_mem {x : Port} {k : Nat} {m : OutMsg} (h : x.ready k = some m) : m ∈ x.outq := by
  unfold Port.ready at h
  split at h
  · next n hn =>
    split at h
    · cases h
      exact List.mem_of_find?_eq_some hn
    · cases h
  · obtain ⟨v, -, hv⟩ := List.exists_of_findSome?_eq_some h
    obtain ⟨n, hn, hm⟩ := Option.bind_eq_some_iff.1 hv
    split at hm
    · cases hm
      exact List.mem_of_find?_eq_some hn
    · cases hm

theorem ready_single {x : Port} {m : OutMsg} (hq : x.outq = [m]) (hs : m.started = false) (hc : x.canSend m = true) (hv : m.vc ≤ 1) :
    (x.ready m.kind).isSome = true := by
  have hhead : x.head? m.kind m.vc = some m := by simp [Port.head?, hq]
  have hnone : (x.outq.find? fun n => n.kind == m.kind && n.started) = none := by simp [hq, hs]
  rw [Port.ready, hnone]
  refine List.findSome?_isSome_iff.2 ⟨m.vc, by simp; omega, ?_⟩
  simp [hhead, hc]

/-- A port whose queue holds one message that it can send sends that one next. -/
theorem next?_single {x : Port} {m : OutMsg} (hq : x.outq = [m]) (hs : m.started = false) (hc : x.canSend m = true) (hv : m.vc ≤ 1)
    (h2 : 2 ≤ m.kind) (h6 : m.kind ≤ 6) : x.next? = some m := by
  have hmem : m.kind ∈ x.order := by
    unfold Port.order
    split <;> simp <;> omega
  obtain ⟨n, hn⟩ := Option.isSome_iff_exists.1
    (List.findSome?_isSome_iff.2 ⟨m.kind, hmem, ready_single hq hs hc hv⟩ : (x.order.findSome? x.ready).isSome = true)
  obtain ⟨k, -, hk⟩ := List.exists_of_findSome?_eq_some hn
  have hin := ready_mem hk
  rw [hq, List.mem_singleton] at hin
  rw [Port.next?, hn, hin]

/-- A flit that a port which is not in LOOP sends is handed on. -/
theorem emit_mem {p : PortId} {s : State} (bs : List Byte) (hl : (s.ports[p]).loopOn = false) :
    ∃ slot cycle, Tx.flit p bs slot cycle ∈ (emit p bs s).tx := by
  have hidle : ((emitIdles p 2 s).ports[p]).loopOn = false := (sent_emitIdles 2 hl).loopOn.trans hl
  rw [emit, emitOne_open bs hidle]
  exact ⟨_, _, List.mem_cons_self⟩

/-- The next flit of a message is handed on, numbered (R300). -/
theorem sendOut_mem {p : PortId} {s : State} (m : OutMsg) (hl : (s.ports[p]).loopOn = false) : ∃ slot cycle,
    Tx.flit p (flitBytes m.kind (!m.started) m.rest.isNone (s.ports[p]).txNext (m.flits.headD [])) slot cycle ∈ (sendOut p m s).tx := by
  unfold sendOut sendFlit
  simp only [updPort_port]
  refine (emit_mem (p := p) _ ?_).imp fun slot => Exists.imp fun cycle hmem => (sendsMore_leaveBuffer m 1 _).tx hmem
  rw [updPort_port, updPort_port]
  exact hl

/-- The one message of a port's queue, with one flit here, sends it (R306, R308). -/
theorem enq_sends {q : PortId} {m : OutMsg} {f : List Byte} {s : State} (hlive : (s.ports[q]).live = true)
    (hadm : (s.ports[q]).admitted = true ∨ m.kind = 6) (hq : (s.ports[q]).outq = []) (hr : (s.ports[q]).retry = [])
    (hl : (s.ports[q]).loopOn = false) (hf : m.flits = [f]) (hs : m.started = false) (hv : m.vc ≤ 1) (h2 : 2 ≤ m.kind) (h6 : m.kind ≤ 6)
    (hcr : 1 + m.more ≤ (s.ports[q]).credits.getD (creditIdx m.kind m.vc) 0) :
    ∃ slot cycle, Tx.flit q (flitBytes m.kind true (m.more == 0) (s.ports[q]).txNext f) slot cycle ∈ (enq q m s).tx := by
  let t := updPort q (fun x => { x with outq := x.outq ++ [m] }) s
  have hport : t.ports[q] = { s.ports[q] with outq := [m] } := by
    rw [updPort_port, hq]
    rfl
  have hcan : (t.ports[q]).canSend m = true := by
    rw [hport]
    simp only [Port.canSend, class_admitted hadm, hr, hf, hs, hcr, List.isEmpty_cons, List.length_nil, List.length_singleton, Bool.not_false, decide_true,
      Bool.false_or, Bool.and_true, Bool.and_eq_true]
    exact ⟨hlive, rfl⟩
  have hnext : (t.ports[q]).next? = some m := next?_single (by rw [hport]) hs hcan hv h2 h6
  have hrest : m.rest.isNone = (m.more == 0) := by
    by_cases h : m.more = 0 <;> simp [OutMsg.rest, hf, h]
  have hpump : enq q m s = sendOut q m t := by
    have hone : ((t.ports[q]).outq.map (·.flits.length)).sum = 1 := by rw [hport]; simp [hf]
    change pump q t = _
    rw [pump, hone, pumpN, hnext]
    rfl
  obtain ⟨slot, cycle, hmem⟩ := sendOut_mem (p := q) (s := t) m (by rw [hport]; exact hl)
  rw [hport, hrest, hs, hf] at hmem
  exact ⟨slot, cycle, hpump ▸ hmem⟩

/-- The first flit of a message that is passed on leaves at once when its port has the credits (R309). -/
theorem passFirst_sends {p q : PortId} {k vc out n : Nat} {b : List Byte} {s : State} (hlive : (s.ports[q]).live = true)
    (hadm : (s.ports[q]).admitted = true ∨ k = 6) (hq : (s.ports[q]).outq = []) (hr : (s.ports[q]).retry = [])
    (hl : (s.ports[q]).loopOn = false) (hv : out ≤ 1) (h2 : 2 ≤ k) (h6 : k ≤ 6) (hn : 1 < n)
    (hcr : n ≤ (s.ports[q]).credits.getD (creditIdx k out) 0) : ∃ slot cycle,
      Tx.flit q (flitBytes k true false (s.ports[q]).txNext (setVc out b)) slot cycle ∈ (passFirst p q k vc out n b s).tx := by
  have hmore : (n - 1 == 0) = false := beq_eq_false_iff_ne.2 (by omega)
  have hsends := enq_sends (q := q) (s := s) (f := setVc out b)
    (m := { kind := k, vc := out, flits := [setVc out b], head := setVc out b, more := n - 1, from_ := some (p.val, creditIdx k vc) })
    hlive hadm hq hr hl rfl rfl hv h2 h6 (by dsimp only; omega)
  rw [hmore] at hsends
  exact hsends

-- acknowledgement and credits (R302 to R304, R306)

/-- A port as what STATUS, NAK and RETRAIN have in common leaves it. -/
def Port.told (b : List Byte) (x : Port) : Port := { x with
  credits := x.credits.zipWith (· + ·) (readCredits (uN b 3 8)), partner := BitVec.ofNat 6 (u8 b 11)
  partnerV := (u8 b 11).testBit 6, pport := BitVec.ofNat 2 (u8 b 12) }

theorem heldFrom_split {n : Nat} {pre post : List HeldFlit} {f : HeldFlit} (hf : f.num = n) (hpre : ∀ g, g ∈ pre → g.num ≠ n) :
    heldFrom n (pre ++ f :: post) = f :: post := by
  rw [heldFrom, List.dropWhile_append_of_pos fun g hg => by simp [hpre g hg], List.dropWhile_cons_of_neg (by simp [hf])]

/-- The flits up to the number leave the retry buffer (R304). -/
theorem ackUpTo_covers {n : Nat} {pre post : List HeldFlit} {f : HeldFlit} {x : Port} (hr : x.retry = pre ++ f :: post) (hf : f.num = n)
    (hpre : ∀ g, g ∈ pre → g.num ≠ n) : ackUpTo n x = { x with retry := post, acked := some n, failed := 0, resent := false } := by
  have hany : (x.retry.any fun g => g.num == n) = true := List.any_eq_true.2 ⟨f, by simp [hr], beq_iff_eq.2 hf⟩
  rw [ackUpTo, if_pos hany, hr, heldFrom_split hf hpre, List.drop_one, List.tail_cons]

theorem ackUpTo_nothing {n : Nat} {x : Port} (h : ∀ g, g ∈ x.retry → g.num ≠ n) : ackUpTo n x = x :=
  if_neg (by simpa using h)

theorem ackUpTo_frame (n : Nat) (x : Port) : ackUpTo n x = { x with
    retry := (ackUpTo n x).retry, acked := (ackUpTo n x).acked, failed := (ackUpTo n x).failed, resent := (ackUpTo n x).resent } := by
  unfold ackUpTo
  split <;> rfl

/-- What a STATUS payload brings is one update of its port. -/
theorem takeAck_eq (p : PortId) (b : List Byte) (s : State) :
    takeAck p b s = updPort p (fun x => ackUpTo (uN b 1 2 % 1024) (x.told b)) s :=
  updPort_updPort p _ _ s

section
variable {p : PortId} {bs : List Byte} {s : State} (hlive : (s.ports[p]).live = true) (hq : (s.ports[p]).outq = [])
include hlive hq

theorem exec_status (h : isLink 1 bs = true) : exec (.status p bs) s = .next (takeAck p ((bs.drop 1).take 13) s) := by
  have hempty : ((takeAck p ((bs.drop 1).take 13) s).ports[p]).outq = [] := by
    rw [takeAck_eq, updPort_port, ackUpTo_frame]
    exact hq
  change execStatus p bs s = _
  simp only [execStatus, h, if_true, takeStatus, carries_of_live hlive, pump_empty hempty]

end

-- retry (R304)

/-- A port that resends. -/
def Port.resends (x : Port) : Port := { x with rtyCnt := x.rtyCnt + 1, resent := true }

theorem sent_all {p : PortId} (fs : List HeldFlit) {s : State} (hl : (s.ports[p]).loopOn = false) :
    Sent p (fs.map (·.bytes)) s (fs.foldl (fun t f => emit p f.bytes t) s) := by
  induction fs generalizing s with
  | nil => exact sent_nil p s
  | cons f r ih =>
    have hone := sent_emit f.bytes hl
    exact sent_trans hone (ih (hone.loopOn.trans hl))

theorem resend_nothing (p : PortId) (s : State) : resend p [] s = s := rfl

/-- The first resend since the ACK advanced counts no failure. -/
theorem sent_resend {p : PortId} {fs : List HeldFlit} {s : State} (hne : fs ≠ []) (hr : (s.ports[p]).resent = false)
    (hf : (s.ports[p]).failed < 16) (hl : (s.ports[p]).loopOn = false) :
    Sent p (fs.map (·.bytes)) (updPort p Port.resends s) (resend p fs s) := by
  have hstay : ¬16 ≤ (s.ports[p]).failed := by omega
  have hempty : ¬fs.isEmpty = true := by simpa using hne
  have hupd : updPort p (fun x => { x with rtyCnt := x.rtyCnt + 1, failed := (s.ports[p]).failed, resent := true }) s =
      updPort p Port.resends s := updPort_congr rfl
  rw [resend, if_neg hempty]
  simp only [hr, Bool.false_eq_true, if_false, if_neg hstay, hupd]
  exact sent_all fs (by rw [updPort_port]; exact hl)

/-- The sixteenth resend without an advance loses the port. -/
theorem resend_fails {p : PortId} {fs : List HeldFlit} {s : State} (hne : fs ≠ []) (hr : (s.ports[p]).resent = true)
    (hf : (s.ports[p]).failed = 15) :
    resend p fs s = dropPort p 3 (updPort p (fun x => { x with rtyCnt := x.rtyCnt + 1, failed := 16, resent := true }) s) := by
  have hempty : ¬fs.isEmpty = true := by simpa using hne
  rw [resend, if_neg hempty]
  simp only [hr, hf, if_true, Nat.reduceAdd, Nat.le_refl]

/-- A NAK resends the held flits from the one it names, after what it has in common with STATUS. -/
theorem exec_nak {p : PortId} {bs : List Byte} {pre post : List HeldFlit} {f : HeldFlit} {s : State} (hlive : (s.ports[p]).live = true)
    (hq : (s.ports[p]).outq = []) (hl : (s.ports[p]).loopOn = false) (h : isLink 2 bs = true) (hr : (s.ports[p]).retry = pre ++ f :: post)
    (hf : f.num = uN ((bs.drop 1).take 13) 1 2 % 1024) (hpre : ∀ g, g ∈ pre → g.num ≠ f.num) (hfirst : (s.ports[p]).resent = false)
    (hfail : (s.ports[p]).failed < 16) : ∃ t, exec (.nak p bs) s = .next t ∧
      Sent p ((f :: post).map (·.bytes)) (updPort p (fun x => (x.told ((bs.drop 1).take 13)).resends) s) t := by
  let u := updPort p (Port.told ((bs.drop 1).take 13)) s
  have hu : u.ports[p] = (s.ports[p]).told ((bs.drop 1).take 13) := updPort_port p _ s
  have hheld : heldFrom (uN ((bs.drop 1).take 13) 1 2 % 1024) (u.ports[p]).retry = f :: post := by
    rw [hu]
    exact (congrArg _ hr).trans (heldFrom_split hf fun g hg => hf ▸ hpre g hg)
  have hsent : Sent p ((f :: post).map (·.bytes)) (updPort p Port.resends u) (resend p (f :: post) u) :=
    sent_resend (List.cons_ne_nil f post) (by rw [hu]; exact hfirst) (by rw [hu]; exact hfail) (by rw [hu]; exact hl)
  have hempty : ((resend p (f :: post) u).ports[p]).outq = [] := by
    rw [hsent.port, updPort_port, hu]
    exact hq
  refine ⟨resend p (f :: post) u, ?_, by rw [updPort_updPort] at hsent; exact hsent⟩
  change execNak p bs s = _
  simp only [execNak, h, if_true, takeNak, hlive]
  change Host.Outcome.next (pump p (resend p (heldFrom _ (u.ports[p]).retry) u)) = _
  rw [hheld, pump_empty hempty]

theorem exec_retryTimeout {p : PortId} {s : State} (hlive : (s.ports[p]).live = true) :
    exec (.retryTimeout p) s = .next (resend p (s.ports[p]).retry s) := by
  change execRetryTimeout p s = _
  simp only [execRetryTimeout, hlive, if_true]

theorem exec_heartbeatSend {p : PortId} {s : State} (hlive : (s.ports[p]).live = true) :
    exec (.heartbeatSend p) s = .next (emit p (linkFlit s p 1 (s.ports[p]).lastGood (s.ports[p]).owed)
      (updPort p (fun y => { y with owed := (s.ports[p]).owed.map (· - 63), ackDue := (s.ports[p]).owed.any (63 < ·) }) s)) := by
  change execHeartbeatSend p s = _
  simp only [execHeartbeatSend, hlive, if_true, sendStatus]
  exact congrArg (fun t => Host.Outcome.next (emit p _ t)) (updPort_congr rfl)

-- slots, IDLE flits and light (R296, R297)

/-- A port that is not in LOOP stands at slot n, two slots to a cycle. -/
def WideAt (p : PortId) (n : Nat) (s : State) : Prop :=
  (s.ports[p]).loopOn = false ∧ (s.ports[p]).half = false ∧ (s.ports[p]).slotN = n

theorem emitOne_wide {p : PortId} {n : Nat} {s : State} (h : WideAt p n s) (b : List Byte) :
    WideAt p (n + 1) (emitOne p b s) ∧ (emitOne p b s).tx = .flit p b (n % 2) (n / 2) :: s.tx := by
  obtain ⟨hl, hh, hn⟩ := h
  have hone : emitOne p b s = (updPort p (fun x => { x with slotN := x.slotN + 1 }) s).send (.flit p b (n % 2) (n / 2)) := by
    rw [emitOne_open b hl, Port.width, hh, hn]
    rfl
  rw [hone]
  refine ⟨?_, rfl⟩
  unfold WideAt
  rw [State.send_ports, updPort_port]
  exact ⟨hl, hh, congrArg (· + 1) hn⟩

theorem emitIdles_wide {p : PortId} {n : Nat} {s : State} (h : WideAt p n s) (hidle : n / 2 % 1024 = 1023) (k : Nat) :
    emitIdles p (k + 1) s = emitIdles p k (emitOne p idleFlit s) := by
  obtain ⟨-, hh, hn⟩ := h
  have hw : (s.ports[p]).width = 2 := by
    rw [Port.width, hh]
    rfl
  rw [emitIdles, hw, hn, if_pos hidle]

/-- The slots of a 1,024th cycle carry IDLE flits, and the flit goes in slot 0 of the next one. -/
theorem emit_after_idles {p : PortId} {n : Nat} {s : State} (bs : List Byte) (h : WideAt p n s) (heven : n % 2 = 0)
    (hidle : n / 2 % 1024 = 1023) :
    (emit p bs s).tx = .flit p bs 0 (n / 2 + 1) :: .flit p idleFlit 1 (n / 2) :: .flit p idleFlit 0 (n / 2) :: s.tx := by
  obtain ⟨w1, h1⟩ := emitOne_wide h idleFlit
  obtain ⟨w2, h2⟩ := emitOne_wide w1 idleFlit
  obtain ⟨-, h3⟩ := emitOne_wide w2 bs
  have hsame : (n + 1) / 2 = n / 2 := by omega
  rw [emit, emitIdles_wide h hidle, emitIdles_wide w1 (by rw [hsame]; exact hidle), emitIdles, h3, h2, h1, hsame, heven,
    show (n + 1) % 2 = 1 by omega, show (n + 1 + 1) % 2 = 0 by omega, show (n + 1 + 1) / 2 = n / 2 + 1 by omega]

theorem mem_lightOf {x : Port} {p : PortId} {slot cycle c : Nat} {bs : List Byte} {v : Word} : (c, v) ∈ x.lightOf p slot cycle bs ↔
    ∃ w, w < 4 ∧ physical x.txUse (4 * slot + w) = some c ∧ v = slotWord bs w ^^^ x.scramble p c cycle := by
  simp only [Port.lightOf, List.mem_filterMap, List.mem_range, Option.map_eq_some_iff, Prod.mk.injEq]
  constructor
  · rintro ⟨w, hw, d, hd, rfl, rfl⟩
    exact ⟨w, hw, hd, rfl⟩
  · rintro ⟨w, hw, hd, rfl⟩
    exact ⟨w, hw, c, hd, rfl, rfl⟩

/-- Two logical wavelengths have two physical ones (R295). -/
theorem physical_inj {use : BitVec 9} {a b c : Nat} (ha : physical use a = some c) (hb : physical use b = some c) : a = b := by
  have hlen : a < (goodOnes use).length := (List.getElem?_eq_some_iff.1 ha).1
  exact (List.getElem?_inj hlen (List.Nodup.filter _ List.nodup_range)).1 (ha.trans hb.symm)

end Sys2Proof.Machine

end

section

open Sys2Proof Sys2Proof.Machine

/-- Settles O40: what 16 received bytes come to is `receive_bad`, `receive_out_of_order`, `receive_here` and `firstFlit_pass`; STATUS is
`takeAck`, one update of its port, and a resend is `Sent` of the flits held. -/
theorem flitsAreCheckedAcknowledgedAndRetried : Obligations.FlitsAreCheckedAcknowledgedAndRetried := by
  refine ⟨?_, ?_, ?_⟩
  · rintro p bs b k s x hx hlive hb hk
    have hgood : ∀ {t : State}, receive p bs s = t → exec (.flitReceive p bs) s = .next t := fun h => congrArg _ h
    refine ⟨fun hlen => hgood (receive_short hlen), fun hlen hcrc hd => ?discarding, fun hlen hcrc hd => ?bad,
      fun hcrc h2 h6 hseq hd => hgood (receive_out_of_order hx hlive hk hcrc h2 h6 hseq hd),
      fun a hcrc h2 h6 hseq hbits hpart hmore hlong ha hd hadm hop => ?opens,
      fun q out hcrc h2 h6 hseq hbits hpart hmore hlong hto hq hqlive hadm hout hretry hloop hcr => ?passes,
      fun a hcrc h2 h6 hseq hbits hpart hone ha hd hadm hop => ?whole,
      fun h => exec_flitReceive_status (hx ▸ hlive) h, fun h => exec_flitReceive_nak (hx ▸ hlive) h⟩
    case discarding =>
      subst hx
      exact hgood ((receive_bad hlive hlen hcrc).trans (badFlit_discarding (by rw [updPort_port]; exact hd)))
    case bad =>
      subst hx
      have hbad := badFlit_first (p := p) (s := updPort p (fun y => { y with crcCnt := y.crcCnt + 1 }) s) (by rw [updPort_port]; exact hlive)
        (by rw [updPort_port]; exact hd)
      rw [updPort_port] at hbad
      exact hgood ((receive_bad hlive hlen hcrc).trans hbad)
    case opens =>
      have hlen : msgLen b ≠ 1 := by unfold msgLen; omega
      refine hgood ((receive_here (eom := false) hx hlive hb hk hcrc h2 h6 hseq hpart hbits (beq_eq_false_iff_ne.2 hlen).symm hlong ha hd
        hadm hop).trans ?_)
      rw [rxFlit_opened_here, if_neg hlen]
      simp only [if_neg hlen]
      rfl
    case passes =>
      have hlen : 1 < msgLen b := by unfold msgLen; omega
      have hout1 : out ≤ 1 := by
        have hle := rxTo_vc_le p k b s
        rw [hto] at hle
        exact hle
      have hport := updPort_port_other (fun y => holdPart (openedBy k b (.pass q)) y.inOrder) s hq
      have hsends := passFirst_sends (p := p) (vc := msgVc b) (b := b) (n := msgLen b) (by rw [hport]; exact hqlive) (by rw [hport]; exact hadm)
        (by rw [hport]; exact hout) (by rw [hport]; exact hretry) (by rw [hport]; exact hloop) hout1 h2 h6 hlen (by rw [hport]; exact hcr)
      rw [hport] at hsends
      obtain ⟨slot, cycle, hmem⟩ := hsends
      exact ⟨_, slot, cycle, hgood (receive_pass hx hlive hb hk hcrc h2 h6 hseq hpart hbits hlen.ne' hlong hto), hmem⟩
    case whole =>
      have hlen : msgLen b = 1 := by unfold msgLen; omega
      refine ⟨_, hgood (receive_here (eom := true) hx hlive hb hk hcrc h2 h6 hseq hpart hbits (beq_iff_eq.2 hlen).symm ?_ ha hd hadm hop), ?_⟩
      · rw [hlen]
        unfold longest
        split <;> omega
      · rw [rxFlit_opened_here, if_pos hlen]
        simp only [if_pos hlen]
        exact ⟨rfl, rfl, rfl⟩
  · rintro p bs b s x rfl hlive rfl
    refine ⟨fun h hq => ?status, fun pre f post h hq hl hr hf hpre hfirst hfail => ?nak, fun hne hfirst hfail hl => ?timeout, fun hr => ?empty,
      fun hne hr hf hv hl hlight hn => ?fails, exec_heartbeatSend hlive⟩
    case status =>
      obtain ⟨hframe, hother⟩ := onlyPort_updPort p (fun x => ackUpTo (uN ((bs.drop 1).take 13) 1 2 % 1024) (x.told ((bs.drop 1).take 13))) s
      refine ⟨_, (exec_status hlive hq h).trans (congrArg _ (takeAck_eq p _ s)), rfl, hother, ?_⟩
      rw [updPort_port]
      refine ⟨by rw [ackUpTo_frame]; rfl, by rw [ackUpTo_frame]; rfl, by rw [ackUpTo_frame]; rfl, fun pre f post hr hf hpre => ?_, fun h => ?_⟩
      · rw [ackUpTo_covers (x := (s.ports[p]).told _) hr hf (hf ▸ hpre)]
        exact ⟨rfl, congrArg some hf.symm, rfl, rfl⟩
      · rw [ackUpTo_nothing (x := (s.ports[p]).told _) h]
        exact ⟨rfl, rfl⟩
    case nak =>
      obtain ⟨t, hexec, hsent⟩ := exec_nak hlive hq hl h hr hf hpre hfirst hfail
      obtain ⟨hframe, hother⟩ := onlyPort_trans (onlyPort_updPort p _ s) hsent.only
      have hport := hsent.port
      rw [updPort_port] at hport
      refine ⟨t, hexec, hframe, hsent.tx, ?_, ?_, ?_, hother⟩ <;> rw [hport] <;> rfl
    case timeout =>
      have hsent := sent_resend hne hfirst hfail hl
      obtain ⟨hframe, hother⟩ := onlyPort_trans (onlyPort_updPort p _ s) hsent.only
      have hport := hsent.port
      rw [updPort_port] at hport
      exact ⟨_, exec_retryTimeout hlive, hframe, hother, hport, hsent.tx⟩
    case empty => rw [exec_retryTimeout hlive, hr, resend_nothing]
    case fails =>
      refine ⟨_, exec_retryTimeout hlive, ?_⟩
      rw [resend_fails hne hr hf]
      have hdrop := portLost_dropPort_light (p := p)
        (s := updPort p (fun x => { x with rtyCnt := x.rtyCnt + 1, failed := 16, resent := true }) s)
        (nonePassed_updPort (fun x => List.Subset.refl _) hn) (by rw [updPort_port]; exact hv) (by rw [updPort_port]; exact hl) 3
        (by rw [updPort_port]; exact hlight)
      exact hdrop.after (onlyPort_updPort p _ s) (by rw [updPort_port]) (by rw [updPort_port])
  · rintro p bs s x w rfl rfl
    refine ⟨fun hl hidle => ?loop, fun hl hidle => ?sends, fun hl hh heven hidle => emit_after_idles bs ⟨hl, hh, rfl⟩ heven hidle, fun k => rfl,
      fun k cycle w c v hmem => ?light⟩
    case loop => exact (emit_no_idle bs hidle).trans (emitOne_loop bs hl)
    case sends => exact (emit_no_idle bs hidle).trans (emitOne_open bs hl)
    case light =>
      obtain ⟨i, hi, hc, rfl⟩ := mem_lightOf.1 hmem
      refine ⟨?_, fun hw _ => ?_⟩
      · rw [BitVec.xor_assoc, BitVec.xor_self, BitVec.xor_zero]
        exact List.mem_map.2 ⟨i, List.mem_range.2 hi, rfl⟩
      · have hsame : i = w := by
          have := physical_inj hc hw
          omega
        rw [hsame]

end

section
/-! How a port comes to carry flits (R311 to R315, R319, R320). -/

namespace Sys2Proof.Machine

-- the wavelengths in use (R312)

theorem sortedLT_goodOnes (m : BitVec 9) : (goodOnes m).SortedLT := (List.pairwise_lt_range.filter _).sortedLT

theorem mem_goodOnes {m : BitVec 9} {i : Nat} : i ∈ goodOnes m ↔ i < 9 ∧ m.getLsbD i = true := by
  simp only [goodOnes, List.mem_filter, List.mem_range]

/-- The mask of a list of wavelengths in increasing order has those wavelengths. -/
theorem goodOnes_mask {l : List Nat} (hl : l.SortedLT) (h9 : ∀ i, i ∈ l → i < 9) :
    goodOnes (BitVec.ofNat 9 (l.map (2 ^ ·)).sum) = l := by
  refine (sortedLT_goodOnes _).eq_of_mem_iff hl fun i => ?_
  have hbit : (l.map (2 ^ ·)).sum.testBit i = true ↔ i ∈ l := by
    rw [← Nat.mem_bitIndices, Nat.bitIndices_sum_map_two_pow hl]
  simp only [mem_goodOnes, BitVec.getLsbD_ofNat, Bool.and_eq_true, decide_eq_true_eq, hbit]
  exact ⟨fun h => h.2.2, fun h => ⟨h9 i h, h9 i h, h⟩⟩

theorem useSet_none_iff (m : BitVec 9) : useSet m = none ↔ (goodOnes m).length < 4 := by
  unfold useSet
  dsimp only
  split <;> simp [*]

/-- The set in use is the lowest eight of the good wavelengths, or the lowest four. -/
theorem goodOnes_useSet {m u : BitVec 9} (h : useSet m = some u) :
    goodOnes u = (goodOnes m).take (if 8 ≤ (goodOnes m).length then 8 else 4) := by
  have htake : ∀ n, goodOnes (BitVec.ofNat 9 (((goodOnes m).take n).map (2 ^ ·)).sum) = (goodOnes m).take n := fun n =>
    goodOnes_mask ((sortedLT_goodOnes m).pairwise.sublist (List.take_sublist n _)).sortedLT
      fun i hi => (mem_goodOnes.1 (List.mem_of_mem_take hi)).1
  unfold useSet at h
  dsimp only at h
  split at h
  · cases h
  · obtain rfl := Option.some.inj h
    rw [← apply_ite (List.take · (goodOnes m))]
    exact htake _

-- probe, answer and relight (R319, R320)

section
variable {p : PortId} {s : State}

theorem exec_probe (hst : (s.ports[p]).st = .safe) : exec (.probe p) s = .next { s with tx := Tx.probe p :: s.tx } := by
  change execProbe p s = _
  simp only [execProbe, hst, beq_self_eq_true, if_true]
  rfl

theorem exec_probe_ignored (hst : (s.ports[p]).st ≠ .safe) : exec (.probe p) s = .next s := by
  change execProbe p s = _
  simp only [execProbe, beq_eq_false_iff_ne.2 hst, Bool.false_eq_true, if_false]

theorem exec_answer (hst : (s.ports[p]).st = .safe) :
    exec (.answer p) s = .next (updPort p (fun y => { y with st := .answer, tx := .answer, light := true }) s) :=
  congrArg Host.Outcome.next (updPort_congr (if_pos (beq_iff_eq.2 hst)))

theorem exec_answer_ignored (hst : (s.ports[p]).st ≠ .safe) : exec (.answer p) s = .next s :=
  congrArg Host.Outcome.next (updPort_eq_self (if_neg (by simpa using hst)))

/-- A port that is lit again (R320). -/
def Port.relights (x : Port) : Port := { x with st := .relit, tx := .full, light := true }

theorem exec_relit (hst : (s.ports[p]).st = .safe ∨ (s.ports[p]).st = .answer) :
    exec (.relit p) s = .next (exoEvent p 4 (beginTrain p (updPort p Port.relights s))) := by
  have hlit : ((s.ports[p]).st == .safe || (s.ports[p]).st == .answer) = true := by
    rcases hst with h | h <;> rw [h] <;> rfl
  change execRelit p s = _
  simp only [execRelit, hlit, if_true]
  rfl

theorem exec_relit_ignored (h1 : (s.ports[p]).st ≠ .safe) (h2 : (s.ports[p]).st ≠ .answer) : exec (.relit p) s = .next s := by
  change execRelit p s = _
  simp only [execRelit, beq_eq_false_iff_ne.2 h1, beq_eq_false_iff_ne.2 h2, Bool.or_self, Bool.false_eq_true, if_false]

-- TRAIN (R302, R311)

/-- What a TRAIN payload leaves of the partner's report. -/
def Port.hears (i : TrainInfo) (y : Port) : Port := { y with peer := if i.good = 0 then y.peer else some i }

theorem exec_train_ignored {bs : List Byte} (h : isLink 3 bs = false ∨ (s.ports[p]).training = false) :
    exec (.train { port := p, bytes := bs }) s = .next s := by
  change execTrain { port := p, bytes := bs } s = _
  rcases h with h | h
  · simp only [execTrain, h, Bool.false_eq_true, if_false]
  · simp only [execTrain, takeTrain, h, Bool.not_false, if_true, ite_self]

/-- The port is in its training steps, and notes the report. -/
theorem exec_train {bs : List Byte} (h : isLink 3 bs = true) (ht : (s.ports[p]).training = true) :
    exec (.train { port := p, bytes := bs }) s = .next (inTrain p (updPort p (Port.hears (readTrain ((bs.drop 1).take 13))) s)) := by
  have hnote : ∀ i : TrainInfo, (if i.good = 0 then s else updPort p (fun x => { x with peer := some i }) s) = updPort p (Port.hears i) s := by
    intro i
    unfold Port.hears
    split
    · exact (updPort_eq_self rfl).symm
    · rfl
  change execTrain { port := p, bytes := bs } s = _
  simp only [execTrain, h, if_true, takeTrain, ht, Bool.not_true, Bool.false_eq_true, if_false, hnote]

/-- In RELIT and TRAIN the steps make the port train. -/
theorem inTrain_trains {s : State} (h : (s.ports[p]).st = .relit ∨ (s.ports[p]).st = .train) :
    inTrain p s = updPort p (fun x => { x with st := .train }) s := by
  refine updPort_congr ?_
  rcases h with h | h
  · exact if_pos (by rw [h]; rfl)
  · rw [if_neg (by rw [h]; decide), ← h]

theorem inTrain_retrain {s : State} (h : (s.ports[p]).st = .retrain) : inTrain p s = s :=
  updPort_eq_self (if_neg (by rw [h]; decide))

theorem training_of_st (h : (s.ports[p]).st = .relit ∨ (s.ports[p]).st = .train ∨ (s.ports[p]).st = .retrain) :
    (s.ports[p]).training = true := by
  unfold Port.training
  rcases h with h | h | h <;> rw [h] <;> rfl

theorem exec_trainRetry {a b : BitVec 9} (hu : useSet a = none ∨ useSet b = none)
    (hst : (s.ports[p]).st = .relit ∨ (s.ports[p]).st = .train) :
    exec (.trainRetry p a b) s = .next (beginTrain p (updPort p (fun x => { x with st := .train }) s)) := by
  have hin : ((s.ports[p]).st == .relit || (s.ports[p]).st == .train) = true := by
    rcases hst with h | h <;> rw [h] <;> rfl
  have hfew : ((useSet a).isNone || (useSet b).isNone) = true := by
    rcases hu with h | h <;> simp [h]
  change execTrainRetry p a b s = _
  simp only [execTrainRetry, hin, hfew, Bool.and_self, if_true, inTrain_trains hst]

end

-- TRAINING_DONE (R311 to R315)

theorem logWave_only (p : PortId) (dir : Nat) (u : BitVec 9) (s : State) :
    logWave p dir u s = { s with rpr := (logWave p dir u s).rpr, freeCtr := (logWave p dir u s).freeCtr } := by
  unfold logWave
  dsimp only
  split <;> split <;> rfl

/-- A port that has trained with the sets in use. -/
def Port.up (tu ru : BitVec 9) (serial : BitVec 64) (rtt freq : BitVec 16) (at_ : Nat) (x : Port) : Port := { trained x with
  st := .active, half := halfSet tu || halfSet ru, self := serial == Config.dsn, txUse := tu, rxUse := ru, rtt := rtt, freq := freq
  slotN := 0, seedAt := at_, peer := none, lossNow := false }

/-- The events of a training that ends. -/
def upEvents (tu ru : BitVec 9) : Nat := 8 + 16 * b2n (spareSet tu || spareSet ru) + 32 * b2n (halfSet tu || halfSet ru)

/-- The port takes the sets into use, and those that use the spare, and those of four, are logged. -/
def setsInUse (p : PortId) (tu ru : BitVec 9) (serial : BitVec 64) (rtt freq : BitVec 16) (s : State) : State :=
  logWave p 1 ru (logWave p 0 tu (updPort p (Port.up tu ru serial rtt freq s.freeCtr) s.tickFree))

/-- The port carries flits. -/
def cameUp (p : PortId) (tu ru : BitVec 9) (serial : BitVec 64) (rtt freq : BitVec 16) (s : State) : State :=
  exoEvent p (BitVec.ofNat 32 (upEvents tu ru)) (setsInUse p tu ru serial rtt freq s)

section
variable {p : PortId} {s : State} {tu ru : BitVec 9} {serial : BitVec 64} {rtt freq : BitVec 16}

theorem setsInUse_says : (setsInUse p tu ru serial rtt freq s).ports = (updPort p (Port.up tu ru serial rtt freq s.freeCtr) s).ports ∧
    (setsInUse p tu ru serial rtt freq s).tx = s.tx ∧ (setsInUse p tu ru serial rtt freq s).swarm = s.swarm ∧
    (setsInUse p tu ru serial rtt freq s).jobs = s.jobs ∧ (setsInUse p tu ru serial rtt freq s).hives = s.hives := by
  unfold setsInUse
  rw [logWave_only, logWave_only]
  exact ⟨rfl, rfl, rfl, rfl, rfl⟩

theorem cameUp_port : (cameUp p tu ru serial rtt freq s).ports[p] = { (s.ports[p]).up tu ru serial rtt freq s.freeCtr with
    evt := (s.ports[p]).evt ||| BitVec.ofNat 32 (upEvents tu ru) } := by
  have hevt : ((s.ports[p]).up tu ru serial rtt freq s.freeCtr).evt = (s.ports[p]).evt := by
    unfold Port.up trained
    split <;> rfl
  rw [cameUp, exoEvent_port, setsInUse_says.1, updPort_port, hevt]

theorem cameUp_port_other {q : PortId} (hq : q ≠ p) : (cameUp p tu ru serial rtt freq s).ports[q] = s.ports[q] := by
  rw [cameUp, exoEvent_port_other _ _ hq, setsInUse_says.1]
  exact updPort_port_other _ s hq

theorem cameUp_keeps : (cameUp p tu ru serial rtt freq s).swarm = s.swarm ∧ (cameUp p tu ru serial rtt freq s).jobs = s.jobs ∧
    (cameUp p tu ru serial rtt freq s).hives = s.hives := by
  obtain ⟨-, -, kswarm, kjobs, khives⟩ := setsInUse_says (p := p) (s := s) (tu := tu) (ru := ru) (serial := serial) (rtt := rtt) (freq := freq)
  obtain ⟨-, hjobs, hhives, hswarm⟩ := exoEvent_keeps p (BitVec.ofNat 32 (upEvents tu ru)) (setsInUse p tu ru serial rtt freq s)
  exact ⟨hswarm.trans kswarm, hjobs.trans kjobs, hhives.trans khives⟩

theorem sentOn_cameUp : sentOn p s.tx ⊆ sentOn p (cameUp p tu ru serial rtt freq s).tx := by
  have hmore := (sendsMore_exoEvent p (BitVec.ofNat 32 (upEvents tu ru)) (setsInUse p tu ru serial rtt freq s)).sentOn p
  rw [setsInUse_says.2.1] at hmore
  exact hmore

theorem portUp_eq (hl : (s.ports[p]).loopOn = false) : portUp p tu ru serial rtt freq s = if (s.ports[p]).st == .retrain then
    pump p (resend p ((cameUp p tu ru serial rtt freq s).ports[p]).retry (cameUp p tu ru serial rtt freq s))
    else cameUp p tu ru serial rtt freq s := by
  have hev : b2n (!(s.ports[p]).loopOn) * 8 + b2n (spareSet tu || spareSet ru) * 16 + b2n (halfSet tu || halfSet ru) * 32 = upEvents tu ru := by
    rw [hl, upEvents, Nat.mul_comm 16, Nat.mul_comm 32]
    rfl
  have hne : upEvents tu ru ≠ 0 := by unfold upEvents; omega
  have hupd : updPort p (fun x => { trained x with
      st := if x.loopOn then .loop else .active, half := halfSet tu || halfSet ru, self := x.loopOn || serial == Config.dsn, txUse := tu
      rxUse := ru, rtt := rtt, freq := freq, slotN := 0, seedAt := s.freeCtr, peer := none, lossNow := false }) s.tickFree =
      updPort p (Port.up tu ru serial rtt freq s.freeCtr) s.tickFree := by
    refine updPort_congr ?_
    simp only [State.tickFree_ports, hl, Bool.false_eq_true, if_false, Bool.false_or, Port.up]
  simp only [portUp, hupd, hev, if_neg hne]
  rfl

end

end Sys2Proof.Machine

end

section
/-! TRAINING_DONE, retraining and the controls of a port (R311 to R315). -/

namespace Sys2Proof.Machine

-- TRAINING_DONE

section
variable {p : PortId} {s : State} {a b : BitVec 9} {serial : BitVec 64} {rtt freq : BitVec 16} (ht : (s.ports[p]).training = true)
include ht

theorem exec_trainingDone {tu ru : BitVec 9} (htu : useSet ((s.ports[p]).report a serial).1 = some tu) (hru : useSet b = some ru)
    (hf : freqOk freq = true) : exec (.trainingDone p a b serial rtt freq) s =
      .next (portUp p tu ru ((s.ports[p]).report a serial).2 rtt freq (sendTrain p b s)) := by
  change execTrainingDone p a b serial rtt freq s = _
  simp only [execTrainingDone, ht, Bool.not_true, Bool.false_eq_true, if_false, htu, hru, hf, if_true]

/-- A retrain that does not find four wavelengths in each direction loses the port (R313). -/
theorem exec_trainingDone_fails (hst : (s.ports[p]).st = .retrain) (hu : useSet ((s.ports[p]).report a serial).1 = none ∨ useSet b = none) :
    exec (.trainingDone p a b serial rtt freq) s = .next (dropPort p 5 (sendTrain p b s)) := by
  change execTrainingDone p a b serial rtt freq s = _
  simp only [execTrainingDone, ht, Bool.not_true, Bool.false_eq_true, if_false, hst, beq_self_eq_true, if_true]
  split
  · next tu ru htu hru =>
    rcases hu with h | h
    · rw [h] at htu; cases htu
    · rw [h] at hru; cases hru
  · rfl

end

/-- The end of a training, after the TRAIN flit of step 4. -/
theorem portUp_first {p : PortId} {s : State} {tu ru : BitVec 9} {serial : BitVec 64} {rtt freq : BitVec 16}
    (hl : (s.ports[p]).loopOn = false) (hst : (s.ports[p]).st = .train) :
    portUp p tu ru serial rtt freq s = cameUp p tu ru serial rtt freq s := by
  rw [portUp_eq hl, if_neg (by rw [hst]; decide)]

theorem up_retrained {tu ru : BitVec 9} {serial : BitVec 64} {rtt freq : BitVec 16} {at_ : Nat} {x : Port} (hst : x.st = .retrain) :
    x.up tu ru serial rtt freq at_ = { x with
      st := .active, half := halfSet tu || halfSet ru, self := serial == Config.dsn, txUse := tu, rxUse := ru, rtt := rtt, freq := freq
      slotN := 0, seedAt := at_, peer := none, lossNow := false } := by
  simp only [Port.up, trained, hst, beq_self_eq_true, if_true]

theorem up_first {tu ru : BitVec 9} {serial : BitVec 64} {rtt freq : BitVec 16} {at_ : Nat} {x : Port} (hst : x.st = .train) :
    x.up tu ru serial rtt freq at_ = { x.clear with
      st := .active, half := halfSet tu || halfSet ru, self := serial == Config.dsn, txUse := tu, rxUse := ru, rtt := rtt, freq := freq
      slotN := 0, seedAt := at_, peer := none, lossNow := false } := by
  simp only [Port.up, trained, show (x.st == .retrain) = false by rw [hst]; rfl, Bool.false_eq_true, if_false]

/-- After a retrain with nothing held and nothing queued nothing is sent. -/
theorem portUp_retrained {p : PortId} {s : State} {tu ru : BitVec 9} {serial : BitVec 64} {rtt freq : BitVec 16}
    (hl : (s.ports[p]).loopOn = false) (hst : (s.ports[p]).st = .retrain) (hr : (s.ports[p]).retry = []) (hq : (s.ports[p]).outq = []) :
    portUp p tu ru serial rtt freq s = cameUp p tu ru serial rtt freq s := by
  have hport := cameUp_port (p := p) (s := s) (tu := tu) (ru := ru) (serial := serial) (rtt := rtt) (freq := freq)
  rw [up_retrained hst] at hport
  have hretry : ((cameUp p tu ru serial rtt freq s).ports[p]).retry = [] := by rw [hport]; exact hr
  have hempty : ((cameUp p tu ru serial rtt freq s).ports[p]).outq = [] := by rw [hport]; exact hq
  rw [portUp_eq hl, if_pos (by rw [hst]; rfl), hretry, resend_nothing, pump_empty hempty]

-- retraining (R313)

theorem enterRetrain_not_active {p : PortId} {s : State} (hst : (s.ports[p]).st ≠ .active) : enterRetrain p s = s := by
  simp only [enterRetrain, beq_eq_false_iff_ne.2 hst, Bool.false_eq_true, if_false]

theorem enterRetrain_active {p : PortId} {s : State} (hst : (s.ports[p]).st = .active) : enterRetrain p s =
    beginTrain p (updPort p (fun x => { x with st := .retrain }) (sendLink p 4 (s.ports[p]).lastGood s)) := by
  simp only [enterRetrain, hst, beq_self_eq_true, if_true]

theorem onlyPort_enterRetrain (p : PortId) (s : State) : OnlyPort p s (enterRetrain p s) := by
  by_cases hst : (s.ports[p]).st = .active
  · rw [enterRetrain_active hst]
    exact onlyPort_trans (onlyPort_trans (onlyPort_emit p _ s) (onlyPort_updPort p _ _)) (onlyPort_beginTrain p _)
  · rw [enterRetrain_not_active hst]
    exact onlyPort_refl p s

/-- A retrain keeps numbers, credits, what is held and what waits. -/
theorem enterRetrain_port (p : PortId) (s : State) : ∃ i n l, (enterRetrain p s).ports[p] = { s.ports[p] with
    st := if (s.ports[p]).st = .active then .retrain else (s.ports[p]).st, peer := i, slotN := n, loopIn := l } := by
  by_cases hst : (s.ports[p]).st = .active
  · obtain ⟨n, l, hsent⟩ := emit_port p (linkFlit s p 4 (s.ports[p]).lastGood (List.replicate 10 0)) s
    refine ⟨none, ((enterRetrain p s).ports[p]).slotN, l, ?_⟩
    rw [enterRetrain_active hst, beginTrain_port, updPort_port, sendLink, hsent, if_pos hst]
  · exact ⟨(s.ports[p]).peer, (s.ports[p]).slotN, (s.ports[p]).loopIn, by rw [enterRetrain_not_active hst, if_neg hst]⟩

/-- RETRAIN and then the first TRAIN flit leave the port. -/
theorem enterRetrain_sends {p : PortId} {s : State} (hst : (s.ports[p]).st = .active) (hl : (s.ports[p]).loopOn = false) :
    (enterRetrain p s).ports[p] = { s.ports[p] with st := .retrain, peer := none, slotN := ((enterRetrain p s).ports[p]).slotN } ∧
    linkFlit s p 4 (s.ports[p]).lastGood (List.replicate 10 0) ∈ sentOn p (enterRetrain p s).tx ∧ TrainSent p 0 0 (enterRetrain p s) := by
  have hlink : Sent p [linkFlit s p 4 (s.ports[p]).lastGood (List.replicate 10 0)] s (sendLink p 4 (s.ports[p]).lastGood s) := sent_emit _ hl
  have hmem := hlink.mem List.mem_cons_self (flitBytes_link_ne_idle _)
  have htrain := sent_beginTrain (p := p) (s := updPort p (fun x => { x with st := .retrain }) (sendLink p 4 (s.ports[p]).lastGood s))
    (by rw [updPort_port]; exact hlink.loopOn.trans hl)
  rw [enterRetrain_active hst]
  refine ⟨?_, ?_, trainSent_of_sent htrain⟩
  · have hport := beginTrain_port p (updPort p (fun x => { x with st := .retrain }) (sendLink p 4 (s.ports[p]).lastGood s))
    rw [updPort_port, hlink.port] at hport
    exact hport
  · rw [htrain.tx]
    exact List.mem_append_right _ hmem

theorem exec_portRetrain (p : PortId) (s : State) : exec (.portRetrain p) s = .next (enterRetrain p s) := rfl

theorem exec_wavelengthLost (p : PortId) (k : Fin 9) (s : State) :
    exec (.wavelengthLost p k) s = .next (if (s.ports[p]).rxUse.getLsbD k.val then enterRetrain p s else s) := rfl

theorem exec_retrain {p : PortId} {bs : List Byte} {s : State} (h : isLink 4 bs = true) (hc : (s.ports[p]).carries = true) :
    exec (.retrain { port := p, bytes := bs }) s = .next (enterRetrain p (takeAck p ((bs.drop 1).take 13) s)) := by
  change execRetrain { port := p, bytes := bs } s = _
  simp only [execRetrain, h, takeRetrain, hc, if_true]

theorem exec_retrain_ignored {p : PortId} {bs : List Byte} {s : State} (h : isLink 4 bs = false ∨ (s.ports[p]).carries = false) :
    exec (.retrain { port := p, bytes := bs }) s = .next s := by
  change execRetrain { port := p, bytes := bs } s = _
  rcases h with h | h <;> simp only [execRetrain, h, takeRetrain, Bool.false_eq_true, if_false, ite_self]

-- EN and LOOP (R315)

/-- A cause that arises after the cycle of a loss changes nothing (R321). -/
theorem secondCause_late {p : PortId} {s : State} (cause : Nat) (h : (s.ports[p]).lossNow = false) : secondCause p cause s = s :=
  updPort_eq_self (if_neg (by simp only [h, Bool.false_and, Bool.false_eq_true, not_false_eq_true]))

section
variable {p : PortId} {s : State}

theorem exec_en_rises (hen : (s.ports[p]).en = false) (hstage : s.boot.stage = 6) (hl : (s.ports[p]).loopOn = false) :
    exec (.en p true) s = .next (updPort p (fun y => { y with en := true, st := .safe, tx := .dark }) s) := by
  have hready : (updPort p (fun y => { y with en := true }) s).isReady = true := by
    rw [State.isReady, updPort_boot, hstage]
    rfl
  change Host.Outcome.next (writeEn p true s) = _
  simp only [writeEn, portRise, hen, hready, updPort_port, hl, Bool.not_true, Bool.or_self, Bool.false_eq_true, if_false, if_true,
    updPort_updPort]

theorem exec_en_falls (hc : (s.ports[p]).carries = false) (hn : (s.ports[p]).lossNow = false) :
    exec (.en p false) s = .next (updPort p (fun y => { y with en := false, st := .down, tx := .dark }) s) := by
  have hlate : secondCause p 6 (updPort p (fun y => { y with en := false }) s) = updPort p (fun y => { y with en := false }) s :=
    secondCause_late 6 (by rw [updPort_port]; exact hn)
  change Host.Outcome.next (writeEn p false s) = _
  simp only [writeEn, hc, Bool.false_eq_true, if_false, hlate, updPort_updPort]

theorem exec_loop_same {v : Bool} (hl : (s.ports[p]).loopOn = v) : exec (.loop p v) s = .next s := by
  have hsame : updPort p (fun y => { y with loopOn := v }) s = s := updPort_eq_self (by rw [← hl])
  change Host.Outcome.next (writeLoop p v s) = _
  simp only [writeLoop, hl, beq_self_eq_true, if_true, hsame]

/-- A port that carries no flits rises anew with the LOOP written. -/
theorem exec_loop_rises {v : Bool} (hl : (s.ports[p]).loopOn ≠ v) (hc : (s.ports[p]).carries = false) (hn : (s.ports[p]).lossNow = false)
    (hd : (s.ports[p]).st ≠ .down) : exec (.loop p v) s = .next (portRise p (updPort p (fun y => { y with loopOn := v }) s)) := by
  have hlate : secondCause p 6 (updPort p (fun y => { y with loopOn := v }) s) = updPort p (fun y => { y with loopOn := v }) s :=
    secondCause_late 6 (by rw [updPort_port]; exact hn)
  change Host.Outcome.next (writeLoop p v s) = _
  simp only [writeLoop, beq_eq_false_iff_ne.2 hl, hc, Bool.false_eq_true, if_false, hlate, updPort_port, beq_eq_false_iff_ne.2 hd]

theorem exec_loop_on (hst : (s.ports[p]).st = .safe) (hl : (s.ports[p]).loopOn = false) (hn : (s.ports[p]).lossNow = false) :
    exec (.loop p true) s = .next (updPort p (fun y => { y with loopOn := true, st := .train, tx := .dark, peer := none }) s) := by
  rw [exec_loop_rises (by rw [hl]; decide) (by unfold Port.carries Port.live; rw [hst]; rfl) hn (by rw [hst]; decide), portRise,
    if_pos (by rw [updPort_port]), beginTrain_loop (by simp only [updPort_port]), updPort_updPort, updPort_updPort]

theorem exec_loop_off (hst : (s.ports[p]).st = .train) (hl : (s.ports[p]).loopOn = true) (hn : (s.ports[p]).lossNow = false) :
    exec (.loop p false) s = .next (updPort p (fun y => { y with loopOn := false, st := .safe, tx := .dark }) s) := by
  rw [exec_loop_rises (by rw [hl]; decide) (by unfold Port.carries Port.live; rw [hst]; rfl) hn (by rw [hst]; decide), portRise,
    if_neg (by rw [updPort_port]; exact Bool.false_ne_true), updPort_updPort]

end

end Sys2Proof.Machine

section

open Sys2Proof Sys2Proof.Machine

/-- Settles O41: each row has its `exec_` equations; what leaves a port is `Sent`, the end of a training is `cameUp`, and the start of
a retrain `enterRetrain`. -/
theorem portsProbeAnswerAndTrain : Obligations.PortsProbeAnswerAndTrain := by
  refine ⟨fun m u => goodOnes_useSet, useSet_none_iff, fun x a serial => ⟨fun h => by rw [Port.report, h], fun i h => by rw [Port.report, h]⟩, ?_⟩
  rintro p s x rfl
  refine ⟨fun h => ⟨exec_probe h, exec_answer h⟩, fun h => ⟨exec_probe_ignored h, exec_answer_ignored h⟩, fun hst => ?relit,
    exec_relit_ignored, fun bs i h hi => ?train, fun bs => exec_train_ignored, fun a b huse hst => ?trainRetry,
    fun a b tu ru serial rtt freq hst hl htu hru hf hdsn => ?done, fun a b tu ru serial rtt freq hst hl htu hru hf hr hq => ?redone,
    fun hst hl => ?portRetrain, fun bs b h hb hc => ?retrain, fun h => congrArg _ (enterRetrain_not_active h), fun bs => exec_retrain_ignored,
    exec_en_rises, exec_en_falls, exec_loop_on, exec_loop_off, fun v => exec_loop_same⟩
  case relit =>
    let u := updPort p Port.relights s
    have hu : u.ports[p] = (s.ports[p]).relights := updPort_port p _ s
    obtain ⟨hframe, hother⟩ := onlyPort_trans (onlyPort_updPort p Port.relights s) (onlyPort_beginTrain p u)
    obtain ⟨-, hjobs, hhives, hswarm⟩ := exoEvent_keeps p 4 (beginTrain p u)
    have hport := exoEvent_port p 4 (beginTrain p u)
    rw [beginTrain_port, hu] at hport
    refine ⟨_, exec_relit hst, ?_, fun hl => ?_, fun q hq => (exoEvent_port_other 4 _ hq).trans (hother q hq), ?_, ?_, ?_⟩
    · rw [hport]
      rfl
    · exact (sendsMore_exoEvent p 4 _).sentOn p (trainSent_of_sent (sent_beginTrain (s := u) (by rw [hu]; exact hl)))
    · rw [hswarm, hframe]
    · rw [hjobs, hframe]
    · rw [hhives, hframe]
  case train =>
    subst hi
    refine ⟨fun hst => ?_, fun hst => ?_⟩
    · rw [exec_train h (training_of_st (hst.imp_right Or.inl)), inTrain_trains (by rw [updPort_port]; exact hst), updPort_updPort]
      rfl
    · rw [exec_train h (training_of_st (Or.inr (Or.inr hst))), inTrain_retrain (by rw [updPort_port]; exact hst)]
      rfl
  case trainRetry =>
    let u := updPort p (fun x => { x with st := .train }) s
    have hu : u.ports[p] = { s.ports[p] with st := .train } := updPort_port p _ s
    obtain ⟨hframe, hother⟩ := onlyPort_trans (onlyPort_updPort p _ s) (onlyPort_beginTrain p u)
    have hport := beginTrain_port p u
    rw [hu] at hport
    exact ⟨_, exec_trainRetry huse hst, hframe, hport, hother, fun hl => trainSent_of_sent (sent_beginTrain (by rw [hu]; exact hl))⟩
  case done =>
    let u := sendTrain p b s
    have hsent : Sent p [trainFlit b (s.ports[p]).echo] s u := sent_sendTrain b hl
    have hfree : u.freeCtr = s.freeCtr := by rw [hsent.only.1]
    have hself : (((s.ports[p]).report a serial).2 == Config.dsn) = false := beq_eq_false_iff_ne.2 hdsn
    have hust : (u.ports[p]).st = .train := by rw [hsent.port]; exact hst
    have hexec := exec_trainingDone (rtt := rtt) (training_of_st (Or.inr (Or.inl hst))) htu hru hf
    rw [portUp_first (hsent.loopOn.trans hl) hust] at hexec
    obtain ⟨hswarm, hjobs, hhives⟩ := cameUp_keeps (p := p) (s := u) (tu := tu) (ru := ru) (serial := ((s.ports[p]).report a serial).2)
      (rtt := rtt) (freq := freq)
    refine ⟨_, hexec, sentOn_cameUp (trainSent_of_sent hsent), ?_, fun q hq => (cameUp_port_other hq).trans (hsent.only.2 q hq), ?_, ?_, ?_⟩
    · rw [cameUp_port, up_first hust, hsent.port, hfree, hself]
      rfl
    · rw [hswarm, hsent.only.1]
    · rw [hjobs, hsent.only.1]
    · rw [hhives, hsent.only.1]
  case redone =>
    let u := sendTrain p b s
    have hsent : Sent p [trainFlit b (s.ports[p]).echo] s u := sent_sendTrain b hl
    have hust : (u.ports[p]).st = .retrain := by rw [hsent.port]; exact hst
    have hexec := exec_trainingDone (rtt := rtt) (training_of_st (Or.inr (Or.inr hst))) htu hru hf
    rw [portUp_retrained (hsent.loopOn.trans hl) hust (by rw [hsent.port]; exact hr) (by rw [hsent.port]; exact hq)] at hexec
    refine ⟨_, hexec, ?_⟩
    rw [cameUp_port, up_retrained hust, hsent.port]
    exact ⟨rfl, rfl, rfl, rfl, rfl, rfl, rfl, fun q hq => (cameUp_port_other hq).trans (hsent.only.2 q hq)⟩
  case portRetrain =>
    obtain ⟨hframe, hother⟩ := onlyPort_enterRetrain p s
    obtain ⟨hport, hlink, htrain⟩ := enterRetrain_sends hst hl
    refine ⟨_, exec_portRetrain p s, hframe, hport, hother, hlink, htrain, fun k => ?_⟩
    rw [exec_wavelengthLost]
  case retrain =>
    subst hb
    let u := takeAck p ((bs.drop 1).take 13) s
    have hu : u = updPort p (fun x => ackUpTo (uN ((bs.drop 1).take 13) 1 2 % 1024) (x.told ((bs.drop 1).take 13))) s := takeAck_eq p _ s
    have hup : u.ports[p] = ackUpTo (uN ((bs.drop 1).take 13) 1 2 % 1024) ((s.ports[p]).told ((bs.drop 1).take 13)) := by
      rw [hu, updPort_port]
    have hust : (u.ports[p]).st = (s.ports[p]).st := by rw [hup, ackUpTo_frame]; rfl
    obtain ⟨hframe, hother⟩ := onlyPort_trans (hu ▸ onlyPort_updPort p _ s) (onlyPort_enterRetrain p u)
    obtain ⟨i, n, l, hport⟩ := enterRetrain_port p u
    refine ⟨_, exec_retrain h hc, hframe, fun hst => ?_, ?_, ?_, hother, fun pre f post hr hf hpre => ?_⟩
    · rw [hport, hust]
      rcases hst with hst | hst
      · exact if_pos hst
      · exact (if_neg (by rw [hst]; decide)).trans hst
    · rw [hport, hup, ackUpTo_frame]
      rfl
    · rw [hport, hup, ackUpTo_frame]
      rfl
    · rw [hport, hup, ackUpTo_covers (x := (s.ports[p]).told _) hr hf fun g hg => hf ▸ hpre g hg]

end

end

section
/-! Ports that are lost, and exchanges that wait too long (R310, R313, R317, R321, R322). -/

namespace Sys2Proof.Machine

-- the timeouts of a port (R313, R321)

section
variable {p : PortId} {s : State}

theorem exec_heartbeatTimeout (h : (s.ports[p]).live = true) : exec (.heartbeatTimeout p) s = .next (dropPort p 2 s) := by
  change execHeartbeatTimeout p s = _
  simp only [execHeartbeatTimeout, h, if_true]

theorem exec_heartbeatTimeout_late (h : (s.ports[p]).live = false) : exec (.heartbeatTimeout p) s = .next (secondCause p 2 s) := by
  change execHeartbeatTimeout p s = _
  simp only [execHeartbeatTimeout, h, Bool.false_eq_true, if_false]

theorem exec_retrainTimeout (h : (s.ports[p]).st = .retrain) : exec (.retrainTimeout p) s = .next (dropPort p 4 s) := by
  change execRetrainTimeout p s = _
  simp only [execRetrainTimeout, h, beq_self_eq_true, if_true]

theorem exec_retrainTimeout_late (h : (s.ports[p]).st ≠ .retrain) : exec (.retrainTimeout p) s = .next (secondCause p 4 s) := by
  change execRetrainTimeout p s = _
  simp only [execRetrainTimeout, beq_eq_false_iff_ne.2 h, Bool.false_eq_true, if_false]

/-- In the cycle of a loss the lowest cause stays (R321). -/
theorem secondCause_lower (cause : Nat) (hn : (s.ports[p]).lossNow = true) (hlt : cause < (s.ports[p]).lossCause.toNat) :
    secondCause p cause s = updPort p (fun y => { y with lossCause := BitVec.ofNat 4 cause }) s :=
  updPort_congr (if_pos (by rw [hn, decide_eq_true hlt]; rfl))

end

/-- Flits that a port sends put no message into a queue. -/
theorem Sent.nonePassed {p : PortId} {l : List (List Byte)} {s t : State} (h : Sent p l s t) (hn : s.nonePassed) : t.nonePassed := by
  refine nonePassed_congr (fun q => ?_) hn
  by_cases hq : q = p
  · rw [hq, h.port]
    exact List.Subset.refl _
  · rw [h.only.2 q hq]
    exact List.Subset.refl _

/-- A retrain that does not find its wavelengths loses the port, which has light (R313). -/
theorem portLost_trainingDone {p : PortId} {s : State} {a b : BitVec 9} {serial : BitVec 64} {rtt freq : BitVec 16}
    (hn : s.nonePassed) (hv : (s.ports[p]).partnerV = false) (hl : (s.ports[p]).loopOn = false) (hst : (s.ports[p]).st = .retrain)
    (hlight : (s.ports[p]).light = true) (hu : useSet ((s.ports[p]).report a serial).1 = none ∨ useSet b = none) :
    ∃ t, exec (.trainingDone p a b serial rtt freq) s = .next t ∧ PortLost p 5 .train .full s t := by
  have hsent : Sent p [trainFlit b (s.ports[p]).echo] s (sendTrain p b s) := sent_sendTrain b hl
  have hlost : PortLost p 5 .train .full (sendTrain p b s) (dropPort p 5 (sendTrain p b s)) :=
    portLost_dropPort_light (hsent.nonePassed hn) (by rw [hsent.port]; exact hv) (hsent.loopOn.trans hl) 5 (by rw [hsent.port]; exact hlight)
  exact ⟨_, exec_trainingDone_fails (training_of_st (Or.inr (Or.inr hst))) hst hu,
    hlost.after hsent.only (by rw [hsent.port]) (by rw [hsent.port])⟩

-- loss of light (R317, R318)

/-- The RX notes what it receives. -/
def Port.receives (lit : Bool) (pwr : BitVec 16) (x : Port) : Port := { x with light := lit, rxPwr := pwr }

theorem lightAt_bright {pwr : BitVec 16} (h : -14 * 256 ≤ pwr.toInt) : lightAt false pwr = true := by
  simp only [lightAt, if_pos h]

theorem lightAt_dim {pwr : BitVec 16} (h : pwr.toInt < -14 * 256) : lightAt false pwr = false := by
  simp only [lightAt, if_neg (Int.not_le.2 h), ite_self]

section
variable {p : PortId} {s : State} {pwr : BitVec 16}

theorem exec_lossOfLight_bright (h : -14 * 256 ≤ pwr.toInt) :
    exec (.lossOfLight p pwr) s = .next (updPort p (Port.receives true pwr) s) := by
  change execLossOfLight p pwr s = _
  simp only [execLossOfLight, lightAt_bright h, if_true]
  rfl

theorem exec_lossOfLight_dim (h : pwr.toInt < -14 * 256) :
    exec (.lossOfLight p pwr) s = .next (goDark p (updPort p (Port.receives false pwr) s)) := by
  change execLossOfLight p pwr s = _
  simp only [execLossOfLight, lightAt_dim h, Bool.false_eq_true, if_false]
  rfl

theorem goDark_carries (hl : (s.ports[p]).loopOn = false) (hst : (s.ports[p]).st = .active ∨ (s.ports[p]).st = .retrain) :
    goDark p s = exoEvent p 2 (losePort p 1 .safe .dark s) := by
  rcases hst with hst | hst <;> simp only [goDark, hl, hst, Bool.false_eq_true, if_false]

theorem goDark_safe (hst : (s.ports[p]).st = .safe) : goDark p s = s := by
  simp only [goDark, hst, ite_self]

/-- A port that carries flits is lost with its light (R317, R321). -/
theorem lossOfLight_loses (hn : s.nonePassed) (hv : (s.ports[p]).partnerV = false) (hl : (s.ports[p]).loopOn = false)
    (hst : (s.ports[p]).st = .active ∨ (s.ports[p]).st = .retrain) (h : pwr.toInt < -14 * 256) :
    ∃ t, exec (.lossOfLight p pwr) s = .next t ∧ PortLost p 1 .safe .dark s t ∧ (t.ports[p]).light = false ∧ (t.ports[p]).rxPwr = pwr ∧
      (t.ports[p]).evt.getLsbD 1 = true := by
  let u := updPort p (Port.receives false pwr) s
  have hu : u.ports[p] = (s.ports[p]).receives false pwr := updPort_port p _ s
  have hun : u.nonePassed := nonePassed_updPort (fun x => List.Subset.refl x.outq) hn
  have huv : (u.ports[p]).partnerV = false := by rw [hu]; exact hv
  have hlost : PortLost p 1 .safe .dark s (losePort p 1 .safe .dark u) :=
    (portLost_losePort hun huv 1 .safe .dark).after (onlyPort_updPort p _ s) (by rw [hu]; rfl) (by rw [hu]; rfl)
  have hexec := exec_lossOfLight_dim (p := p) (s := s) h
  rw [goDark_carries (by rw [hu]; exact hl) (by rw [hu]; exact hst)] at hexec
  refine ⟨_, hexec, hlost.event 2, ?_⟩
  rw [exoEvent_port, losePort_port hun huv, hu]
  refine ⟨rfl, rfl, ?_⟩
  simp

end

/-- EN = 0 loses a port that carries flits (R315). -/
theorem en_falls_loses {p : PortId} {s : State} (hn : s.nonePassed) (hv : (s.ports[p]).partnerV = false) (hst : (s.ports[p]).st = .active) :
    ∃ t, exec (.en p false) s = .next t ∧ PortLost p 6 .down .dark s t ∧ (t.ports[p]).en = false := by
  let u := updPort p (fun y => { y with en := false }) s
  have hu : u.ports[p] = { s.ports[p] with en := false } := updPort_port p _ s
  have hun : u.nonePassed := nonePassed_updPort (fun x => List.Subset.refl x.outq) hn
  have huv : (u.ports[p]).partnerV = false := by rw [hu]; exact hv
  have hc : (s.ports[p]).carries = true := by
    unfold Port.carries Port.live
    rw [hst]
    rfl
  have hexec : exec (.en p false) s = .next (losePort p 6 .down .dark u) := by
    change Host.Outcome.next (writeEn p false s) = _
    simp only [writeEn, hc, Bool.false_eq_true, if_false, if_true]
    rfl
  refine ⟨_, hexec, (portLost_losePort hun huv 6 .down .dark).after (onlyPort_updPort p _ s) (by rw [hu]) (by rw [hu]), ?_⟩
  rw [losePort_port hun huv, hu]
  rfl

-- what sending leaves of EXO_PEVT

/-- No port's events moved. -/
def SameEvents (s t : State) : Prop := ∀ q : PortId, (t.ports[q]).evt = (s.ports[q]).evt

theorem sameEvents_refl (s : State) : SameEvents s s := fun _ => rfl

theorem sameEvents_trans {s t u : State} (h : SameEvents s t) (g : SameEvents t u) : SameEvents s u := fun q => (g q).trans (h q)

theorem sameEvents_onlyPort {p : PortId} {s t : State} (h : OnlyPort p s t) (he : (t.ports[p]).evt = (s.ports[p]).evt) : SameEvents s t := by
  intro q
  by_cases hq : q = p
  · rw [hq, he]
  · rw [h.2 q hq]

theorem sameEvents_updPort (p : PortId) {f : Port → Port} (hf : ∀ x, (f x).evt = x.evt) (s : State) : SameEvents s (updPort p f s) :=
  sameEvents_onlyPort (onlyPort_updPort p f s) (by rw [updPort_port, hf])

theorem sameEvents_emit (p : PortId) (bs : List Byte) (s : State) : SameEvents s (emit p bs s) := by
  obtain ⟨n, l, hport⟩ := emit_port p bs s
  exact sameEvents_onlyPort (onlyPort_emit p bs s) (by rw [hport])

theorem sameEvents_leaveBuffer (m : OutMsg) (n : Nat) (s : State) : SameEvents s (leaveBuffer m n s) := by
  unfold leaveBuffer
  split
  · exact sameEvents_refl s
  · split
    · exact sameEvents_updPort _ (f := oweCredits _ n) (fun _ => rfl) s
    · exact sameEvents_refl s

theorem sameEvents_sendFlit (p : PortId) (k : Nat) (som eom : Bool) (b : List Byte) (s : State) : SameEvents s (sendFlit p k som eom b s) := by
  unfold sendFlit
  refine sameEvents_trans ?_ (sameEvents_emit p _ _)
  exact sameEvents_updPort p (fun _ => by rfl) s

theorem sameEvents_sendOut (p : PortId) (m : OutMsg) (s : State) : SameEvents s (sendOut p m s) := by
  unfold sendOut
  refine sameEvents_trans (sameEvents_trans ?_ (sameEvents_sendFlit p _ _ _ _ _)) (sameEvents_leaveBuffer m 1 _)
  exact sameEvents_updPort p (fun _ => by rfl) s

theorem sameEvents_pumpN (p : PortId) (n : Nat) (s : State) : SameEvents s (pumpN p n s) := by
  induction n generalizing s with
  | zero => exact sameEvents_refl s
  | succ n ih =>
    simp only [pumpN]
    split
    · exact sameEvents_refl s
    · exact sameEvents_trans (sameEvents_sendOut p _ s) (ih _)

theorem sameEvents_enq (p : PortId) (m : OutMsg) (s : State) : SameEvents s (enq p m s) := by
  refine sameEvents_trans ?_ (sameEvents_pumpN p _ _)
  exact sameEvents_updPort p (fun _ => by rfl) s

theorem sameEvents_sendMsg (dst home : StnId) (tag : BitVec 16) (m : SwMsg) (s : State) : SameEvents s (sendMsg dst home tag m s) := by
  unfold sendMsg
  split
  · split
    · exact sameEvents_refl s
    · exact sameEvents_enq _ _ (s.send (.swarm dst home tag m))
  · exact sameEvents_refl s

theorem sameEvents_sendSwAll (j : Job) (m : SwMsg) (l : List StnId) (s : State) : SameEvents s (sendSwAll j m l s) := by
  induction l generalizing s with
  | nil => exact sameEvents_refl s
  | cons a r ih => exact sameEvents_trans (sameEvents_sendMsg a _ _ m s) (ih _)

theorem sameEvents_stopOthers (j : Job) (reason : Nat) (s : State) : SameEvents s (stopOthers j reason s) := by
  unfold stopOthers
  split
  · exact sameEvents_sendSwAll j _ _ _
  · exact sameEvents_refl s

-- the end of a job that waits for its other stations (R263, R337)

/-- A job that orders its other stations to stop. -/
def Job.ordersStop (j : Job) : Job := { j with stopSent := true }

/-- The orders to stop leave the swarm and the hives as they were, and of the jobs move no more than STOP's own mark. -/
theorem stopOthers_says (j : Job) (reason : Nat) (s : State) : (stopOthers j reason s).swarm = s.swarm ∧
    ((stopOthers j reason s).jobs = s.jobs ∨ (stopOthers j reason s).jobs = (updJob j.slot Job.ordersStop s).jobs) := by
  unfold stopOthers
  split
  · rw [onlyPorts_sendSwAll j _ _ _]
    exact ⟨rfl, Or.inr rfl⟩
  · exact ⟨rfl, Or.inl rfl⟩

/-- The ending of a job stands when its other stations have been ordered to stop. -/
theorem stopOthers_ending (j : Job) (reason : Nat) (s : State) :
    ((stopOthers j reason s).job? j.slot).map (·.ending) = (s.job? j.slot).map (·.ending) := by
  rcases (stopOthers_says j reason s).2 with hjobs | hjobs
  · rw [job?_congr hjobs]
  · rw [job?_congr hjobs, job?_updJob j.slot (f := Job.ordersStop) fun _ => rfl, Option.map_map]
    rfl

section
variable {s : State} {j : Job} (hj : s.job? j.slot = some j) (hst : j.st = .running) (hd : s.othersDone j = false)
include hj hst hd

/-- A running job whose other stations are not done stays, its ending noted and its programs asked to stop. -/
theorem endJob_waits (e : Ending) (w : StopWhy) : endJob j.slot e w s =
    askStops w ((noteEnd j j.slot e s).hivesRunning j.slot) (updJob j.slot Job.toStop (noteEnd j j.slot e s)) := by
  have hwait : (stopOthers j e.reason (updJob j.slot (Job.endWith e) s)).othersDone j = false := by
    have hothers := others_congr (stopOthers_says j e.reason (updJob j.slot (Job.endWith e) s)).1 j
    rw [← hd, State.othersDone, hothers]
    rfl
  simp only [endJob, hj, hst, hwait]
  simp only [Bool.not_false, Bool.and_true, Bool.or_true, show (JobSt.running == JobSt.ended) = false from rfl,
    show (JobSt.running != JobSt.queued) = true from rfl, Bool.false_eq_true, if_false, if_true]
  rfl

theorem endJob_waits_events (e : Ending) (w : StopWhy) : SameEvents s (endJob j.slot e w s) := by
  rw [endJob_waits hj hst hd, askStops_only]
  exact sameEvents_stopOthers j e.reason (updJob j.slot (Job.endWith e) s)

theorem endJob_waits_ending (hend : j.ending = none) (e : Ending) (w : StopWhy) :
    ((endJob j.slot e w s).job? j.slot).bind (·.ending) = some e := by
  have hstop : ((stopOthers j e.reason (updJob j.slot (Job.endWith e) s)).job? j.slot).map (·.ending) = some (some e) := by
    rw [stopOthers_ending, job?_updJob j.slot (endWith_slot e), hj]
    exact congrArg some (endWith_first hend)
  obtain ⟨i, hi, he⟩ := Option.map_eq_some_iff.1 hstop
  have hfound : (endJob j.slot e w s).job? j.slot = some i.toStop := by
    rw [endJob_waits hj hst hd, askStops_only]
    change (updJob j.slot Job.toStop (stopOthers j e.reason (updJob j.slot (Job.endWith e) s))).job? j.slot = _
    rw [job?_updJob j.slot (f := Job.toStop) fun _ => rfl, hi]
    rfl
  rw [hfound]
  exact he

end

-- an exchange that waits too long (R310)

theorem linkTimeout_eq (dst : StnId) (p : PortId) :
    linkTimeout dst.val p.val = { code := .linkTimeout, detail := BitVec.ofNat 64 (dst.val + 256 * p.val) } := by
  rw [linkTimeout, Nat.mod_eq_of_lt (by omega : dst.val < 256), Nat.mod_eq_of_lt (by omega : p.val < 256)]

/-- EXCHANGE_TIMEOUT with nothing in the port's queue, at the home station of the one job of the table. -/
theorem exec_exchangeTimeout {p : PortId} {dst : StnId} {tag : BitVec 16} {s : State} {j : Job} (hq : (s.ports[p]).outq = [])
    (hjobs : s.jobs = [j]) (hh : j.isHome = true) (ht : j.tag = tag) :
    exec (.exchangeTimeout p dst s.stn tag) s = .next (endJob j.slot (linkTimeout dst.val p.val) (.cancel 0) (exoEvent p 64 s)) := by
  obtain ⟨-, kjobs, -, kswarm⟩ := exoEvent_keeps p 64 s
  have hcut : cutOut p (ofExchange dst s.stn tag) s = s := cutOut_nothing fun m hm => by
    rw [hq] at hm
    cases hm
  have hstn : (s.stn != (exoEvent p 64 s).stn) = false := by
    rw [State.stn, State.stn, kswarm]
    exact bne_self_eq_false _
  have hfind : ((exoEvent p 64 s).jobs.find? fun i => i.isHome && i.tag == tag) = some j := by
    rw [kjobs, hjobs, List.find?_cons_of_pos (by simp [hh, ht])]
  change execExchangeTimeout p dst s.stn tag s = _
  simp only [execExchangeTimeout, hcut, hstn, hfind, Bool.false_eq_true, if_false]

end Sys2Proof.Machine

section

open Sys2Proof Sys2Proof.Machine

/-- Settles O42: each loss is `losePort`, whose effect is `PortLost`, after and before steps that a loss does not speak of; the job of
an exchange ends by `endJob_waits`. -/
theorem portsAndExchangesAreLost : Obligations.PortsAndExchangesAreLost := by
  constructor
  · rintro p s x rfl hv hl hn
    refine ⟨fun hlive hlight => ⟨_, exec_heartbeatTimeout hlive, portLost_dropPort_light hn hv hl 2 hlight⟩,
      fun hlive hdark => ⟨_, exec_heartbeatTimeout hlive, portLost_dropPort_dark hn hv hl 2 hdark⟩, fun hlive hnow => ?late,
      fun hlive hnow hlt => ?lower, fun hst hlight => ⟨⟨_, exec_retrainTimeout hst, portLost_dropPort_light hn hv hl 4 hlight⟩,
        fun a b serial rtt freq hu => portLost_trainingDone hn hv hl hst hlight hu⟩, fun hst hnow => ?lateRetrain,
      fun pwr => exec_lossOfLight_bright, fun pwr h hst => lossOfLight_loses hn hv hl hst h, fun pwr h hst => ?safe,
      en_falls_loses hn hv⟩
    case late => rw [exec_heartbeatTimeout_late hlive, secondCause_late 2 hnow]
    case lower =>
      rw [exec_heartbeatTimeout_late hlive, secondCause_lower 2 hnow hlt]
      rfl
    case lateRetrain => rw [exec_retrainTimeout_late hst, secondCause_late 4 hnow]
    case safe =>
      rw [exec_lossOfLight_dim h, goDark_safe (by rw [updPort_port]; exact hst)]
      rfl
  · intro p dst tag s j hq hjobs hh ht hst hend hd
    obtain ⟨-, kjobs, -, kswarm⟩ := exoEvent_keeps p 64 s
    have hj : (exoEvent p 64 s).job? j.slot = some j := by
      rw [State.job?, kjobs, hjobs, List.find?_cons_of_pos (by simp)]
    have hwait : (exoEvent p 64 s).othersDone j = false := by
      rw [← hd, State.othersDone, others_congr kswarm]
      rfl
    refine ⟨_, exec_exchangeTimeout hq hjobs hh ht, ?_, ?_⟩
    · rw [endJob_waits_events hj hst hwait, exoEvent_port]
    · rw [endJob_waits_ending hj hst hwait hend, linkTimeout_eq]

end

end
